-- ==== Sys2Proof/Word.lean ====
section
/-! DEFINITION. The plain data types that every file of the model uses: bytes, addresses, sparse tables and sparse
byte stores. Nothing here is specific to the ZPV-8420 but the sizes. -/
namespace Sys2Proof

/-- One byte (00_scope R4: every multi-byte field is little-endian). -/
abbrev Byte := BitVec 8

/-- A sparse table: a list of (key, value) pairs with strictly rising keys. -/
abbrev Tbl (α : Type) := List (Nat × α)

/-- A sparse byte store in canonical form: addresses strictly rising and no byte equal to zero, which is what an
unlisted address reads as. -/
abbrev Mem := List Host.Cell

end Sys2Proof
end

