-- ==== Sys2Proof/Machine/StateControl.lean ====
section
/-! DEFINITION. The state of the mailbox channels, the completion rings, the contexts and the Gaffer
(spec/02_control_model.md), as plain data. -/
namespace Sys2Proof

/-- The identity of a requester (R49). -/
inductive Owner where
  /-- OWNER_KIND 1: host LD, numbered 16 × port + LD (OWNER_ID [5:4] port, [3:0] LD). -/
  | ld (id : BitVec 6)
  /-- OWNER_KIND 2, addressed: a partition of a peer module. -/
  | peer (device : BitVec 14) (partition : BitVec 6)
  /-- OWNER_KIND 2, unaddressed: a neighbour known by its arrival port. -/
  | neighbour (port : BitVec 4)
  /-- OWNER_KIND 3: an MCTP endpoint; medium 0 sideband I3C, 1 to 4 PCIe VDM on host ports 0 to 3. -/
  | mctp (medium : BitVec 3) (eid : BitVec 8)
  deriving DecidableEq, Repr

namespace Machine

/-- The status codes of R82. -/
inductive Status where
  | ok | pending | accepted | badOpcode | badArgument | notPermitted | noResource | notReady | conflict
  | busy | poisoned | timeout | aborted | fenced | capacity
  deriving DecidableEq, Repr

/-- A completion record as the module holds or writes it (R70). -/
structure RingRec where
  tag : Nat
  context : Nat
  status : Status
  /-- KIND [14:12]: 0 command completion, 1 event, 2 bulk completion. -/
  kind : Nat
  code : Nat
  detail : Nat
  data : Nat
  deriving DecidableEq, Repr

/-- A completion ring in host memory (R68, R71, R73). -/
structure Ring where
  base : Nat
  log2 : Nat
  irq : Bool
  disabled : Bool
  deriving DecidableEq, Repr

/-- One indirect buffer that a command or a movement load reads (R58). -/
structure DmaBuf where
  /-- The channel number of the command, or 4,096 + the context slot of the load. -/
  key : Nat
  /-- Which of the command's buffers it is, and the command-slot offset of its descriptor (R58, R59). -/
  index : Nat
  descAt : Nat
  /-- SPACE 0: the LD that reads host memory; SPACE 2: none. -/
  ld : Option Nat
  address : Nat
  length : Nat
  /-- Bytes that have been requested, bytes that have arrived, and those bytes. -/
  asked : Nat
  arrived : Nat
  got : Mem
  deriving DecidableEq, Repr

/-- The copy of a command slot taken when its doorbell was accepted (R60). -/
structure InFlight where
  /-- The 256 B of the slot. -/
  slot : Mem
  /-- The Gaffer has begun to serve the command. -/
  started : Bool
  deriving DecidableEq, Repr

/-- A mailbox channel that is bound (R47 to R64); a free channel has no entry. -/
structure Chan where
  owner : Owner
  closing : Bool
  seq : BitVec 16
  /-- CHN_ERR [4:0]. -/
  err : BitVec 5
  /-- CHN_CRING_HEAD [31:0], [63:48] and CHN_CRING_TAIL [31:0]. -/
  head : BitVec 32
  lost : BitVec 16
  tail : BitVec 32
  cmd : Mem
  res : Mem
  status : BitVec 32
  inflight : Option InFlight
  ring : Option Ring
  held : List RingRec
  /-- Event subscriptions: event code and partition (64 for a module-wide event) (R90). -/
  subs : List (Nat × Nat)
  deriving DecidableEq, Repr

/-- The state of a context (R86). -/
inductive CtxState where
  | free | active | cancelling | complete
  deriving DecidableEq, Repr

/-- How a command names a version of a region. -/
inductive VerSel where
  | head | sealed (number : Nat) | working (slot : Nat)
  /-- This member's part of a fabric region's working version, named by its origin and context: origin × 2^32 + WCTX. -/
  | part (key : Nat)
  /-- The version that a seal just made, for a write that reached the walker before the seal (R210): its number, and the
  working version that goes on, as a part or as a context slot. -/
  | late (number : Nat) (isPart : Bool) (key : Nat)
  deriving DecidableEq, Repr

/-- The work that a context runs after ACCEPTED (R65), or that a lasting context stands for. -/
inductive Work where
  /-- A lasting context with no work of its own in progress. -/
  | none
  | checkpoint (region version encoded : Nat)
  | setResidency (region mode : Nat)
  | prefetch (region target : Nat) (todo : List Nat) (skipped : Nat)
  | evictHint (region : Nat) (todo : List Nat) (skipped : Nat)
  /-- REBUILD_TABLE: the reserved slot, COVER_ALL, the version, and the range sampled. -/
  | rebuild (region slot : Nat) (cover : Bool) (sel : VerSel) (first count : Nat)
  /-- TABLE_SWEEP: GEN_MASK as it stands, FLAGS, the records to visit, those under re-encode, and the count. -/
  | sweep (region gens flags : Nat) (todo going : List Nat) (done : Nat)
  | load (slot : Nat)
  | stopRun (slot : Nat)
  | scrub
  | testRun
  | dumpTensor (movement : Nat)
  | discover (mask timeoutMs : Nat)
  | remoteOp (token : Nat)
  | rehome
  | ftcSync (mode : Nat)
  | setRung (target : Nat)
  | fwUpdate (kind : Nat)
  | fwActivate (mode : Nat)
  | lifecycle (target : Nat)
  | debugUnlock
  deriving DecidableEq, Repr

/-- What a lasting context holds open. -/
inductive Obj where
  | none
  | view (region version : Nat)
  | working (region base : Nat) (map : Tbl Nat)
  | movement (slot : Nat)
  | stream (slot : Nat)
  deriving DecidableEq, Repr

/-- A window over host address space (R198). -/
structure Window where
  ld : Nat
  extent : Nat
  count : Nat
  firstOrdinal : Nat
  deriving DecidableEq, Repr

/-- A context slot that has been used at least once (R84 to R87). A slot with no entry is FREE with generation 0. -/
structure Ctx where
  gen : BitVec 16
  state : CtxState
  partition : Nat
  tag : Nat
  opcode : Nat
  progress : Nat
  final : Status
  detail : Nat
  data : Nat
  /-- The channel of the creating command, and whether it set NO_RING. -/
  chan : Nat
  noRing : Bool
  /-- The channel was still bound to the creating requester when last seen. -/
  chanOwner : Owner
  /-- The work has passed its point of no return. -/
  pastPonr : Bool
  work : Work
  obj : Obj
  window : Option Window
  /-- The holder LD (R217), if the context has one. -/
  holder : Option Nat
  /-- A write through the view's window has been logged (R198). -/
  viewWriteLogged : Bool
  deriving DecidableEq, Repr

/-- The Gaffer complex and its service of the channels (R43 to R45). -/
structure Gaffer where
  /-- A fault has been latched in pair 0 / pair 1 (R44). -/
  fault0 : Bool
  fault1 : Bool
  /-- Channels whose command is pending, in the order in which their doorbells arrived (R45). -/
  order : List Nat
  /-- A doorbell waits for the module to wake (R66). -/
  wakeLatched : Bool
  deriving DecidableEq, Repr

end Machine
end Sys2Proof
end

