-- ==== Sys2Proof/Syntax.lean ====
section
/-! DEFINITION. The commands of the block: one constructor for each row of spec/opcode_table.json, with its operands. A
mailbox command names the channel whose copied command slot holds its arguments; a descriptor names its core; a packet
names the fabric port at which it has arrived. -/
namespace Sys2Proof

/-- A mailbox channel (R46). -/
abbrev ChanNo := BitVec 12
/-- A context slot (R85). -/
abbrev SlotNo := BitVec 16
/-- A logical device, 16 × host port + LD (R49). -/
abbrev LdId := BitVec 6
/-- A sliver core (R14). -/
abbrev CoreNo := BitVec 12

/-- A BAR of an LD (R437). -/
inductive Bar where
  | f0bar0 | f1bar0 | f1bar2 | f1bar4
  deriving DecidableEq, Repr

/-- What the protection of the place that is read reports (R463). -/
inductive Media where
  | good | corrected | uncorrectable
  /-- In T0, the metadata line of the row is lost (R385); elsewhere as uncorrectable. -/
  | metaLost
  deriving DecidableEq, Repr

/-- What an uncorrectable word of B-die SRAM held (R464). -/
inductive SramWord where
  /-- A cached map entry or key pair. -/
  | cacheEntry
  /-- A table store slot; `all`: the copies of all four B-dies fail. -/
  | tableSlot (slot : Nat) (all : Bool)
  | contextRecord (slot : Nat)
  /-- The data of a write that waits, by its place in the queue of held writes. -/
  | heldWrite (index : Nat)
  /-- The payload of the packet at an index of a fabric port's egress queue. -/
  | egress (port : Nat) (index : Nat)
  /-- The image of a record in the T2 write buffer. -/
  | writeBuffer (record : Nat)
  /-- The error record with a SEQUENCE. -/
  | logEntry (sequence : Nat)
  deriving DecidableEq, Repr

/-- A pass of the walkers over the counters of a region (R112), and the uncorrectable word of the SRAM of a B-die that it meets, if any (R464). -/
structure WalkerPass where
  region : Nat
  sram : Option (BitVec 2 × SramWord)
  deriving DecidableEq, Repr

/-- The add policies of R190. -/
inductive AddPolicy where
  | free | contiguous | prescriptive
  deriving DecidableEq, Repr

/-- The paths of SPDM messages (R444, R605). -/
inductive SpdmPath where
  | doe | mctp | key
  deriving DecidableEq, Repr

/-- The wakes of R566 and R574. -/
inductive WakeCause where
  | doorbell (group : BitVec 8) | hostLink | fabric | lease (cleanup : Bool) | leak | sideband | presence | timer
  deriving DecidableEq, Repr

/-- One command: a write to a register, an operation of a protocol, an event of the module (spec/opcode_table.json). -/
inductive Instr where
  /-- OPEN_CHANNEL (R52): A write of OPEN = 1 to CHN_CTRL binds a free channel to the writer; a write to a bound or closing channel has no effect. -/
  | openChannel (ch : ChanNo) (who : Owner)
  /-- CLOSE_CHANNEL (R55): The owner writes OPEN = 0; the channel starts to close at once, or at the final status of its pending command. -/
  | closeChannel (ch : ChanNo) (who : Owner)
  /-- CHANNEL_FREE (R55): A closing channel becomes free and every field of its page returns to its reset value. -/
  | channelFree (ch : ChanNo)
  /-- CHANNEL_IDLE_TIMEOUT (R56): After 600 s with no access by an owner that is not a host LD, the module closes the channel. -/
  | channelIdleTimeout (ch : ChanNo)
  /-- RING_DOORBELL (R60): A write of RING = 1 copies the command slot, increments CHN_SEQ, sets the status word to PENDING and starts the command. -/
  | ringDoorbell (ch : ChanNo) (who : Owner)
  /-- CHN_ERR_CLEAR (R51): A W1C write to CHN_ERR clears its bits, except a bit that the module sets in the same cycle. -/
  | chnErrClear (ch : ChanNo) (who : Owner) (value : BitVec 64)
  /-- RESULT_SLOT_WRITE (R50): A write by the owner to the result slot or result status word is discarded and sets RESULT_WRITE. -/
  | resultSlotWrite (ch : ChanNo) (who : Owner)
  /-- CRING_TAIL_WRITE (R641): A write to CHN_CRING_TAIL advances the consumer index when it is within range, and is otherwise discarded. -/
  | cringTailWrite (ch : ChanNo) (who : Owner) (value : BitVec 64)
  /-- CONTEXT_WORK_COMPLETE (R65): The work of a command that completed with ACCEPTED ends, and its final status goes to its context and completion record. -/
  | contextWorkComplete (slot : SlotNo)
  /-- RING_WRITE_FAILED (R73): A ring write receives an error response; the module sets CRING_FAULT, disables the ring and holds further records. -/
  | ringWriteFailed (ch : ChanNo) (index : BitVec 32)
  /-- CONTEXT_RETIRE (R86): A COMPLETE context whose status has not been read becomes FREE 10 s after completion. -/
  | contextRetire (slot : SlotNo)
  /-- GAFFER_PAIR_FAULT (R44): A lockstep mismatch in a Gaffer pair is a privileged fault, and the surviving pair takes over both duties. -/
  | gafferPairFault (pair : BitVec 1)
  /-- GAFFER_WATCHDOG_RESET (R595): When the heartbeat of Gaffer pair 0 has been missing for 1 s, the Balance domain performs a Gaffer-initiated reset. -/
  | gafferWatchdogReset
  /-- LSE_RENEW (R217): A write of 1 to LSE_RENEW renews the LD's lease, and returns it from GRACE to LIVE. -/
  | lseRenew (ld : LdId)
  /-- STS_LATCH_CLEAR (R635): A W1C write to STS_LATCH by a manager LD clears the latched leak flags, unless the condition persists. -/
  | stsLatchClear (ld : LdId) (value : BitVec 64)
  /-- INTX_STATUS_CLEAR (R456): A W1C write to INTX_STATUS clears bits and de-asserts INTx when no enabled bit remains. -/
  | intxStatusClear (ld : LdId) (fn : BitVec 1) (value : BitVec 64)
  /-- INTX_CHN_PEND_CLEAR (R637): A W1C write to INTX_CHN_PEND clears the pending bits of the LD's own channels. -/
  | intxChnPendClear (ld : LdId) (word : BitVec 6) (value : BitVec 64)
  /-- INTX_ENABLE_WRITE (R453): A write to INTX_ENABLE changes the INTx condition and sends one Assert_INTA or Deassert_INTA when it changes. -/
  | intxEnableWrite (ld : LdId) (fn : BitVec 1) (value : BitVec 64)
  /-- REGISTER_WRITE (R627): A write to a register that has no behaviour of its own updates its RW fields, and writes to RO fields are discarded. -/
  | registerWrite (who : Owner) (bar : Bar) (offset : Nat) (data : List Byte)
  /-- HDM_DECODER_COMMIT (R446): A commit of an HDM decoder either takes effect or sets Error Not Committed. -/
  | hdmDecoderCommit (ld : LdId) (index : BitVec 2)
  /-- CONFIG_WRITE (R440): A configuration write updates the writable bytes, or is answered as an unsupported request when it writes none. -/
  | configWrite (ld : LdId) (fn : BitVec 1) (offset : BitVec 12) (data : List Byte)
  /-- BUS_MASTER_DISABLE (R457): Clearing Bus Master Enable of function 1 holds every DMA of the LD that has not yet been issued. -/
  | busMasterDisable (ld : LdId)
  /-- IDENTIFY (R88): Returns the serial, variant, life cycle, firmware version, tier capacities, device ID and fenced core count. -/
  | identify (ch : ChanNo)
  /-- GET_STATUS (R88): Returns readiness, rung, boot progress, unread records, FTC, temperature and free contexts. -/
  | getStatus (ch : ChanNo)
  /-- GET_CAPABILITIES (R81): Returns the module's capabilities. -/
  | getCapabilities (ch : ChanNo)
  /-- GET_TIME (R81): Returns the module's time. -/
  | getTime (ch : ChanNo)
  /-- CHANNEL_INFO (R81): Returns information on the channel. -/
  | channelInfo (ch : ChanNo)
  /-- RING_SETUP (R89): Creates or replaces the channel's completion ring in host memory. -/
  | ringSetup (ch : ChanNo)
  /-- RING_TEARDOWN (R89): Removes the channel's ring at once; held records are not written. -/
  | ringTeardown (ch : ChanNo)
  /-- EVENT_SUBSCRIBE (R90): Subscribes the channel to an event code. -/
  | eventSubscribe (ch : ChanNo)
  /-- EVENT_UNSUBSCRIBE (R90): Removes the channel's subscription to an event code. -/
  | eventUnsubscribe (ch : ChanNo)
  /-- CONTEXT_STATUS (R89): Returns a context's state, final status, progress, TAG, DETAIL and DATA. -/
  | contextStatus (ch : ChanNo)
  /-- CONTEXT_CANCEL (R87): Cancels a context's work before its point of no return. -/
  | contextCancel (ch : ChanNo)
  /-- CONTEXT_LIST (R87): Returns up to 58 context IDs of the target partition, starting from a given index. -/
  | contextList (ch : ChanNo)
  /-- PARTITION_CREATE (R184): Creates an ACTIVE partition with a context quota and a lease default. -/
  | partitionCreate (ch : ChanNo)
  /-- PARTITION_BIND_LD (R186): Binds an LD to the partition. -/
  | partitionBindLd (ch : ChanNo)
  /-- PARTITION_UNBIND_LD (R186): Unbinds an LD from the partition, or returns BUSY while the LD holds extents or contexts. -/
  | partitionUnbindLd (ch : ChanNo)
  /-- PARTITION_DESTROY (R187): Closes the partition's contexts, destroys its regions, ends its holdings and frees the partition. -/
  | partitionDestroy (ch : ChanNo)
  /-- PARTITION_QUERY (R188): Returns the partition's state, LDs, quota, extents and regions. -/
  | partitionQuery (ch : ChanNo)
  /-- LEASE_SET (R218): Sets the lease period of an LD bound to the partition. -/
  | leaseSet (ch : ChanNo)
  /-- LEASE_QUERY (R218): Returns an LD's lease state, period, time to the next state change and renewals. -/
  | leaseQuery (ch : ChanNo)
  /-- REGION_CREATE (R94): Creates a region with its attributes and no extents. -/
  | regionCreate (ch : ChanNo)
  /-- REGION_DESTROY (R99): Releases every extent of the region and frees its ID, or returns BUSY while contexts reach it. -/
  | regionDestroy (ch : ChanNo)
  /-- REGION_SET_ATTR (R96): Changes one changeable attribute of a region. -/
  | regionSetAttr (ch : ChanNo)
  /-- REGION_QUERY (R100): Returns a region's attributes, pane counts by tier, stored bytes and flags. -/
  | regionQuery (ch : ChanNo)
  /-- REGION_ADD_EXTENTS (R97): Appends held extents to a region with new ordinals, after checking the commit rules. -/
  | regionAddExtents (ch : ChanNo)
  /-- REGION_RELEASE_EXTENTS (R98): Frees the panes of the listed extents and detaches the extents from the region. -/
  | regionReleaseExtents (ch : ChanNo)
  /-- CAPACITY_QUERY (R136): Returns L, the reserve, the map store size, the T0 pool size, charges and shares. -/
  | capacityQuery (ch : ChanNo)
  /-- OPEN_VIEW (R208): Opens a view context that keeps a sealed version, with an optional window. -/
  | openView (ch : ChanNo)
  /-- CLOSE_VIEW (R212): Closes a view and releases its version. -/
  | closeView (ch : ChanNo)
  /-- OPEN_WORKING (R208): Opens a working version with the contents of a source version, recording the head as its base. -/
  | openWorking (ch : ChanNo)
  /-- PUBLISH (R209): Seals the working version as the new head when BASE equals the head, and otherwise returns CONFLICT. -/
  | publish (ch : ChanNo)
  /-- DISCARD_WORKING (R212): Frees the records that only the working version names, and closes it. -/
  | discardWorking (ch : ChanNo)
  /-- CHECKPOINT (R214): Seals a working version, or marks the head, as a checkpoint, and encodes its T0 panes in the background. -/
  | checkpoint (ch : ChanNo)
  /-- VERSION_LIST (R213): Lists the region's retained versions from a given number. -/
  | versionList (ch : ChanNo)
  /-- VERSION_RELEASE (R213): Clears the CHECKPOINT and ORPHAN retention of a version. -/
  | versionRelease (ch : ChanNo)
  /-- SET_RESIDENCY (R126): Moves the region's panes as the new residency mode requires, then sets the mode. -/
  | setResidency (ch : ChanNo)
  /-- PREFETCH (R127): Raises the counters of a range of panes and promotes them to the target tier. -/
  | prefetch (ch : ChanNo)
  /-- EVICT_HINT (R127): Sets the counters of a range of panes to 0 and evicts the panes at once. -/
  | evictHint (ch : ChanNo)
  /-- RESIDENCY_QUERY (R128): Returns counts by home and state over a range, and up to 25 pane map entries. -/
  | residencyQuery (ch : ChanNo)
  /-- REBUILD_TABLE (R171): Samples panes and builds a new Lehr table generation for the region. -/
  | rebuildTable (ch : ChanNo)
  /-- TABLE_SWEEP (R173): Re-encodes the region's images so that older table generations lose their references. -/
  | tableSweep (ch : ChanNo)
  /-- TABLE_QUERY (R174): Returns the region's table generations, references, statistic and a table image. -/
  | tableQuery (ch : ChanNo)
  /-- MOVEMENT_LOAD (R235): Reads a movement image, binds its tensors and starts the load-time checks. -/
  | movementLoad (ch : ChanNo)
  /-- MOVEMENT_START (R241): Starts a run of a loaded movement from a given beat, after clearing the crucibles. -/
  | movementStart (ch : ChanNo)
  /-- MOVEMENT_STOP_AT_BARRIER (R248): MODE 0: every core stops at its next barrier, and the run ends at the following beat. -/
  | movementStopAtBarrier (ch : ChanNo)
  /-- MOVEMENT_STOP_NOW (R248): MODE 1: every core stops at its next descriptor boundary, and the run ends at the current beat. -/
  | movementStopNow (ch : ChanNo)
  /-- MOVEMENT_STATUS (R250): Returns the movement's state, beat, last status, faults and counts. -/
  | movementStatus (ch : ChanNo)
  /-- MOVEMENT_UNLOAD (R251): Frees the image area, bound contexts, generation references and slot of a LOADED movement. -/
  | movementUnload (ch : ChanNo)
  /-- STREAM_OPEN_PACED (R364): Opens a paced stream that delivers tiles into a host ring on a fixed schedule. -/
  | streamOpenPaced (ch : ChanNo)
  /-- STREAM_OPEN_INGEST (R371): Opens an ingest stream with a staging area in T0. -/
  | streamOpenIngest (ch : ChanNo)
  /-- STREAM_STOP (R369): Stops a stream after its stop distance, or drains the staging of an ingest stream. -/
  | streamStop (ch : ChanNo)
  /-- STREAM_CLOSE (R376): Ends the stream at once and releases its reservations. -/
  | streamClose (ch : ChanNo)
  /-- STREAM_STATUS (R375): Returns a stream's state, deliveries, holes and staging. -/
  | streamStatus (ch : ChanNo)
  /-- REG_SET_MINIMUMS (R358): Sets the MIN, MAX and WEIGHT of masters for each resource, all records or none. -/
  | regSetMinimums (ch : ChanNo)
  /-- REG_SET_SHARES (R359): Sets the partition's T0 residency and queue shares. -/
  | regSetShares (ch : ChanNo)
  /-- REG_SET_WINDOW (R360): Sets WINDOW_NS and AGE_LIMIT_NS. -/
  | regSetWindow (ch : ChanNo)
  /-- REG_SET_LATENCY_TARGET (R361): Sets the latency target of a host port for the Escapement. -/
  | regSetLatencyTarget (ch : ChanNo)
  /-- REG_QUERY (R363): Returns the capacity, minimums, k and a master's settings and spend. -/
  | regQuery (ch : ChanNo)
  /-- SCRUB (R479): Runs a scrub pass over a region or a tier range and writes a summary. -/
  | scrub (ch : ChanNo)
  /-- ERROR_LOG_READ (R489): Returns up to three matching error records from a sequence number, and marks them READ. -/
  | errorLogRead (ch : ChanNo)
  /-- ERROR_LOG_CLEAR (R490): Removes error records up to a sequence number, or all of them and the LOST counters. -/
  | errorLogClear (ch : ChanNo)
  /-- SET_MIRROR (R475): Sets or clears the mirror of a region at a fabric address. -/
  | setMirror (ch : ChanNo)
  /-- POISON_QUERY (R471): Returns the POISONED panes and the panes under heal in a range. -/
  | poisonQuery (ch : ChanNo)
  /-- TEST_POLICY_SET (R515): Sets the field test policy, or ends a drain early with END_DRAIN. -/
  | testPolicySet (ch : ChanNo)
  /-- TEST_RUN_KERNEL (R516): MODE 0: runs one known-answer kernel on a range of cores. -/
  | testRunKernel (ch : ChanNo)
  /-- TEST_RUN_ROUND (R516): MODE 1: runs a full round of kernels on a range of cores. -/
  | testRunRound (ch : ChanNo)
  /-- TEST_RUN_REQUALIFY (R517): MODE 2: requalifies fenced or stepped cores and stepped channels and ports. -/
  | testRunRequalify (ch : ChanNo)
  /-- TEST_REPORT (R518): Returns the field test totals. -/
  | testReport (ch : ChanNo)
  /-- UNIT_STATE_QUERY (R519): Returns a unit's service state, step, rate and failures. -/
  | unitStateQuery (ch : ChanNo)
  /-- COUNTER_CONFIG (R526): Configures the events, filters and flags of counters. -/
  | counterConfig (ch : ChanNo)
  /-- COUNTER_FREEZE (R530): ACTION FREEZE stops counting in the scope in one cycle. -/
  | counterFreeze (ch : ChanNo)
  /-- COUNTER_THAW (R530): ACTION THAW removes the scope's freeze. -/
  | counterThaw (ch : ChanNo)
  /-- COUNTER_THAW_ZERO (R530): ACTION THAW_ZERO removes the scope's freeze with every counter in it zeroed. -/
  | counterThawZero (ch : ChanNo)
  /-- COUNTER_READ (R528): Samples and returns a range of counters in one cycle. -/
  | counterRead (ch : ChanNo)
  /-- TRACE_CONFIG (R534): Sets the trace carve-out, mode, masks and trigger sources. -/
  | traceConfig (ch : ChanNo)
  /-- TRACE_ARM (R539): ACTION ARM clears the trace area and enters RECORDING. -/
  | traceArm (ch : ChanNo)
  /-- TRACE_STOP (R539): ACTION STOP enters STOPPED from RECORDING or CAPTURING. -/
  | traceStop (ch : ChanNo)
  /-- TRACE_MANUAL_TRIGGER (R539): ACTION TRIGGER raises a MANUAL trigger when that source is enabled. -/
  | traceManualTrigger (ch : ChanNo)
  /-- TRACE_MARKER (R539): ACTION MARKER records a MARKER event. -/
  | traceMarker (ch : ChanNo)
  /-- TRACE_READ (R540): Copies held trace events to a buffer or into the result. -/
  | traceRead (ch : ChanNo)
  /-- HANG_RING_ENABLE (R541): Clears and enables the hang rings and sets the hang time. -/
  | hangRingEnable (ch : ChanNo)
  /-- DUMP_READ (R546): Lists dumps, or copies and optionally discards a dump. -/
  | dumpRead (ch : ChanNo)
  /-- DUMP_TENSOR (R548): Arms a capture of a tensor at the end of a named beat. -/
  | dumpTensor (ch : ChanNo)
  /-- FAB_DISCOVER (R312): Starts bring-up of DOWN or FAILED fabric ports and sends fresh HELLOs on the others. -/
  | fabDiscover (ch : ChanNo)
  /-- FAB_DISCOVER_TIMEOUT (R312): TIMEOUT_MS passes and FAB_DISCOVER completes with the masks of ports up and failed. -/
  | fabDiscoverTimeout (slot : SlotNo)
  /-- FAB_SET_ID (R313): Sets the device ID, port enables, encryption, speed caps, hash salt and TTL. -/
  | fabSetId (ch : ChanNo)
  /-- FAB_LOAD_ROUTES (R316): Writes the shadow routing table and optionally commits it by an atomic swap. -/
  | fabLoadRoutes (ch : ChanNo)
  /-- JOIN_MEMBER (R330): KIND 0 joins the module to a fabric region as a member, or creates it as registrar. -/
  | joinMember (ch : ChanNo)
  /-- JOIN_ACCESSOR (R330): KIND 1 joins as an accessor and fetches the stripe map replica. -/
  | joinAccessor (ch : ChanNo)
  /-- FAB_REGION_LEAVE (R330): KIND 2 drops the replica, or returns BUSY while homes or contexts remain. -/
  | fabRegionLeave (ch : ChanNo)
  /-- FAB_REGION_EXPORT (R330): KIND 3 adds an export grant of a local region to a peer. -/
  | fabRegionExport (ch : ChanNo)
  /-- FAB_REGION_UNEXPORT (R330): KIND 4 removes an export grant. -/
  | fabRegionUnexport (ch : ChanNo)
  /-- TAKE_REGISTRAR (R339): KIND 5 makes the member the registrar after querying the other members. -/
  | takeRegistrar (ch : ChanNo)
  /-- TREE_SET (R341): KIND 6 configures an in-fabric reduction tree. -/
  | treeSet (ch : ChanNo)
  /-- TREE_CLEAR (R341): KIND 7 removes a reduction tree, or returns BUSY while a movement uses it. -/
  | treeClear (ch : ChanNo)
  /-- REHOME (R342): Moves stripe units of a fabric region to a destination member, one unit at a time. -/
  | rehome (ch : ChanNo)
  /-- FTC_SYNC_ROOT_NOW (R321): MODE 0 loads the FTC and starts a sync wave at once. -/
  | ftcSyncRootNow (ch : ChanNo)
  /-- FTC_SYNC_ROOT_SIDEBAND (R321): MODE 1 loads the FTC at the next rising edge of FTC_SYNC and starts the wave then. -/
  | ftcSyncRootSideband (ch : ChanNo)
  /-- FTC_SYNC_MEASURE (R321): MODE 2 refreshes every link delay without starting a wave. -/
  | ftcSyncMeasure (ch : ChanNo)
  /-- FAB_QUERY (R324): Returns the fabric identity, FTC state and eight port records. -/
  | fabQuery (ch : ChanNo)
  /-- POWER_SET_RUNG (R573): Sets the resting rung, kept fraction and idle time, or descends at once with MODE NOW. -/
  | powerSetRung (ch : ChanNo)
  /-- POWER_QUERY (R574): Returns the rung, the settings, the blockers and the rung entry counts. -/
  | powerQuery (ch : ChanNo)
  /-- POWER_SET_LIMIT (R570): Sets the host sustained power limit and the NO_BURST flag. -/
  | powerSetLimit (ch : ChanNo)
  /-- TELEMETRY_READ (R575): Returns input power, limits, clock steps, budgets, temperatures and energy. -/
  | telemetryRead (ch : ChanNo)
  /-- FW_UPDATE (R587): Writes a signed firmware image, kernel set or owner configuration to the boot store. -/
  | fwUpdate (ch : ChanNo)
  /-- FW_ACTIVATE_NEXT_RESET (R588): MODE 0 marks the inactive slot active for the next cold reset. -/
  | fwActivateNextReset (ch : ChanNo)
  /-- FW_ACTIVATE_NOW (R588): MODE 1 marks the inactive slot active and performs a Gaffer-initiated reset. -/
  | fwActivateNow (ch : ChanNo)
  /-- FW_ACTIVATE_REVERT (R588): MODE 2 marks the other slot active for the next cold reset. -/
  | fwActivateRevert (ch : ChanNo)
  /-- LIFECYCLE_SET (R599): Runs a permitted life-cycle transition by burning fuses and a cold reset. -/
  | lifecycleSet (ch : ChanNo)
  /-- DEBUG_UNLOCK (R599): Moves an OPERATIONAL module to DEBUG_UNLOCKED by burning a DEBUG_COUNT bit. -/
  | debugUnlock (ch : ChanNo)
  /-- OWNER_KEY_INSTALL (R603): Burns the owner key digest in BLANK, moving the module to PROVISIONED. -/
  | ownerKeyInstall (ch : ChanNo)
  /-- LIFECYCLE_RESET_DELAY (R600): 100 ms after OWNER_KEY_INSTALL posts OK, the module destroys the boot key and performs a cold reset. -/
  | lifecycleResetDelay
  /-- MANAGER_LIST_SET (R602): Replaces the whole manager list. -/
  | managerListSet (ch : ChanNo)
  /-- GET_MEASUREMENTS (R607): Returns one unsigned measurement. -/
  | getMeasurements (ch : ChanNo)
  /-- MEM_RD (R448): A CXL.mem read of 64 B is decoded to a pane and served from its home. -/
  | memRd (ld : LdId) (hpa : BitVec 64) (tag : BitVec 16) (check : Media)
  /-- MEM_SPEC_RD (R448): A speculative read is a hint that may start a promotion, with no response. -/
  | memSpecRd (ld : LdId) (hpa : BitVec 64)
  /-- MEM_INV (R448): MemInv or MemInvNT completes with Cmp at once, with no effect on data. -/
  | memInv (ld : LdId) (hpa : BitVec 64) (tag : BitVec 16)
  /-- MEM_WR (R448): A whole-line CXL.mem write is applied to its pane, with copy on write, unpack or hold as needed. -/
  | memWr (ld : LdId) (hpa : BitVec 64) (tag : BitVec 16) (data : List Byte) (poison : Bool)
  /-- MEM_WR_PTL (R448): A partial-line write merges its enabled bytes into the line. -/
  | memWrPtl (ld : LdId) (hpa : BitVec 64) (tag : BitVec 16) (data : List Byte) (enable : BitVec 64) (poison : Bool)
  /-- FLR_FUNCTION0 (R449): An FLR of the memory function aborts the primary mailbox and resets its interrupt registers. -/
  | flrFunction0 (ld : LdId)
  /-- FLR_FUNCTION1 (R449): An FLR of the management function silences DMA, closes channels and contexts and resets the lease. -/
  | flrFunction1 (ld : LdId)
  /-- CXL_RESET (R449): A CXL Reset of an LD applies both FLRs and uncommits its HDM decoders. -/
  | cxlReset (ld : LdId)
  /-- RESET_COMPLETE (R451): An FLR or CXL Reset completes, and the function stops answering with Request Retry Status. -/
  | resetComplete (ld : LdId) (fn : BitVec 1)
  /-- PERST_ASSERT (R449): PERST# asserted on a host port resets every LD of the port. -/
  | perstAssert (port : BitVec 2)
  /-- HOT_RESET (R449): A hot reset of a host port resets every LD of the port. -/
  | hotReset (port : BitVec 2)
  /-- HOST_LINK_LOST (R450): A host link goes down without reset; the module logs a fatal error and applies the port reset. -/
  | hostLinkLost (port : BitVec 2)
  /-- IDE_CHECK_FAIL (R445): An IDE integrity failure discards the data, enters the insecure state and handles the port as lost. -/
  | ideCheckFail (port : BitVec 2)
  /-- DMA_READ_COMPLETION (R458): A completion for a DMA read arrives; poison or an error status ends the command that issued it. -/
  | dmaReadCompletion (ld : LdId) (tag : BitVec 14) (data : List Byte) (poison : Bool) (error : Bool)
  /-- COMPLETION_TIMEOUT (R459): A DMA read's completion does not arrive in time, and the command completes with TIMEOUT. -/
  | completionTimeout (ld : LdId) (tag : BitVec 14)
  /-- L1_ENTRY_REQUEST (R452): After 10 µs without traffic at P2 or below, the port requests entry to L1. -/
  | l1EntryRequest (port : BitVec 2)
  /-- IDENTIFY_MEMORY_DEVICE (R441): Primary mailbox command that reports zero static capacity and the poison list size. -/
  | identifyMemoryDevice (ld : LdId)
  /-- GET_SUPPORTED_LOGS (R441): Primary mailbox command that reports the Command Effects Log. -/
  | getSupportedLogs (ld : LdId)
  /-- GET_LOG (R441): Primary mailbox command that returns the Command Effects Log. -/
  | getLog (ld : LdId) (input : List Byte)
  /-- GET_EVENT_RECORDS (R441): Returns records of the LD's event logs. -/
  | getEventRecords (ld : LdId) (input : List Byte)
  /-- CLEAR_EVENT_RECORDS (R441): Clears records of the LD's event logs. -/
  | clearEventRecords (ld : LdId) (input : List Byte)
  /-- GET_EVENT_INTERRUPT_POLICY (R441): Returns the event interrupt policy. -/
  | getEventInterruptPolicy (ld : LdId)
  /-- SET_EVENT_INTERRUPT_POLICY (R441): Accepts only the no-interrupts setting. -/
  | setEventInterruptPolicy (ld : LdId) (input : List Byte)
  /-- GET_POISON_LIST (R472): Returns the POISONED panes and scrub-found lines of the LD's extents. -/
  | getPoisonList (ld : LdId) (input : List Byte)
  /-- GET_TIMESTAMP (R441): Returns the device timestamp. -/
  | getTimestamp (ld : LdId)
  /-- SET_TIMESTAMP (R441): Sets the device timestamp, apart from the FTC. -/
  | setTimestamp (ld : LdId) (input : List Byte)
  /-- GET_DYNAMIC_CAPACITY_CONFIGURATION (R190): Host mailbox command that returns the single DC region of R189. -/
  | getDynamicCapacityConfiguration (ld : LdId) (input : List Byte)
  /-- GET_DYNAMIC_CAPACITY_EXTENT_LIST (R190): Returns the extents pending and held by the LD. -/
  | getDynamicCapacityExtentList (ld : LdId) (input : List Byte)
  /-- ADD_DYNAMIC_CAPACITY_RESPONSE (R191): The host accepts all, some or none of a pending add, and accepted extents become held. -/
  | addDynamicCapacityResponse (ld : LdId) (extents : List Nat)
  /-- RELEASE_DYNAMIC_CAPACITY (R192): The host releases a holding, or receives Busy. -/
  | releaseDynamicCapacity (ld : LdId) (extents : List Nat)
  /-- GET_DCD_INFO (R190): FM API command that reports one DC region and the add policies. -/
  | getDcdInfo (who : Owner)
  /-- GET_HOST_DC_REGION_CONFIGURATION (R190): FM API command that reports the DC region configuration. -/
  | getHostDcRegionConfiguration (who : Owner) (ld : LdId)
  /-- SET_DC_REGION_CONFIGURATION (R190): FM API command accepted only with the values of R189. -/
  | setDcRegionConfiguration (who : Owner) (region : Nat) (blockSize : Nat) (length : Nat) (base : Nat)
  /-- GET_DCD_EXTENT_LISTS (R190): FM API command that reports held and pending extents of each LD. -/
  | getDcdExtentLists (who : Owner) (ld : LdId)
  /-- INITIATE_DYNAMIC_CAPACITY_ADD (R191): Checks named extents and makes them pending for an LD. -/
  | initiateDynamicCapacityAdd (who : Owner) (ld : LdId) (policy : AddPolicy) (count : Nat) (dpas : List Nat) (tag : Nat)
  /-- INITIATE_DYNAMIC_CAPACITY_RELEASE (R192): Releases extents of an LD, with or without Forced Removal. -/
  | initiateDynamicCapacityRelease (who : Owner) (ld : LdId) (forced : Bool) (dpas : List Nat)
  /-- GET_LD_INFO (R435): FM API command that reports 16 LDs. -/
  | getLdInfo (who : Owner)
  /-- GET_LD_ALLOCATIONS (R435): FM API command that reports every LD at 2^48 B. -/
  | getLdAllocations (who : Owner)
  /-- SET_LD_ALLOCATIONS (R435): FM API command that completes as Unsupported. -/
  | setLdAllocations (who : Owner) (input : List Byte)
  /-- DOE_DISCOVERY (R444): A DOE Discovery request reports the supported protocols. -/
  | doeDiscovery (ld : LdId) (index : Byte)
  /-- CXL_TABLE_ACCESS (R443): A DOE request that returns the CDAT table. -/
  | cxlTableAccess (ld : LdId) (entry : BitVec 16)
  /-- SPDM_MESSAGE (R605): An SPDM 1.3 request over DOE, MCTP or KEY flits is answered by the root of trust. -/
  | spdmMessage (who : Owner) (path : SpdmPath) (request : List Byte)
  /-- CHN_MSG (R75): A channel access message over the fabric or MCTP has the effect of the equivalent BAR2 accesses. -/
  | chnMsg (who : Owner) (write : Bool) (ch : ChanNo) (offset : BitVec 12) (length : Nat) (data : List Byte)
  /-- PWR_PRSNT_MATE (R30): PWR_PRSNT# mates; after 50 ms with PWR_EN high the first conversion stage starts. -/
  | pwrPrsntMate
  /-- PWR_EN_HIGH (R30): PWR_EN rises; the module powers the Balance domain and begins bring-up. -/
  | pwrEnHigh
  /-- PWR_EN_LOW (R557): PWR_EN falls; the module completes NAND work, commits the journal and switches off every rail. -/
  | pwrEnLow
  /-- UNMATING (R31): The module is unmated while MOD_PWRGD is high, with the outcome of a cold reset. -/
  | unmating
  /-- MOD_RESET (R594): MOD_RESET# held low for 10 µs resets every domain except VIB, VBAL and the sticky bank. -/
  | modReset
  /-- INPUT_LOW (R554): VIN_56 below 46 V for 1 ms sets a 600 W limit, disables bursts and asserts ALERT#. -/
  | inputLow (mv : Nat)
  /-- INPUT_UNDERVOLTAGE (R554): VIN_56 below 42 V for 100 µs switches off every rail but the sticky bank. -/
  | inputUndervoltage (mv : Nat)
  /-- INPUT_HIGH (R554): VIN_56 between 60 V and 64 V logs INPUT_HIGH at most once per hour. -/
  | inputHigh (mv : Nat)
  /-- INPUT_OVERVOLTAGE (R554): VIN_56 above 64 V for 10 µs disconnects the first stage. -/
  | inputOvervoltage (mv : Nat)
  /-- INPUT_RECOVERED (R554): VIN_56 has been at or above 46 V for 100 ms, ending INPUT_LOW or allowing a new power-on. -/
  | inputRecovered (mv : Nat)
  /-- SB_VREF_LOW (R650): SB_VREF below 1.5 V for 1 ms holds sideband inputs and floats the sideband outputs. -/
  | sbVrefLow
  /-- FTC_SYNC_EDGE (R657): A rising edge of FTC_SYNC loads the FTC and starts a wave, only while MODE 1 awaits it. -/
  | ftcSyncEdge
  /-- DS_PRESENCE_CHANGE (R408): DS_PRSNT# qualified for 10 ms enumerates a T1 device, or its loss loses the port. -/
  | dsPresenceChange (port : BitVec 3) (present : Bool)
  /-- FAB_PRESENCE_CHANGE (R298): FPRSNT# asserted on an enabled port starts its bring-up; its deassertion loses the port. -/
  | fabPresenceChange (port : BitVec 4) (present : Bool)
  /-- CABLE_POWER_FAULT (R27): Cable supply above 6 W for 10 ms removes VCBL_3V3 and marks the four ports down. -/
  | cablePowerFault (connector : BitVec 2)
  /-- LEAK_SENSOR_SAMPLE (R35): Every 10 ms the Balance domain samples the leak cord and classifies it. -/
  | leakSensorSample (cordOhms loopOhms : Nat)
  /-- COOLANT_SAMPLE (R559): Every 10 ms the coolant sensors are sampled, and a limit held 100 ms is applied. -/
  | coolantSample (inlet outlet : Int) (flow : Nat)
  /-- POWER_GOVERNOR_SAMPLE (R568): Every 10 µs the governor measures P100, updates the budgets and steps the clocks. -/
  | powerGovernorSample (p100 p20ms p2s : Nat)
  /-- POWER_CAP_FAIL (R569): P100 above the cap at both clock floors for 1 ms asserts ALERT# and raises POWER_CAP_FAIL. -/
  | powerCapFail
  /-- THERMAL_GOVERNOR_SAMPLE (R571): Every 100 µs the thermal governor reads the die sensors and steps or unwinds clocks. -/
  | thermalGovernorSample (bDies cDies gddr nand : List Int)
  /-- THERMTRIP (R572): A junction at 125 °C asserts THERMTRIP# and switches off every rail except VBAL. -/
  | thermtrip (die : Nat) (temp : Int)
  /-- RUNG_DESCENT (R563): After IDLE_US without activity the module descends one rung, preparing for P3 or P4. -/
  | rungDescent
  /-- RUNG_ENTRY (R564): The preparation ends with every precondition met, and the module enters the rung. -/
  | rungEntry
  /-- WAKE (R566): A latched wake raises the module to the rung that it needs. -/
  | wake (cause : WakeCause)
  /-- T0_SWEEP_COMPLETE (R388): The sweep of invalid metadata ends, and the T0 pool may allocate in that part. -/
  | t0SweepComplete
  /-- PROMOTION_COMMIT (R118): All 32 tiles are written, and the walker commits the pane STABLE in T0. -/
  | promotionCommit (record : Nat) (read : Media)
  /-- EVICTION_COMMIT (R119): The image is written, and the walker commits the pane to the lower tier. -/
  | evictionCommit (record : Nat) (read : Media)
  /-- OLD_LOCATION_FREED (R118): Once reads begun before the commit have drained, the old location is freed or parked. -/
  | oldLocationFreed (record : Nat)
  /-- VICTIM_SELECTOR_RUN (R115): Free T0 falls below 1%, or a partition exceeds its share, and the selector evicts victims. -/
  | victimSelectorRun
  /-- COUNTER_DECAY (R112): Every DECAY_US each access counter of the region is halved. The pass of the walkers may find an
  uncorrectable word of the SRAM of a B-die (R464). -/
  | counterDecay (pass : WalkerPass)
  /-- PIN_LOW_EVICTION (R117): 100 ms after its last write, a PIN_LOW pane's T0 home is evicted. -/
  | pinLowEviction (record : Nat)
  /-- REPACK (R110): An unpacked PIN_T0 PACKED pane whose counter falls to EVICT_BELOW is repacked in place. -/
  | repack (record : Nat) (read : Media)
  /-- UNPACK_COMMIT (R108): A packed T0 pane is unpacked to a raw frame before a write, which then proceeds. -/
  | unpackCommit (record : Nat) (read : Media)
  /-- COPY_ON_WRITE_COMMIT (R205): The source is copied into a new frame, the write applied and the working map entry committed. -/
  | copyOnWriteCommit (index : Nat) (read : Media)
  /-- EXHAUST_HOLD_EXPIRY (R134): After EXHAUST_HOLD_MS without space, a held elastic write is completed as dropped. -/
  | exhaustHoldExpiry (index : Nat)
  /-- SEAL_ENCODE_COMPLETE (R211): The background Frit encode of a sealed pane ends, and waiting reads proceed. -/
  | sealEncodeComplete (record : Nat) (read : Media)
  /-- CHECKPOINT_ENCODE_COMPLETE (R214): Every T0 pane of the checkpoint has its image, and CHECKPOINT completes with OK. -/
  | checkpointEncodeComplete (slot : SlotNo)
  /-- DURABLE_PERSISTENCE_COMPLETE (R215): The version's panes are in T2 and its map journalled. -/
  | durablePersistenceComplete (region : Nat) (version : Nat)
  /-- VERSION_RETIRED (R207): A version that is no longer retained is freed with the records that no other version names. -/
  | versionRetired (region : Nat) (version : Nat)
  /-- EXTENT_CLEAN (R196): The wipe of an extent in the cullet pool ends and the extent becomes CLEAN. -/
  | extentClean (extent : Nat)
  /-- LEASE_GRACE (R217): PERIOD passes with no renewal, and the lease enters GRACE. -/
  | leaseGrace (ld : LdId)
  /-- LEASE_CLEANUP (R219): A further PERIOD passes in GRACE, and clean-up closes the LD's channels, contexts and holdings. -/
  | leaseCleanup (ld : LdId)
  /-- FIRST_TABLE_BUILT (R165): After the 64th sampled pane, the region's first table becomes generation 0. -/
  | firstTableBuilt (region : Nat)
  /-- GENERATION_FREE (R168): A non-current generation is freed within 10 µs of its last reference ending. -/
  | generationFree (region : Nat) (gen : BitVec 4)
  /-- LOAD_CHECKS_COMPLETE (R238): The image has been read and checked, and the load completes with OK or its first failure. -/
  | loadChecksComplete (slot : SlotNo)
  /-- TILE_FETCH_COMPLETE (R176): A fetched tile and its tag are in the crucible and its table is loaded into the expander. -/
  | tileFetchComplete (core : CoreNo) (ticket : Nat) (read : Media)
  /-- TILE_STORE_COMMIT (R242): A core tile store commits at its map walker. -/
  | tileStoreCommit (core : CoreNo) (ticket : Nat)
  /-- BARRIER_RELEASE (R242): Every core has arrived and every store committed, and the barrier is released. -/
  | barrierRelease (slot : SlotNo)
  /-- RUN_FAULT (R246): A run-time check fails, and every core stops at its next descriptor boundary. -/
  | runFault (core : CoreNo) (reason : Byte)
  /-- TIME_LIMIT_EXPIRY (R245): TIME_LIMIT_MS passes from the start, and the run ends with TIMEOUT. -/
  | timeLimitExpiry (slot : SlotNo)
  /-- LONG_BEAT (R244): A beat not released within 2 ms raises LONG_BEAT once. -/
  | longBeat (slot : SlotNo)
  /-- MOVEMENT_STOPPED (R248): Every core of a STOPPING movement has stopped, and the run ends with ABORTED. -/
  | movementStopped (slot : SlotNo)
  /-- KERNEL_INSERTION (R253): A known-answer kernel runs on a core after a barrier release and before its next beat. -/
  | kernelInsertion (core : CoreNo)
  /-- NOP (R268): A descriptor with no effect. -/
  | nop (core : CoreNo)
  /-- LOOP (R268): Opens a counted loop. -/
  | loop (core : CoreNo)
  /-- LOOP_END (R268): Closes the innermost open loop. -/
  | loopEnd (core : CoreNo)
  /-- SKIP (R268): Passes over descriptors when a predicate equals the sense. -/
  | skip (core : CoreNo)
  /-- BARRIER (R242): Ends a beat; the core waits for the barrier's release. -/
  | barrier (core : CoreNo)
  /-- FETCH (R269): Brings tiles into the crucible in stored form. -/
  | fetch (core : CoreNo)
  /-- STORE (R270): Writes tiles from the crucible as core tile stores. -/
  | store (core : CoreNo)
  /-- GATHER (R271): Fetches tiles named by a list of tile indices. -/
  | gather (core : CoreNo)
  /-- SCATTER (R271): Stores tiles to indices named by a list. -/
  | scatter (core : CoreNo)
  /-- PUT_PANE (R272): Stores a whole checked pane image as the new contents of a pane. -/
  | putPane (core : CoreNo)
  /-- FILL (R273): Writes zeros, a constant or an iota into crucible units. -/
  | fill (core : CoreNo)
  /-- COPY (R273): Moves crucible units as if through a buffer. -/
  | copy (core : CoreNo)
  /-- VEC (R275): Computes an element-wise function selected by SUB. -/
  | vec (core : CoreNo)
  /-- CONVERT (R276): Converts elements to another type. -/
  | convert (core : CoreNo)
  /-- SDOT (R281): Writes scaled dot products of a query with rows. -/
  | sdot (core : CoreNo)
  /-- SOFTMAX_PARTIAL (R282): Folds scores and value rows into an attention state. -/
  | softmaxPartial (core : CoreNo)
  /-- SOFTMAX_MERGE (R283): Merges two attention states. -/
  | softmaxMerge (core : CoreNo)
  /-- MMA (R277): Accumulates tile matrix products into an accumulator. -/
  | mma (core : CoreNo)
  /-- REDUCE (R278): Sums, or finds the max, min or argmax of, elements. -/
  | reduce (core : CoreNo)
  /-- COMPARE (R279): Tests elements and sets a predicate. -/
  | compare (core : CoreNo)
  /-- TOPK (R280): Selects the k largest or smallest elements with indices. -/
  | topk (core : CoreNo)
  /-- CHECKSUM (R274): Computes CRC-32C over bytes or expanded slots. -/
  | checksum (core : CoreNo)
  /-- FRIT_ENCODE (R284): Builds a Frit pane image from 32 tiles. -/
  | fritEncode (core : CoreNo)
  /-- LEHR_ENCODE (R285): Builds a Lehr pane image with the region's current table. -/
  | lehrEncode (core : CoreNo)
  /-- DECODE (R286): Expands stored tiles or image tiles into raw tiles. -/
  | decode (core : CoreNo)
  /-- FAB_SEND (R288): Sends crucible units as a message to a core of a device. -/
  | fabSend (core : CoreNo)
  /-- FAB_RECV (R289): Matches a held or arriving message and writes it into the crucible. -/
  | fabRecv (core : CoreNo)
  /-- FAB_REDUCE (R290): Contributes elements to an in-fabric reduction tree. -/
  | fabReduce (core : CoreNo)
  /-- PORT_TRAINING_COMPLETE (R298): A fabric port holds alignment for 1 ms after training and goes on to the HELLO exchange. -/
  | portTrainingComplete (port : BitVec 4) (mode : Nat) (lanes : Nat)
  /-- HELLO (R299): A HELLO flit gives the neighbour's identity, capabilities and credits. -/
  | hello (port : BitVec 4) (payload : List Byte)
  /-- KEY (R309): A KEY flit carries the SPDM key exchange that secures a port. -/
  | key (port : BitVec 4) (payload : List Byte)
  /-- TIMESTAMP (R320): A TIMESTAMP flit measures the link round trip. -/
  | timestamp (port : BitVec 4) (payload : List Byte)
  /-- GOODBYE (R322): A GOODBYE from the neighbour loses the port. -/
  | goodbye (port : BitVec 4)
  /-- DATA_FLIT (R302): A sequenced flit is accepted in order, or discarded with a RETRY_REQ on CRC failure or a gap. -/
  | dataFlit (port : BitVec 4) (flit : List Byte)
  /-- IDLE_FLIT (R301): An unsequenced flit carries acknowledgements and credit returns. -/
  | idleFlit (port : BitVec 4) (flit : List Byte)
  /-- RETRY_REQ (R302): The sender resends its replay buffer from the requested SEQ. -/
  | retryReq (port : BitVec 4) (flit : List Byte)
  /-- ACK_TIMER (R301): The receiver acknowledges at least every 1 µs while sequenced flits are outstanding. -/
  | ackTimer (port : BitVec 4)
  /-- RETRAIN_TIMEOUT (R302): A link retrain that has not restored alignment in 100 ms loses the port. -/
  | retrainTimeout (port : BitVec 4)
  /-- FEC_ALIGNMENT_LOST (R322): FEC alignment is lost for more than 1 µs and the port is lost. -/
  | fecAlignmentLost (port : BitVec 4)
  /-- KEY_EPOCH_CHANGE (R309): After 2^40 sequenced flits or 24 h the sender starts a new key epoch. -/
  | keyEpochChange (port : BitVec 4)
  /-- LINK_STALL (R318): A channel waiting 10 ms for credit raises LINK_STALL. -/
  | linkStall (port : BitVec 4)
  /-- FEC_MARGIN (R296): Corrected symbols above 1 in 10^4 over 1 s log FEC_MARGIN. -/
  | fecMargin (port : BitVec 4) (corrected total : Nat)
  /-- PACKET_FORWARD (R315): A packet for another device is routed, decremented in TTL and forwarded, or dropped. -/
  | packetForward (port : BitVec 4)
  /-- SYNC (R320): A newer sync wave sets the FTC and is forwarded on every other port. -/
  | sync (port : BitVec 4)
  /-- UNREACHABLE (R317): A response that a REQ had no route to its destination. -/
  | unreachable (port : BitVec 4)
  /-- MSG_REFUSED (R305): A message was refused; the sender holds the flow's later messages. -/
  | msgRefused (port : BitVec 4)
  /-- MSG_SLOT_FREE (R305): A slot has freed, and the sender resends held messages in order. -/
  | msgSlotFree (port : BitVec 4)
  /-- FREEZE_TRIGGER (R533): A newer fabric trigger is taken as source FABRIC and forwarded. -/
  | freezeTrigger (port : BitVec 4)
  /-- LINE_RD (R335): A remote line read is served by the home. -/
  | lineRd (port : BitVec 4) (check : Media)
  /-- LINE_WR (R335): A remote line write is applied at the home and answered with WR_ACK. -/
  | lineWr (port : BitVec 4)
  /-- TILE_RD (R336): A remote tile fetch is answered in stored form, with a table or RAW_ONLY as asked. -/
  | tileRd (port : BitVec 4) (check : Media)
  /-- TILE_WR (R335): A remote tile store is applied at the home. -/
  | tileWr (port : BitVec 4)
  /-- LINE_DATA (R335): Line data for a remote read completes the host read. -/
  | lineData (port : BitVec 4)
  /-- TILE_DATA (R336): A remote tile arrives, with its table image installed when attached. -/
  | tileData (port : BitVec 4)
  /-- WR_ACK (R335): An acknowledgement completes a remote write or commits a core store. -/
  | wrAck (port : BitVec 4)
  /-- REDIRECT (R335): The origin installs a newer stripe entry and resends the request. -/
  | redirect (port : BitVec 4)
  /-- MAP_UPDATE (R334): Stripe map entries are installed in the replica. -/
  | mapUpdate (port : BitVec 4)
  /-- VERSION_RSP (R334): The answer to a VERSION_OP completes the operation that sent it. -/
  | versionRsp (port : BitVec 4)
  /-- REDUCE_PART (R341): A child's partial is combined into the round. -/
  | reducePart (port : BitVec 4)
  /-- REDUCE_RESULT (R341): A reduction result is written and passed down the tree. -/
  | reduceResult (port : BitVec 4)
  /-- MSG (R289): A FAB_SEND message arrives and is matched, held or refused. -/
  | msg (port : BitVec 4)
  /-- REHOME_DATA (R342): A pane record part of a REHOME arrives and the complete record is placed. -/
  | rehomeData (port : BitVec 4)
  /-- NACK (R343): A refusal from the home ends the request with its outcome. -/
  | nack (port : BitVec 4)
  /-- VOP_OPEN_VIEW (R338): The registrar resolves the version and records a view holder. -/
  | vopOpenView (port : BitVec 4)
  /-- VOP_CLOSE_VIEW (R338): The registrar removes a view holder. -/
  | vopCloseView (port : BitVec 4)
  /-- VOP_OPEN_WORKING (R338): The registrar returns the base of a new working version. -/
  | vopOpenWorking (port : BitVec 4)
  /-- VOP_PUBLISH (R339): The registrar compares BASE with the head and runs the fabric seal. -/
  | vopPublish (port : BitVec 4)
  /-- VOP_CHECKPOINT (R338): The registrar runs a seal without moving the head. -/
  | vopCheckpoint (port : BitVec 4)
  /-- VOP_DISCARD_WORKING (R338): Every member discards its part of the working version. -/
  | vopDiscardWorking (port : BitVec 4)
  /-- VOP_VERSION_RELEASE (R338): The registrar clears a version's retention. -/
  | vopVersionRelease (port : BitVec 4)
  /-- VOP_VERSION_LIST (R338): The registrar returns its version list. -/
  | vopVersionList (port : BitVec 4)
  /-- SEAL_PREPARE (R339): A member turns its part of the working version into prepared version N. -/
  | sealPrepare (port : BitVec 4)
  /-- SEAL_COMMIT (R339): A member seals N and applies its held writes. -/
  | sealCommit (port : BitVec 4)
  /-- SEAL_ABORT (R339): A member restores its prepared version as the working version. -/
  | sealAbort (port : BitVec 4)
  /-- VERSION_FREE (R338): A member frees its local part of a version that is no longer retained. -/
  | versionFree (port : BitVec 4)
  /-- JOIN (R334): The registrar checks a joining member's attributes and sends the stripe map. -/
  | join (port : BitVec 4)
  /-- MAP_FETCH (R334): The registrar sends the stripe map to an accessor. -/
  | mapFetch (port : BitVec 4)
  /-- REGISTRAR_QUERY (R339): A member reports its stripe generation and version numbers to a new registrar. -/
  | registrarQuery (port : BitVec 4)
  /-- LEAVE (R334): The registrar removes a member or accessor. -/
  | leave (port : BitVec 4)
  /-- REHOME_FORWARD (R342): A REHOME issued elsewhere is carried out by the registrar. -/
  | rehomeForward (port : BitVec 4)
  /-- REHOME_RESERVE (R342): The destination reserves a new local unit, or answers CAPACITY. -/
  | rehomeReserve (port : BitVec 4)
  /-- REHOME_SEND (R342): The source sends every pane record of the unit. -/
  | rehomeSend (port : BitVec 4)
  /-- REHOME_UNIT_COMMIT (R342): After placement, the registrar commits the unit's new home and STRIPE_GEN. -/
  | rehomeUnitCommit (fregion : Nat) (unit : Nat)
  /-- REMOTE_REQUEST_TIMEOUT (R335): A remote request unanswered after 4 ms or 8 ms is treated as unreachable. -/
  | remoteRequestTimeout (tag : Nat)
  /-- VERSION_OP_TIMEOUT (R338): Without VERSION_RSP within 200 ms, the origin completes the command with TIMEOUT. -/
  | versionOpTimeout (token : Nat)
  /-- SEAL_ACK_TIMEOUT (R339): A member not acknowledging within 100 ms makes the registrar abort the seal. -/
  | sealAckTimeout (fregion : Nat)
  /-- PREPARED_SEAL_TIMEOUT (R339): A member holding a prepared version for 1 s aborts it by itself. -/
  | preparedSealTimeout (fregion : Nat)
  /-- TREE_ROUND_TIMEOUT (R341): A round not completed within TIMEOUT_MS ends every waiting core's run. -/
  | treeRoundTimeout (tree : Nat) (round : Nat)
  /-- WINDOW_BOUNDARY (R351): At each window boundary spends reset and new settings or k take effect. -/
  | windowBoundary
  /-- PACED_TILE_FETCH (R366): At D(n) − LEAD_NS the stream engine fetches tile n. -/
  | pacedTileFetch (slot : SlotNo)
  /-- PACED_TILE_WRITE (R366): The fetched tile's data and record are written to the host ring. -/
  | pacedTileWrite (slot : SlotNo)
  /-- PACED_CUTOFF (R368): At the cutoff, an undelivered tile is abandoned and a HOLE written. -/
  | pacedCutoff (slot : SlotNo)
  /-- PACED_STOP_RECORD (R369): A STOPPED record is written at the deadline of tile n0 + d. -/
  | pacedStopRecord (slot : SlotNo)
  /-- PACED_END_RECORD (R369): After the last tile, an ENDED record is written at the next deadline. -/
  | pacedEndRecord (slot : SlotNo)
  /-- INGEST_DRAIN_IDLE (R373): A staged pane idle for DRAIN_IDLE_US is evicted by INGEST_DRAIN. -/
  | ingestDrainIdle (slot : SlotNo) (record : Nat)
  /-- REFRESH_DUE (R393): A bank owes a refresh each interval, postponed or forced as owed. -/
  | refreshDue (channel : BitVec 7) (bank : BitVec 6)
  /-- MAINTENANCE_RETRAIN (R399): Every 50 ms each GDDR7 channel receives a maintenance retraining. -/
  | maintenanceRetrain
  /-- T0_ACCESS_FAILED (R398): An access that fails after retries and full retraining returns poison or poisons its line. -/
  | t0AccessFailed (record : Nat) (line : BitVec 10) (write : Bool)
  /-- T1_NO_RESPONSE (R411): A T1 request unanswered for 20 µs is handled as poisoned or failed. -/
  | t1NoResponse (record : Nat)
  /-- T1_LINK_DOWN (R411): A T1 link goes down; requests wait while it retrains. -/
  | t1LinkDown (port : BitVec 3)
  /-- T1_RETRAIN_TIMEOUT (R411): A T1 link not up within 100 ms loses the port. -/
  | t1RetrainTimeout (port : BitVec 3)
  /-- T1_DEVICE_EVENT (R411): A device media event is logged with its record. -/
  | t1DeviceEvent (port : BitVec 3) (record : List Byte)
  /-- T1_ENUMERATION_COMPLETE (R408): A T1 device is accepted, decoded and in service, or refused. -/
  | t1EnumerationComplete (port : BitVec 3) (capacity : Nat) (accepted : Bool)
  /-- LOST_PORT_POISON_PASS (R412): The background pass writes POISONED into every entry homed on a lost port or die. -/
  | lostPortPoisonPass (t2 : Bool) (index : Nat)
  /-- NAND_PROGRAM_COMPLETE (R418): A NAND program completes; waiting durability and journal commits proceed. -/
  | nandProgramComplete (record : Nat)
  /-- PROGRAM_FAILURE (R421): A failed program or erase retires the block and rewrites from the buffer. -/
  | programFailure (die : Nat) (block : Nat) (erase : Bool)
  /-- T2_READ_DECODE (R419): A flash read is LDPC-decoded, climbing the retry ladder on failure. -/
  | t2ReadDecode (record : Nat) (step : BitVec 3)
  /-- DIE_FAILURE (R422): A die that stops answering, or a failed channel, goes out of service. -/
  | dieFailure (channel : BitVec 5) (die : Option Nat)
  /-- BLOCK_RELOCATION (R417): The FLASH engine moves valid units out of erase units and erases them. -/
  | blockRelocation (die : Nat) (block : Nat)
  /-- JOURNAL_COMMIT (R423): A journal commit record is programmed on both channels. -/
  | journalCommit
  /-- WEAR_GOVERNOR_CHANGE (R426): The wear bucket crosses a threshold and the governor changes state. -/
  | wearGovernorChange (state : BitVec 2)
  /-- HEAL_COMMIT (R477): All 32 mirror tiles are written and the healed pane is committed in T0. -/
  | healCommit (record : Nat) (read : Media)
  /-- HEAL_TIMEOUT (R478): A heal not committed within 20 ms of detection is abandoned. -/
  | healTimeout (record : Nat)
  /-- SCRUB_PASS_COMPLETE (R480): A scrub pass ends, writes its summary and posts its final completion. -/
  | scrubPassComplete (corrected : Nat) (found : List (Nat × Nat))
  /-- KERNEL_DUE (R499): A core's next known-answer kernel falls due. -/
  | kernelDue (core : CoreNo)
  /-- KERNEL_DEFER_EXPIRY (R501): A kernel not run within DEFER_MINUTES is inserted at the next beat boundary. -/
  | kernelDeferExpiry (core : CoreNo)
  /-- KERNEL_RUN_END (R498): A kernel run ends and Gaffer pair 1 compares its result, starting diagnosis on failure. -/
  | kernelRunEnd (core : CoreNo) (result : List Byte)
  /-- PRIVILEGED_FAULT (R512): A fault of a privileged unit puts the module in DRAINING. -/
  | privilegedFault (unit : BitVec 16)
  /-- DRAIN_PERIOD_EXPIRY (R512): DRAIN_PERIOD_S passes and the module enters FAILED_REPLACE. -/
  | drainPeriodExpiry
  /-- HANG_DECLARE (R542): A beat or stop not done HANG_MS after it began declares a hang. -/
  | hangDeclare (slot : SlotNo)
  /-- DUMP_WRITE_COMPLETE (R543): A hang dump has been written to the dump area. -/
  | dumpWriteComplete (dump : Nat)
  /-- CAPTURE_TAKEN (R549): At the named barrier the capture reads every pane of the tensor and the release proceeds. -/
  | captureTaken (slot : SlotNo)
  /-- BOOT_IMAGE_VERIFIED (R589): The root of trust verifies and boots a firmware slot, or enters recovery. -/
  | bootImageVerified (slot : BitVec 1) (valid : Bool)
  /-- JOURNAL_REPLAY_COMPLETE (R424): The journal has been mounted and replayed, or formatted, and T2 is in service. -/
  | journalReplayComplete (readable : Bool)
  /-- READY_ENTRY (R590): Bring-up ends; the module enters READY, or FAILED_REPLACE. -/
  | readyEntry
  /-- PERST_DEASSERT (R461): PERST# deasserted on a host port lets the port train and its functions answer configuration requests within 100 ms. -/
  | perstDeassert (port : BitVec 2)
  /-- HOST_LINK_TRAINED (R433): A host port completes link training or retraining at a negotiated width and rate, runs as a CXL or PCIe port, and sets C of HOST_EGRESS, logging HOST_RETRAIN or HOST_NO_CXL as needed. -/
  | hostLinkTrained (port : BitVec 2) (mode : BitVec 2) (width : Nat) (rate : Nat)
  /-- MOD_RESET_RELEASE (R594): MOD_RESET# returns high after a module reset, and bring-up starts again from step 2 of R590. -/
  | modResetRelease
  /-- SB_VREF_RECOVERED (R650): SB_VREF returns within range, and 1 ms later the module resumes reading PWR_EN and MOD_RESET# and driving MI3C and MOD_PWRGD. -/
  | sbVrefRecovered
  /-- THERMTRIP_RELEASE (R572): After PWR_EN has been low for 100 ms following a thermal trip, THERMTRIP# and the trip state are released. -/
  | thermtripRelease
  /-- T1_FATAL_ERROR (R412): A T1 device reports a fatal error, and the module loses the port. -/
  | t1FatalError (port : BitVec 3)
  /-- T1_LINK_RETRAINED (R411): A downed T1 link comes up again within 100 ms, and its waiting requests proceed. -/
  | t1LinkRetrained (port : BitVec 3)
  /-- FTC_SYNC_EDGE_TIMEOUT (R321): No rising edge of FTC_SYNC arrives within 2 s of an FTC_SYNC with MODE 1, and the command completes with TIMEOUT. -/
  | ftcSyncEdgeTimeout
  /-- KERNEL_RUN_START (R500): The Gaffer starts the oldest due or diagnostic known-answer kernel whose core has an idle slot, including once 10 ms have passed since its movement last ran. -/
  | kernelRunStart
  deriving DecidableEq, Repr

end Sys2Proof
end

