-- ==== Sys2Proof/Machine/StateMemory.lean ====
section
/-! DEFINITION. The state of partitions, leases, extents, regions, versions and pane records
(spec/03_tiers_and_panes.md, spec/05_compression_engines.md, spec/06_extents_sharing_versions.md), as plain data. -/
namespace Sys2Proof.Machine

/-- A partition's state (R185); a FREE partition has no entry. -/
inductive PartState where
  | active | destroying
  deriving DecidableEq, Repr

/-- A partition (R184 to R188) and what the module keeps for it. -/
structure Part where
  state : PartState
  name : Nat
  quota : Nat
  leaseS : Nat
  /-- T0 residency and queue shares (R355); `t0Max` none is the whole pool. -/
  t0Min : Nat
  t0Max : Option Nat
  queueMin : Nat
  queueMax : Nat
  /-- An exhaustion episode is open (R134). -/
  exhausted : Bool
  /-- Panes (region, pane index) for which a drop of this episode has been logged (R134). -/
  dropLogged : List (Nat × Nat)
  /-- FREEZE of the partition's counters and its FREEZE_FTC (R530). -/
  frozen : Bool
  freezeFtc : Nat
  /-- Lost error records of the partition by severity 0 to 3 (R488). -/
  lost : List Nat
  deriving DecidableEq, Repr

/-- The state of an LD's lease (R217). -/
inductive LeaseState where
  | idle | live | grace | cleanup
  deriving DecidableEq, Repr

/-- The binding and lease of one LD (R186, R217 to R219); an unbound LD has no entry. -/
structure LdBind where
  partition : Nat
  lease : LeaseState
  periodS : Nat
  renewals : Nat
  /-- LOCAL_TIME of the last renewal or of the entry into the state, in ns. -/
  since : Nat
  /-- A discarded write has been logged in this CLEANUP (R219). -/
  cleanupLogged : Bool
  deriving DecidableEq, Repr

/-- An extent that has been added, is kept, or is in the cullet pool (R189 to R196). An extent with no entry is CLEAN and
held by no LD. -/
structure Extent where
  pendingLds : List Nat
  heldLds : List Nat
  /-- The region and the ordinal, when assigned (R92). -/
  region : Option (Nat × Nat)
  /-- Kept by this partition with no holding (R207, R214, R216, R219). -/
  kept : Option Nat
  serial : Nat
  inCullet : Bool
  tag : Nat
  deriving DecidableEq, Repr

inductive RegForm where
  | raw | lehr | frit
  deriving DecidableEq, Repr

inductive DType where
  | opaque | bf16 | fp16 | fp32 | e4m3 | e5m2 | int8 | int32
  deriving DecidableEq, Repr

inductive Residency where
  | float | pinT0 | pinLow
  deriving DecidableEq, Repr

/-- One sealed version (R202, R207). -/
structure Ver where
  /-- Region pane index to record number (R204). -/
  map : Tbl Nat
  checkpoint : Bool
  orphan : Bool
  /-- CHECKPOINT_DURABLE has been raised for it (R215). -/
  durableDone : Bool
  /-- It was made by PUBLISH (R216). -/
  published : Bool
  deriving DecidableEq, Repr

/-- A Lehr table generation of a region: its table store slot and its 144 B image (R154, R168). -/
structure TableGen where
  slot : Nat
  image : Mem
  deriving DecidableEq, Repr

/-- The compression tables of a region (R165 to R174, R180). -/
structure Tables where
  gens : Tbl TableGen
  current : Option Nat
  /-- The first pass: panes sampled so far and the 256-symbol histogram (R165). -/
  sampled : Nat
  histogram : Tbl Nat
  /-- A build waits for a table store slot (R170). -/
  storeWait : Bool
  /-- SLOWEST_EXP_UNITS (R180). -/
  slowest : Nat
  deriving DecidableEq, Repr

/-- A region (R94, R100). -/
structure Region where
  owner : Nat
  name : Nat
  form : RegForm
  dtype : DType
  packed : Bool
  residency : Residency
  shared : Bool
  versioning : Bool
  durable : Bool
  qos : Nat
  elastic : Bool
  orphanKeep : Bool
  striped : Bool
  floor : Nat
  verReserve : Nat
  rotation : Nat
  promoteAt : Nat
  evictBelow : Nat
  exhaustHoldMs : Nat
  decayUs : Nat
  expFloor : Nat
  /-- Ordinal to extent number; ordinals are never renumbered (R92). -/
  ordinals : Tbl Nat
  nextOrdinal : Nat
  sharers : List Nat
  versionSpaceExceeded : Bool
  dropsLogged : Bool
  exhaustedFlag : Bool
  head : Nat
  nextVersion : Nat
  vers : Tbl Ver
  /-- Newest version for which CHECKPOINT_DURABLE has been raised (R207). -/
  newestDurable : Option Nat
  /-- Sealed versions whose persistence is in progress (R215). -/
  persisting : List Nat
  tables : Tables
  /-- Mirror base fabric address, when set (R475). -/
  mirror : Option Nat
  /-- LDs whose discarded plain write has been logged in the current second (R197). -/
  plainWriteLogged : List Nat
  /-- Last SCRUB pass summary fields (R472, R481). -/
  lastScrub : List Nat
  deriving DecidableEq, Repr

inductive PState where
  | stable | movingUp | movingDown | poisoned
  deriving DecidableEq, Repr

inductive Tier where
  | t0 | t1 | t2 | unbacked
  deriving DecidableEq, Repr

inductive PForm where
  | raw | lehr | frit | zero
  deriving DecidableEq, Repr

/-- A place in a tier: LOCATION in the units of R102, and the length in 256 B sectors. -/
structure Place where
  tier : Tier
  loc : Nat
  sectors : Nat
  /-- For T2, the die that holds the image (R416). -/
  die : Nat := 0
  deriving DecidableEq, Repr

/-- A parked slot (R121): its place, the image in it and its parking age. -/
structure Parked where
  place : Place
  form : PForm
  gen : Nat
  img : Mem
  age : Nat
  deriving DecidableEq, Repr

/-- What an encode of a pane latches at its start: the current table generation and EXP_FLOOR of its region (R149, R181). -/
structure Latch where
  table : Option Nat
  expFloor : Nat
  deriving DecidableEq, Repr

/-- A pane record: the map entry (R101), the stored bytes of its home, and the T0 residency record (R121). -/
structure PaneRec where
  region : Nat
  /-- The region pane index and the extent whose base record or copy it is. -/
  pane : Nat
  extent : Nat
  state : PState
  tier : Tier
  form : PForm
  gen : Nat
  counter : Nat
  loc : Nat
  sectors : Nat
  /-- For T2, the die that holds the image (R416). -/
  die : Nat
  /-- RAW form: the 65,536 bytes; LEHR and FRIT: the stored image. -/
  img : Mem
  /-- RAW form: lines (0 to 1,023) that carry poison; other forms: tiles (0 to 31) stored as poisoned. -/
  poison : List Nat
  parked : Option Parked
  /-- Destination reserved by a move in progress (R118, R119). -/
  dest : Option Place
  /-- The move is a demand promotion, whose miss has been counted (R111). -/
  demand : Bool
  /-- The master that a demand promotion in progress is regulated as; none for an internal engine (R113). -/
  mover : Option Nat := none
  /-- The destination of the move in progress is a raw frame, as T0_FORM stood when it was reserved (R96, R107). -/
  rawDest : Bool := false
  /-- The encode of the move in progress, none where it copies the image or swaps pointers (R119, R149, R161). -/
  latch : Option Latch := none
  /-- The pane was immutable when its promotion committed, so step 4 parks the old location (R121, R123). -/
  oldParks : Bool := false
  /-- A promotion request waits, of the master given or of an engine: for step 4, for an eviction that makes room, or for the engine (R114, R123, R163). -/
  wish : Option (Option Nat) := none
  /-- Old location not yet freed or parked (step 4 of R118 and R119), with what it held. -/
  old : Option Parked
  /-- Order of its last promotion (R115). -/
  promo : Nat
  /-- LOCAL_TIME of its last write (R117). -/
  lastWrite : Nat
  /-- Sectors once encoded, none while it has never been encoded (R132). -/
  encoded : Option Nat
  /-- It is a copy on write beyond its region's version reserve, which draws on elastic free space (R131, R133). -/
  elasticHeld : Bool
  /-- A seal encode (R211) or a sweep encode (R173) of it is in progress. -/
  sealEncode : Bool
  /-- An unpack to a raw frame is in progress (R108). -/
  unpacking : Option Place
  /-- The lines of a raw T0 frame that have been written since it was cleared, none where all have (VALID of R383, R386). -/
  written : Option (List Nat) := none
  deriving DecidableEq, Repr

/-- Where a write came from. -/
inductive WriteSrc where
  | host (ld : Nat) (tag : Nat)
  | core (core : Nat) (ticket : Nat)
  | remote (flow : Nat) (device : Nat) (tag : Nat) (part : Nat)
  | ingest (stream : Nat)
  /-- A write of an engine of the module: a result that a command sends to a buffer (R58). -/
  | engine
  deriving DecidableEq, Repr

/-- Why a write or read waits. -/
inductive WaitFor where
  | copy (record : Nat)
  | unpack | promotion | encode | frame | space | t1Link
  /-- It waits at its source: the hold buffer of its host port or the request queue of a B-die takes no more (R134, R355). -/
  | credit
  /-- Its master has spent its MAX, and it waits at its source for the next window (R351). -/
  | window
  /-- A prepared seal of its version, or a REHOME of its unit (R339, R342). -/
  | sealCommit
  deriving DecidableEq, Repr

/-- A whole pane image that PUT_PANE stores: its form, its generation and its length in bytes (R272). -/
structure PaneImage where
  form : PForm
  gen : Nat
  img : Mem
  len : Nat
  deriving DecidableEq, Repr

/-- A write that waits (R108, R113, R114, R134, R205, R211). -/
structure HeldWrite where
  src : WriteSrc
  region : Nat
  sel : VerSel
  pane : Nat
  /-- Byte offset in the pane, the bytes, and which bytes are written. -/
  offset : Nat
  bytes : List Byte
  enable : List Bool
  poisoned : Bool
  wait : WaitFor
  /-- The write is a whole pane image, in place of the bytes. -/
  image : Option PaneImage := none
  /-- LOCAL_TIME at which it was issued, where it has waited at its source (R353). -/
  issued : Option Nat := none
  deriving DecidableEq, Repr

/-- A read that waits for a seal encode or a T1 link (R211, R411). -/
structure HeldRead where
  src : WriteSrc
  region : Nat
  sel : VerSel
  pane : Nat
  offset : Nat
  /-- The whole tile at the offset is read, for a remote tile mover, in stored form or raw. -/
  tile : Bool
  raw : Bool
  wait : WaitFor
  /-- LOCAL_TIME at which it was issued, where it has waited at its source (R353). -/
  issued : Option Nat := none
  deriving DecidableEq, Repr

/-- A copy on write in progress (R205). -/
structure CowJob where
  region : Nat
  sel : VerSel
  pane : Nat
  source : Nat
  dest : Place
  /-- It goes beyond its region's version reserve (R133). -/
  elastic : Bool
  /-- The writing master (R206). -/
  master : Nat := 0x3000
  deriving DecidableEq, Repr

/-- The memory side of the module. -/
structure Memory where
  parts : Tbl Part
  lds : Tbl LdBind
  extents : Tbl Extent
  regions : Tbl Region
  /-- Pane records by record number. -/
  recs : Tbl PaneRec
  nextRec : Nat
  serial : Nat
  promoSeq : Nat
  parkAge : Nat
  heldWrites : List HeldWrite
  heldReads : List HeldRead
  cows : List CowJob
  /-- Table store slots in use (R170) and the regions that wait for one, in order. -/
  tableSlots : List Nat
  tableWaiters : List Nat
  /-- T0 line hits of each host port, modulo 16 (R111). -/
  lineHits : List Nat
  /-- The T0 intervals that hold the map store where no T1 does (R105, R135). -/
  mapCarve : List (Nat × Nat)
  /-- The map store lies in T0 (R105). -/
  mapInT0 : Bool
  deriving DecidableEq, Repr

end Sys2Proof.Machine
end

