-- ==== Sys2Proof/Machine/StateService.lean ====
section
/-! DEFINITION. The state of the error log, the counters, the trace, the hang rings and dumps, and the scrub pass
(spec/15_integrity_poison.md, spec/17_counters_trace_dumps.md), as plain data. -/
namespace Sys2Proof.Machine

/-- SEVERITY of an error record (R485). -/
inductive Sev where
  | info | corrected | contained | unit | module
  deriving DecidableEq, Repr

/-- OPERATION of an error record (R485), in the order of its values 0 to 14. -/
inductive Opn where
  | none | hostRead | hostWrite
  /-- With the descriptor opcode, 0 where no descriptor acts (R484). -/
  | tileFetch (opcode : Nat) | tileStore (opcode : Nat)
  | promotion | eviction | encode | scrub | heal | remote
  /-- With the mailbox opcode (R484). -/
  | command (opcode : Nat)
  | training | background | test
  deriving DecidableEq, Repr

/-- ADDR_SPACE of an error record (R485), in the order of its values 0 to 8. -/
inductive ASpace where
  | none | dpa | regionPane | t0 | t1 | t2 | fabric | hostPhys | extent
  deriving DecidableEq, Repr

/-- An error record (R484). Appendix records have CODE 0 and their 48 B in `appendix` (R486). -/
structure ErrRec where
  seq : Nat
  unit : Nat
  code : Nat
  sev : Sev
  opn : Opn
  opcode : Nat
  ftc : Nat
  localTime : Nat
  address : Nat
  space : ASpace
  partition : Nat
  region : Nat
  temp : Nat
  rail : Nat
  context : Nat
  count : Nat
  detail : Nat
  restored : Bool
  read : Bool
  hasAppendix : Bool
  /-- For an appendix record: difference from its parent's SEQUENCE, and its 48 B. -/
  parentDiff : Nat
  appendix : List Byte
  deriving DecidableEq, Repr

/-- The error log (R488 to R492). -/
structure ErrLog where
  recs : List ErrRec
  nextSeq : Nat
  /-- LOST of the module-wide scope for severities 0 to 4 (partitions hold their own). -/
  lost : List Nat
  /-- Records of severity UNIT or MODULE that are journalled in T2, newest last, at most 256 (R492). -/
  journalled : List ErrRec
  /-- ERROR_RECORD (per partition) and ERROR_RECORD_ANY (key 64) for a low severity: the second of the last raise (R491). -/
  lowRaised : Tbl Nat
  /-- The second in which HOST_POISON_READ was last logged, by LD × 16,384 + region (R469). -/
  poisonReadSecond : Tbl Nat
  deriving DecidableEq, Repr

/-- One counter's configuration and value (R526, R528). A counter with no entry is disabled and zero. -/
structure Counter where
  event : Nat
  unit : Nat
  master : Nat
  resetOnStart : Bool
  thresholdLog2 : Nat
  startContext : Nat
  value : Nat
  wrapped : Bool
  deriving DecidableEq, Repr

/-- The counters (R524, R530): key 64 × partition + number for partition counters; key 4,096 + number for global ones. -/
structure Counters where
  tbl : Tbl Counter
  moduleFrozen : Bool
  freezeFtc : Nat
  deriving DecidableEq, Repr

/-- A trace event (R535). -/
structure TraceEv where
  ftc : Nat
  unit : Nat
  kind : Nat
  post : Bool
  stepped : Bool
  ring : Bool
  partition : Nat
  a16 : Nat
  tag : Nat
  a32 : Nat
  a64 : Nat
  deriving DecidableEq, Repr

inductive TraceState where
  | idle | recording | capturing | stopped
  deriving DecidableEq, Repr

/-- The trace and the trigger logic (R532 to R540). -/
structure Trace where
  carveMiB : Nat
  /-- The T0 intervals of the carve-out: first 256 B sector and length (R396, R534). -/
  carve : List (Nat × Nat)
  dumpMiB : Nat
  mode : Nat
  pre16 : Nat
  triggerMask : Nat
  freezeOnTrigger : Bool
  classMask : Nat
  partition : Nat
  kindMask : Nat
  postEvents : Nat
  state : TraceState
  events : List TraceEv
  dropped : Nat
  /-- Post-trigger events still to write while CAPTURING. -/
  postLeft : Nat
  stepped : Bool
  /-- At P2 to P4: events of each B-die that wait in its buffer, and the events dropped since, with the FTC of the first (R537). -/
  buffered : Tbl Nat
  dropsNow : Nat
  firstDrop : Nat
  /-- This module's own trigger count as an origin, and the last TRIGGER_NO taken from each origin (R533). -/
  triggerNo : Nat
  lastTrigger : Tbl Nat
  /-- Trigger sources that have arisen in the present command and are acted on at its end (R532). -/
  sources : Nat
  deriving DecidableEq, Repr

/-- A hang dump (R543, R544): its bytes as a store. -/
structure Dump where
  id : Nat
  reason : Nat
  partition : Nat
  bytes : Nat
  /-- Where it begins in the dump area. -/
  at_ : Nat
  data : Mem
  written : Bool
  deriving DecidableEq, Repr

/-- An armed tensor capture (R548, R549). -/
structure Capture where
  ctxSlot : Nat
  movement : Nat
  tensor : Nat
  step : Nat
  raw : Bool
  dest : Nat
  destLen : Nat
  holding : Bool
  deriving DecidableEq, Repr

/-- Hang rings, dumps and captures (R541 to R549). -/
structure Hang where
  classMask : Nat
  dumpOnHang : Bool
  crucibles : Bool
  hangMs : Nat
  /-- Unit ID to its last 64 events. -/
  rings : Tbl (List TraceEv)
  dumps : List Dump
  nextDump : Nat
  captures : List Capture
  deriving DecidableEq, Repr

/-- A scrub pass in progress (R479, R480). -/
structure ScrubPass where
  ctxSlot : Nat
  mode : Nat
  heal : Bool
  noWriteback : Bool
  region : Nat
  sel : VerSel
  first : Nat
  count : Nat
  tier : Nat
  port : Nat
  summarySpace : Nat
  summaryAddr : Nat
  /-- The records that were POISONED when it began, and the heals that have committed since. -/
  bad : List Nat
  healed : Nat
  deriving DecidableEq, Repr

/-- A heal in progress (R477). -/
structure Heal where
  record : Nat
  region : Nat
  pane : Nat
  mirror : Nat
  frame : Place
  /-- Tiles that have arrived: tile number to its 2,048 bytes. -/
  tiles : Tbl Mem
  poisonedReads : Nat
  wasPoisoned : Bool
  deriving DecidableEq, Repr

/-- The service side of the module. -/
structure Service where
  err : ErrLog
  ctr : Counters
  trace : Trace
  hang : Hang
  scrub : Option ScrubPass
  scrubQueue : List ScrubPass
  heals : List Heal
  deriving DecidableEq, Repr

end Sys2Proof.Machine
end

