-- ==== Sys2Proof/Machine/StateHost.lean ====
section
/-! DEFINITION. The state of the host ports, the functions, the HDM decoders, the primary mailboxes and the DOE mailboxes
(spec/14_host_ports.md), and of power, coolant and rungs (spec/18_power_coolant_rungs.md, spec/01_module_package.md), as
plain data. -/
namespace Sys2Proof.Machine

/-- One HDM decoder (R446). `dpaBase` is the DPA at which its range begins once committed. -/
structure HdmDecoder where
  base : Nat
  size : Nat
  /-- log2 of the ways and of the granularity. -/
  waysLog2 : Nat
  granLog2 : Nat
  skip : Nat
  dpaBase : Nat
  committed : Bool
  errNotCommitted : Bool
  lockOnCommit : Bool
  deriving DecidableEq, Repr

/-- The configuration space of one function: its 4,096 bytes, and the reset in progress (R437, R451). -/
structure Function where
  cfg : Mem
  /-- 0 none, 1 FLR, 2 CXL Reset. -/
  reset : Nat
  intxStatus : Nat
  intxEnable : Nat
  /-- The INTx message last sent was Assert_INTA (R453). -/
  asserted : Bool
  /-- The second in which HOST_UR was last logged (R440). -/
  urSecond : Option Nat
  deriving DecidableEq, Repr

/-- A read that the LD's management function has outstanding on the host (R458, R459). -/
structure DmaRead where
  tag : Nat
  /-- Key and index of the buffer. -/
  key : Nat
  index : Nat
  /-- Offset in the buffer of the next byte expected, and bytes still due. -/
  offset : Nat
  left : Nat
  deriving DecidableEq, Repr

/-- One logical device of a host port (R435 to R459). -/
structure Ld where
  f0 : Function
  f1 : Function
  /-- INTX_CHN_PEND: the channels whose bit is set (R454). -/
  chnPend : List Nat
  memoryActive : Bool
  decoders : List HdmDecoder
  /-- The five event logs of R441 (Informational, Warning, Failure, Fatal, Dynamic Capacity), each a list of records. -/
  eventLogs : List (List (List Byte))
  /-- Event records dropped because a log was full, for each log. -/
  eventOverflow : List Nat
  /-- Dynamic Capacity adds that the host has not answered, oldest first, each with the extents offered (R191). -/
  adds : List (List Nat)
  timestamp : Nat
  /-- LOCAL_TIME at which the timestamp was set. -/
  timestampSet : Nat
  reads : List DmaRead
  nextTag : Nat
  /-- Tags not to be reused after a timeout or a reset, each with the LOCAL_TIME from which it may be (R459). -/
  retiredTags : List (Nat × Nat)
  /-- Host writes not issued while Bus Master Enable is clear (R457, R462). -/
  heldDma : List (Nat × List Byte)
  /-- The second in which HOST_OUTSIDE_DECODER was last logged (R448). -/
  outsideSecond : Option Nat
  /-- The writable bytes of the CXL structures in BAR0 of function 0 whose fields the spec leaves to the CXL specification (R631). -/
  regs : Mem
  deriving DecidableEq, Repr

/-- How a host port runs (R434, R435). -/
inductive PortMode where
  | down | pcie | sld | mld
  deriving DecidableEq, Repr

/-- One host port (R433 to R452). -/
structure HostPort where
  mode : PortMode
  width : Nat
  /-- Negotiated rate in GT/s. -/
  rate : Nat
  perst : Bool
  ideSecure : Bool
  ideInsecure : Bool
  inL1 : Bool
  inL12 : Bool
  /-- Latency target in ns (R361) and LTR value last sent (R370). -/
  latencyTarget : Nat
  ltr : Option Nat
  deriving DecidableEq, Repr

/-- What powers the module (R24, R30, R31, R553 to R557). -/
inductive PowerPhase where
  /-- No input present. -/
  | unmated
  /-- Input present and rails off. -/
  | off
  | on
  /-- Rails off after a thermal trip (R572). -/
  | tripped
  deriving DecidableEq, Repr

/-- Power, coolant, sensors, pins and rungs. -/
structure Power where
  phase : PowerPhase
  pwrPrsnt : Bool
  /-- PWR_EN and MOD_RESET# asserted as last read, and as the pins stand (R650). -/
  pwrEn : Bool
  modReset : Bool
  pwrEnPin : Bool
  modResetPin : Bool
  /-- SLOT_ID[5:0], as strapped by the rack. -/
  slotId : Nat
  /-- An input fault of R554 has switched the rails off, and the input has not recovered. -/
  inputFault : Bool
  modPwrgd : Bool
  /-- LEAK#, ALERT# and THERMTRIP# are asserted. -/
  leakPin : Bool
  alertPin : Bool
  thermtripPin : Bool
  sbVrefLow : Bool
  /-- Cable supply faults latched, by connector (R27), and presence pins. -/
  cableFault : List Bool
  hmPrsnt : List Bool
  dsPrsnt : List Bool
  fPrsnt : List Bool
  /-- DPERST# is released and DREFCLK is driven, by downstream port; VCBL_3V3 is supplied, by fabric port (R24, R27, R408). -/
  dPerstOut : List Bool
  dRefclkOut : List Bool
  vcblOut : List Bool
  /-- A presence change has been latched at P3 or P4 (R566). -/
  presenceLatched : Bool
  /-- Leak cord: classification in force (0 dry, 1 leak, 2 open), the one being held, the samples for which it has been held, and the latched
  flags (R35, R36). -/
  leakClass : Nat
  leakCand : Nat
  leakHeld : Nat
  leakFlag : Bool
  sensorFlag : Bool
  /-- Detections whose records the Gaffer has not written: record code, FTC and LOCAL_TIME (R36). -/
  leakPending : List (Nat × Nat × Nat)
  /-- VIN_56 lies below 46 V (R554); the hour in which INPUT_HIGH was last logged. -/
  inputLow : Bool
  inputHighHour : Option Nat
  /-- Sustained limits in W: host and coolant, and the 10 ms samples for which the coolant limit has differed from the one in force. -/
  hostLimit : Nat
  noBurst : Bool
  coolantLimit : Nat
  /-- LIMIT_CAUSE bits of the coolant limit in force. -/
  coolantCause : Nat
  coolantHeld : Nat
  /-- Inlet and outlet temperatures in °C × 8, and flow in mL/min. -/
  inletT : Int
  outletT : Int
  flow : Nat
  /-- Governor: P100, 20 ms and 2 s averages in W; budgets in µs. -/
  p100 : Nat
  p20ms : Nat
  p2s : Nat
  burstUs : Nat
  thermalUs : Nat
  cSteps : Nat
  bSteps : Nat
  /-- µs that P100 has spent below 95% of the cap since the last step up, and above the cap at both floors. -/
  belowUs : Nat
  overFloorUs : Nat
  capFail : Bool
  thermalActive : Bool
  throttleMinute : Option Nat
  energyUJ : Nat
  /-- Temperatures in °C × 8. -/
  bTemps : List Int
  cTemps : List Int
  gddrTemps : List Int
  nandTemps : List Int
  /-- Sticky bank (R560): cause, die, temperature; none when clear. Causes 1 input low, 2 input high, 3 unmated, 4 thermal trip. -/
  sticky : Option (Nat × Nat × Int)
  /-- Rung, settings and reports (R563, R573, R574). -/
  rung : Nat
  resting : Nat
  kept : Nat
  idleUs : Nat
  /-- The context of a POWER_SET_RUNG with MODE NOW whose descent goes on. -/
  nowCtx : Option Nat
  /-- The module prepares for P3 or P4 (R563). -/
  preparing : Bool
  entries : List Nat
  lastExitNs : Nat
  lastWake : Nat
  deriving DecidableEq, Repr

end Sys2Proof.Machine
end

