-- ==== Sys2Proof/Machine/StateEngines.lean ====
section
/-! DEFINITION. The state of the sliver cores and movements (spec/07_sliver_cores_movements.md,
spec/08_operation_reference.md), of the Regulator and the streams (spec/11_regulation_streams.md) and of in-field test
(spec/16_field_test.md), as plain data. -/
namespace Sys2Proof.Machine

/-- A tile fetch that has been issued and has not arrived (R224, R269). -/
structure FetchReq where
  ticket : Nat
  binding : Nat
  region : Nat
  sel : VerSel
  pane : Nat
  tile : Nat
  /-- The crucible unit of its slot. -/
  dest : Nat
  /-- It has been requested from another module (R336). -/
  asked : Bool
  /-- The opcode of its descriptor. -/
  op : Nat
  /-- LOCAL_TIME at which it was issued (R353). -/
  issued : Nat := 0
  deriving DecidableEq, Repr

/-- A core tile store that has been issued and has not committed (R242, R270, R272). -/
structure StoreReq where
  ticket : Nat
  binding : Nat
  region : Nat
  sel : VerSel
  pane : Nat
  offset : Nat
  bytes : List Byte
  poisoned : Bool
  /-- PUT_PANE: the whole checked image in its form and generation (R272). -/
  image : Option (PForm × Nat × Mem)
  /-- It has reached the walker or has been sent to its home, and waits there. -/
  waiting : Bool
  /-- The opcode of its descriptor. -/
  op : Nat
  deriving DecidableEq, Repr

/-- A fabric message held for a core (R289). -/
structure CoreMsg where
  srcDevice : Nat
  srcCore : Nat
  tag : Nat
  data : List Byte
  /-- Its whole length in bytes; it is complete once `data` has it. -/
  total : Nat
  deriving DecidableEq, Repr

/-- A FAB_RECV that waits for its message (R289), or a FAB_REDUCE that waits for its result (R290). -/
inductive CoreWait where
  | recv (device core tag dest units : Nat)
  | reduce (tree round dest elements : Nat) (writes : Bool)
  deriving DecidableEq, Repr

/-- One open loop (R225): the index of its first descriptor, the iteration and the count. -/
structure LoopFrame where
  start : Nat
  iter : Nat
  count : Nat
  deriving DecidableEq, Repr

/-- A sliver core (R222 to R225, R252, R259, R545). A core with no entry holds its reset state. -/
structure Core where
  crucible : Mem
  /-- For a slot that a fetch filled: its unit, with the binding and pane that it came from (R250). -/
  origins : Tbl (Nat × Nat)
  preds : List Bool
  flags : Nat
  loops : List LoopFrame
  pc : Nat
  movement : Option Nat
  atBarrier : Bool
  stopped : Bool
  fetches : List FetchReq
  stores : List StoreReq
  msgs : List CoreMsg
  waits : List CoreWait
  ticket : Nat
  /-- Table store slots whose images its operand expander holds, at most four (R176). -/
  tables : List Nat := []
  /-- A run-time check that has failed on this core and has not ended the run yet (R245): status, REASON, binding and pane. -/
  fault : Option (Status × Nat × Option (Nat × Nat))
  /-- A message has been discarded since the last start, and the record of it has been logged (R289). -/
  discardLogged : Bool
  deriving DecidableEq, Repr

inductive MvState where
  | loading | loaded | running | stopping
  deriving DecidableEq, Repr

/-- A movement (R235 to R251). -/
structure Movement where
  partition : Nat
  state : MvState
  image : Mem
  length : Nat
  /-- T0 place of the image area, in 256 B sectors, none before the load-time checks pass (R237). -/
  imageAt : Option Nat
  /-- Bound context slots (65,536 for none) and regions, in the order of the binding table (R235). -/
  bindings : List (Nat × Nat)
  /-- IMAGE: address, length, SPACE, and the requester and channel of the load. -/
  buffer : Nat × Nat × Nat
  owner : Owner
  beat : Nat
  lastStatus : Status
  lastDetail : Nat
  runs : Nat
  faultPane : Nat
  faultBinding : Nat
  longBeats : Nat
  runNs : Nat
  droppedTiles : Nat
  /-- The core whose store was dropped first in the present run. -/
  dropCore : Option Nat
  numericFlags : Nat
  /-- Its spend in this window, by resource × 2^12 + index, in units of 64 B (R351, R354). -/
  spends : Tbl Nat := []
  /-- How it stops: 0 not, 1 at the next barrier, 2 now. -/
  stopMode : Nat
  /-- The status, REASON and core that end the run once every core has stopped. -/
  ending : Option (Status × Nat × Option Nat)
  startChan : Nat
  startTag : Nat
  startNoRing : Bool
  timeLimitMs : Nat
  startedAt : Nat
  beatStart : Nat
  longBeatRaised : Bool
  /-- A hang has been declared for the present beat, or for the stop (R542). -/
  hangDeclared : Bool
  hangStop : Bool
  stopAt : Nat
  poisonLogged : Bool
  /-- Contexts of MOVEMENT_STOP commands that wait for the end of the run. -/
  stopCtxs : List Nat
  deriving DecidableEq, Repr

inductive StreamState where
  | open | stopping | stopped | ended
  deriving DecidableEq, Repr

/-- A paced or an ingest stream (R364 to R376). -/
structure Stream where
  paced : Bool
  ctxSlot : Nat
  partition : Nat
  state : StreamState
  args : Mem
  /-- The region, 0x8000 + FREGION_ID for a fabric region, and the version. -/
  region : Nat
  sel : VerSel
  next : Nat
  delivered : Nat
  holes : Nat
  lastHole : Nat
  stopAt : Option Nat
  /-- Tiles whose fetch has begun and which have no record yet: sequence, outcome (0 in flight, 1 ready, else the HOLE REASON 2 to 4
  that it meets) and bytes. -/
  fetched : List (Nat × Nat × List Byte)
  /-- Cutoffs that have passed (R368). -/
  cutoffs : Nat
  /-- FTC of the deadline of tile 0. -/
  startFtc : Nat
  /-- The staging area of an ingest stream: its T0 frames, by first sector (R371). -/
  frames : List Nat
  overflow : Nat
  /-- An overflow episode is open (R372). -/
  inOverflow : Bool
  drained : Nat
  /-- Its reservations (R365, R371): resource × 2^12 + index, master, MB/s. -/
  reserve : List (Nat × Nat × Nat)
  deriving DecidableEq, Repr

/-- The settings and spend of one master at one resource (R351, R358). -/
structure MasterSet where
  min : Nat
  max : Nat
  weight : Nat
  spend : Nat
  last : Nat
  deriving DecidableEq, Repr

/-- The Regulator and the Escapement (R346 to R363). -/
structure Regulator where
  /-- Settings in force and spends, by resource × 2^28 + index × 2^16 + master. -/
  masters : Tbl MasterSet
  /-- Settings made since the last window boundary: MIN, MAX, WEIGHT (R358). -/
  pendingMasters : Tbl (Nat × Nat × Nat)
  /-- k in force, in thousandths, by resource × 2^12 + index (R357); 1,000 where there is no entry. -/
  scale : Tbl Nat
  windowNs : Nat
  ageLimitNs : Nat
  pendingWindow : Option (Nat × Nat)
  /-- Movements, RUNNING or STOPPING, among which a partition's allotment is divided in this window (R354). -/
  divided : Tbl Nat := []
  deriving DecidableEq, Repr

/-- The service record of a core (R499 to R508). A core with no entry is in service at step 0 with no failures. -/
structure CoreTest where
  step : Nat
  /-- A step that waits for the core's next beat boundary (R506). -/
  pendingStep : Option Nat
  suspect : Bool
  fenced : Bool
  fencePending : Bool
  failedKernels : Nat
  failures : Nat
  lastPassFtc : Nat
  /-- Kernels that have fallen due and have not run, each with the FTC at which it fell due, and whether DEFER_MINUTES have passed (R501). -/
  due : List (Nat × Nat)
  deferred : Bool
  nextKernel : Nat
  /-- LOCAL_TIME of its TRANSIENT verdicts within the last ROUND_HOURS (R504). -/
  transients : List Nat
  /-- Kernel last failed. -/
  lastFailed : Nat
  deriving DecidableEq, Repr

/-- A diagnosis in progress of core `core` by kernel `kernel` (R503 to R508): phase 1 the own rerun, 2 the neighbour, 3 the other C-die, 4 the
other B-die; 5 the kernel again after a guard-band step, 6 a round after it; 7 and 8 the kernel on the core and on its neighbour after a
step of the island's voltage. -/
structure Diagnosis where
  core : Nat
  kernel : Nat
  phase : Nat
  /-- Kernels of the round that are still to run. -/
  left : List Nat
  deriving DecidableEq, Repr

/-- A TEST_RUN in progress (R516, R517). -/
structure TestRun where
  ctxSlot : Nat
  mode : Nat
  /-- The runs that are left: core and kernel. -/
  todo : List (Nat × Nat)
  passes : Nat
  failures : Nat
  skipped : Nat
  firstFail : Option Nat
  /-- The core under REQUALIFY, with the record to restore at a failure. -/
  saved : Option (Nat × CoreTest)
  deriving DecidableEq, Repr

/-- In-field test (R495 to R522). -/
structure Test where
  kernelMask : Nat
  enabled : Bool
  roundHours : Nat
  deferMinutes : Nat
  drainPeriodS : Nat
  cores : Tbl CoreTest
  /-- Steps taken by channels and ports, and LOCAL_TIME of the errors counted in the last hour (R509), by unit ID. -/
  units : Tbl (Nat × List Nat)
  /-- The kernel that runs: core, kernel, and 0 a scheduled run, 1 a run of a diagnosis, 2 a run of a TEST_RUN; at most one (R500). -/
  running : List (Nat × Nat × Nat)
  diagnoses : List Diagnosis
  testRuns : List TestRun
  /-- Privileged units at fault (R511), the first first. -/
  privileged : List Nat
  /-- END_DRAIN has been set (R515). -/
  endDrain : Bool
  /-- KERNELS_RUN, PASSES, TRANSIENTS, SUSPECT_VERDICTS, INSERTIONS, VOID_RUNS, ROUNDS_COMPLETE, LAST_FAIL_UNIT, LAST_FAIL_KERNEL and
  LAST_VERDICT of R518. -/
  totals : List Nat
  /-- The second in which a discarded write was last logged while DRAINING, by LD and region (R513). -/
  discardSecond : Tbl Nat
  deriving DecidableEq, Repr

end Sys2Proof.Machine
end

