-- ==== Sys2Proof/Machine/StateFabric.lean ====
section
/-! DEFINITION. The state of the fabric ports, routing and time (spec/09_fabric_links_routing.md), of the fabric-wide
memory space (spec/10_fabric_memory_space.md), of the three tiers' devices (spec/12_gddr7_controller.md,
spec/13_t1_t2_attachments.md) and of bring-up, life cycle and trust (spec/19_bringup_lifecycle_security.md), as plain
data. -/
namespace Sys2Proof.Machine

/-- What the module notes of a packet that waits on a port; no part of the packet itself. -/
structure Queued where
  /-- ESC was set by the slot of the port on whose egress the packet waits (R315, R322). -/
  crossing : Bool := false
  /-- The master to which it is charged, where that is not its source partition (R347). -/
  master : Option Nat := none
  /-- The movement whose request it is (R354). -/
  movement : Option Nat := none
  /-- LOCAL_TIME at which it was issued, or arrived (R320, R353). -/
  issued : Nat := 0
  /-- It holds no receive buffer of a live link: it never left the module, or its link ended with GOODBYE (R314, R326). -/
  free : Bool := false
  deriving DecidableEq, Repr

/-- A packet: its header fields (R306) and its payload. -/
structure Packet where
  dest : Nat
  src : Nat
  srcPart : Nat
  /-- 0 REQ, 1 RSP, 2 BULK, 3 MGMT. -/
  cls : Nat
  esc : Bool
  poison : Bool
  isLocal : Bool
  ttl : Nat
  flow : Nat
  op : Nat
  tag : Nat
  payload : List Byte
  q : Queued := {}
  deriving DecidableEq, Repr

/-- Port states of R297. -/
inductive FabState where
  | disabled | down | training | hello | limited | up | failed | keying
  deriving DecidableEq, Repr

/-- The key of one direction of an encrypted port (R308, R309): the session secrets that it comes from, key and salt, its epoch, the IV count
of the next sequenced flit, and the flits of the epoch. -/
structure LinkKey where
  secret : Nat
  key : BitVec 256
  salt : BitVec 32
  epoch : Nat
  count : Nat
  used : Nat
  deriving DecidableEq, Repr

/-- No key. -/
def LinkKey.none : LinkKey := { secret := 0, key := 0, salt := 0, epoch := 0, count := 0, used := 0 }

/-- A sequenced flit in the replay buffer, as it was sent, with the number of packets that end in it (R301, R302). -/
structure SentFlit where
  seq : Nat
  ends : Nat
  bytes : List Byte
  deriving DecidableEq, Repr

/-- One fabric port (R293 to R326). -/
structure FabPort where
  state : FabState
  enabled : Bool
  encryptRequired : Bool
  speedCap : Nat
  mode : Nat
  lanes : Nat
  encrypted : Bool
  miswired : Bool
  duplicateId : Bool
  goodbye : Bool
  peerId : Nat
  peerPort : Nat
  peerSerial : Nat
  peerEncrypt : Bool
  delayPs : Nat
  retries : Nat
  seqNext : Nat
  ackLast : Nat
  expected : Nat
  retryPending : Bool
  /-- Sequenced flits that are not acknowledged, and payloads of LINK_CTL flits that wait because 1,024 are not (R301). -/
  replay : List SentFlit
  ctl : List (List Byte)
  /-- The port retrains and goes on in this state with its buffers kept (R302, R313); it then sends a fresh HELLO (R313). -/
  retrain : Option FabState
  rehello : Bool
  /-- Consecutive RETRY_REQ received, with their SEQ, and sent, without progress (R302); flits accepted since the last
  acknowledgement (R301). -/
  gotRetry : Nat × Nat
  sentRetry : Nat
  sinceAck : Nat
  /-- Credits left towards the peer, by virtual channel, and credits to return. -/
  credits : List Nat
  owed : List Nat
  /-- Packets queued for this egress, and packets arrived and not yet handled. -/
  egress : List Packet
  arrived : List Packet
  /-- Bytes of a packet that spans flits, by virtual channel. -/
  partials : Tbl (List Byte)
  /-- The keys of the two directions, and the previous receive key, kept until every flit of its epoch has been acknowledged (R309). -/
  txKey : LinkKey
  rxKey : LinkKey
  rxOld : Option LinkKey
  /-- Corrected symbols and uncorrectable codewords (R296). -/
  corrected : Nat
  uncorrectable : Nat
  losses : List Nat
  lost : Nat
  timestampSent : Option Nat
  cause : Nat
  dropSecond : Option Nat
  deriving DecidableEq, Repr

/-- The messages of one flow of FAB_SEND that are kept (R305). -/
structure MsgFlow where
  dest : Nat
  core : Nat
  /-- A message of the flow has been refused, and the flow waits for MSG_SLOT_FREE. -/
  held : Bool
  /-- Each message as its packets, and whether it waits to be sent. -/
  msgs : List (Bool × List Packet)
  deriving DecidableEq, Repr

/-- Fabric identity, routing and time. -/
structure Fabric where
  ports : List FabPort
  deviceId : Nat
  hashSalt : Nat
  ttl : Nat
  routes : Tbl Nat
  shadow : Tbl Nat
  routeGen : Nat
  shadowDirty : Bool
  lastWave : Nat
  correction : Int
  stepped : Bool
  synced : Bool
  /-- Wave correction still to absorb, in ns (R320). -/
  absorb : Nat
  /-- FTC to load at the next FTC_SYNC edge, and the context that waits (R321). -/
  syncWait : Option (Nat × Nat)
  flows : List MsgFlow
  counters : Tbl Nat
  noRouteSecond : Tbl Nat
  unreachable : List Nat
  deriving DecidableEq, Repr

/-- One entry of a stripe map (R329): home device, generation, unit on the home, state. -/
structure StripeEntry where
  home : Nat
  gen : Nat
  localUnit : Nat
  moving : Bool
  deriving DecidableEq, Repr

/-- A view or working holder that a registrar records (R338). -/
structure FabHolder where
  device : Nat
  token : Nat
  version : Nat
  working : Bool
  deriving DecidableEq, Repr

/-- A seal at the registrar, in progress or queued (R339). -/
structure FabSeal where
  /-- N, once taken. -/
  number : Nat
  origin : Nat
  wctx : Nat
  /-- TAG of the VERSION_OP. -/
  token : Nat
  /-- Under PUBLISH, with BASE; otherwise under CHECKPOINT. -/
  publish : Bool
  base : Nat
  /-- Members that have not acknowledged SEAL_PREPARE. -/
  awaited : List Nat
  deriving DecidableEq, Repr

/-- A fabric region that this module has joined (R329 to R344). -/
structure FabRegion where
  accessor : Bool
  /-- The partition that joined it. -/
  partition : Nat
  registrar : Nat
  /-- The local part of a member; 65,535 for an accessor. -/
  localRegion : Nat
  log2Stripe : Nat
  units : Nat
  stripeGen : Nat
  rotation : Nat
  stripe : Tbl StripeEntry
  /-- At the registrar: the devices that have joined, and the holders of its versions. -/
  members : List Nat
  accessors : List Nat
  holders : List FabHolder
  sealing : Option FabSeal
  queuedSeals : List FabSeal
  /-- This member's parts of the region's working versions (R333): origin × 2^32 + WCTX to the map of local panes. -/
  parts : Tbl (Tbl Nat)
  /-- The base of each working version that has reached this member, by the same key (R333). -/
  bases : Tbl Nat
  /-- Member's prepared version: its number and the key of its part (R339). -/
  prepared : Option (Nat × Nat)
  deriving DecidableEq, Repr

/-- A request that this module has sent and that awaits its response (R335, R345). -/
structure RemoteReq where
  tag : Nat
  device : Nat
  kind : Nat
  address : Nat
  src : WriteSrc
  context : Nat
  /-- The packet, and whether it has been sent: at most 16,384 requests are outstanding (R345). -/
  packet : Packet
  sent : Bool
  /-- The bytes of a partial-line write whose line is being read, and which are enabled. -/
  data : List Byte
  enable : List Bool
  deriving DecidableEq, Repr

/-- One round of a reduction tree (R341). -/
structure TreeRound where
  round : Nat
  /-- Contributions that have arrived: key (65,536 + core number for a core of this module, or the child's device ID), its elements,
  and whether it carries poison. -/
  got : Tbl (List Nat × Bool)
  /-- Some contribution of this module had ROOT_ONLY (R290). -/
  rootOnly : Bool
  /-- The partial has been sent to the parent. -/
  sent : Bool
  deriving DecidableEq, Repr

/-- A reduction tree (R341). -/
structure Tree where
  partition : Nat
  /-- 0xFFFF at the root. -/
  parent : Nat
  children : List Nat
  cores : Nat
  sub : Nat
  dtype : Nat
  elements : Nat
  timeoutMs : Nat
  rounds : List TreeRound
  /-- Rounds that have timed out, whose later partials are discarded. -/
  dead : List Nat
  deriving DecidableEq, Repr

/-- A REHOME at the registrar (R342). -/
structure Rehome where
  fregion : Nat
  unit : Nat
  /-- Units left after the present one, and the destination. -/
  left : Nat
  dest : Nat
  /-- The device and TAG of the REHOME_FORWARD. -/
  requester : Nat
  token : Nat
  /-- 1 the unit is being reserved, 2 it is being sent, 3 it may commit. -/
  phase : Nat
  /-- The unit reserved at the destination. -/
  localUnit : Nat
  moved : Nat
  failed : Option Status
  cancelled : Bool
  deriving DecidableEq, Repr

/-- A VERSION_OP of this module that awaits its VERSION_RSP (R334, R338), by TAG. -/
structure VopWait where
  op : Nat
  fregion : Nat
  device : Nat
  /-- The channel whose command waits, or 65,536 for none. -/
  ch : Nat
  /-- The context concerned, or 65,536. -/
  ctx : Nat
  arg : Nat
  deriving DecidableEq, Repr

/-- A unit that this module sends to its new home (R342), and what has come of one that it receives. -/
structure UnitMove where
  fregion : Nat
  unit : Nat
  /-- Sending: the device that gets the records; receiving: the source. -/
  peer : Nat
  sending : Bool
  /-- TAG of the REHOME_SEND to answer, and records whose WR_ACK has not arrived. -/
  token : Nat
  registrar : Nat
  left : Nat
  /-- Receiving: the local unit reserved, and the parts of the record being joined. -/
  localUnit : Nat
  parts : List Byte
  deriving DecidableEq, Repr

/-- A stripe map that is being fetched (R330, R334, R339): for JOIN_MEMBER (0), JOIN_ACCESSOR (1) or TAKE_REGISTRAR (2). -/
structure JoinWait where
  purpose : Nat
  partition : Nat
  localRegion : Nat
  registrar : Nat
  /-- The channel whose command waits. -/
  ch : Nat
  entries : Tbl StripeEntry
  /-- The answer, once it has come: STRIPE_GEN, UNITS, LOG2_STRIPE, ROTATION, head. -/
  answer : Option (Nat × Nat × Nat × Nat × Nat)
  deriving DecidableEq, Repr

/-- A TAKE_REGISTRAR whose members are being queried (R339). -/
structure TakeWait where
  ch : Nat
  awaited : List Nat
  /-- Members that have answered; the newest STRIPE_GEN reported and by whom; the highest head and version number. -/
  members : List Nat
  gen : Nat
  source : Nat
  head : Nat
  top : Nat
  deriving DecidableEq, Repr

/-- The fabric-wide memory space of this module. -/
structure FabMem where
  regions : Tbl FabRegion
  /-- Exports: region, PEER, PEER_PART, ACCESS (R328, R330). -/
  grants : List (Nat × Nat × Nat × Nat)
  requests : List RemoteReq
  nextTag : Nat
  trees : Tbl Tree
  /-- Table store slots that hold tables of other modules (R336): slot to the device, FREGION_ID and GEN, and the image. -/
  foreignTables : Tbl ((Nat × Nat × Nat) × Mem)
  rehomes : List Rehome
  unitMoves : List UnitMove
  vops : Tbl VopWait
  joins : Tbl JoinWait
  takes : Tbl TakeWait
  /-- Flows whose messages have been refused (R305): the core, the sending device, and the FLOW_KEY. -/
  refused : List (Nat × Nat × Nat)
  deriving DecidableEq, Repr

/-- A line request in the queues of a channel (R390 to R392): its bank, row and column, the order of its arrival, and whether it is promoted by
age or at urgency U3. -/
structure T0Req where
  write : Bool
  bank : Nat
  row : Nat
  col : Nat
  seq : Nat
  urgent : Bool
  deriving DecidableEq, Repr

/-- A bank (R389, R390, R392): its open row, whose metadata line is in the bank's metadata buffer, whether the buffer has changed since it was
filled, the bank queue of up to 4 requests, the hits that have passed the waiting miss, and whether the bank is in in-order mode. -/
structure T0Bank where
  row : Option Nat
  changed : Bool
  queue : List T0Req
  passed : Nat
  inOrder : Bool
  deriving DecidableEq, Repr

/-- A GDDR7 channel (R390, R391): its read and write queues of 64 entries each, its banks, whether a drain of writes runs, and the number of
requests that have arrived. -/
structure T0Chan where
  reads : List T0Req
  writes : List T0Req
  banks : Tbl T0Bank
  drain : Bool
  arrivals : Nat
  deriving DecidableEq, Repr

/-- The state of the T0 channels and rows that the model keeps (R380 to R403). -/
structure Tier0 where
  layout : Nat
  /-- Channels in service after bring-up, and those taken offline since. -/
  channels : List Nat
  offline : List Nat
  /-- Owed refreshes by channel × 64 + bank (R393). -/
  owed : Tbl Nat
  /-- The channels' queues and banks, by channel (R389 to R392). -/
  chans : Tbl T0Chan
  /-- A T0 sweep is in progress (R388). -/
  sweeping : Bool
  /-- Sectors, from T0 address 0, whose metadata is valid while the sweep goes on (R388, R395). -/
  kept : Nat
  corrections : Tbl Nat
  discardLogged : List Nat
  deriving DecidableEq, Repr

inductive T1State where
  | absent | training | inService | refused | retraining | lost
  deriving DecidableEq, Repr

/-- One T1 port (R407 to R412). -/
structure T1Port where
  present : Bool
  state : T1State
  capacity : Nat
  holdsMap : Bool
  mapShare : Nat
  /-- Its loss left map pages in one copy (R412). -/
  mapSingle : Bool
  poisonPass : Bool
  deriving DecidableEq, Repr

/-- What the committed journal and the restored settings hold: partitions, durable regions with the versions whose CHECKPOINT_DURABLE has
been raised, their records in the form in which they are restored, the extents kept, the serial counter, FAILED_REPLACE and the
field-test policy (R216, R423, R514, R515). -/
structure Saved where
  parts : Tbl Part
  lds : Tbl LdBind
  regions : Tbl Region
  recs : Tbl PaneRec
  extents : Tbl Extent
  serial : Nat
  failed : Bool
  /-- The wear governor's level as journalled, as `Tier2.wearSpent` (R423, R425). -/
  wearSpent : Nat
  /-- ENABLE, ROUND_HOURS, DEFER_MINUTES, DRAIN_PERIOD_S, KERNEL_MASK. -/
  policy : Bool × Nat × Nat × Nat × Nat
  deriving DecidableEq, Repr

/-- An image in the T2 write buffer: its record, its place and the master that its program is charged to (R349, R418). -/
structure Buffered where
  record : Nat
  place : Place
  master : Nat
  deriving DecidableEq, Repr

/-- The flash array (R414 to R429). -/
structure Tier2 where
  inService : Bool
  lostChannels : List Nat
  lostDies : List Nat
  /-- Spare blocks used, by die. -/
  retired : Tbl Nat
  /-- LOCAL_TIME of the block failures of a die within the last hour (R422). -/
  failTimes : Tbl (List Nat) := []
  readOnly : Bool
  /-- Generations of DURABLE regions whose table images are journalled, by region and number (R169). -/
  tableJournal : List (Nat × Nat)
  /-- Images in the write buffer that are not yet programmed, the oldest first. -/
  writeBuf : List Buffered
  /-- Reads that reached step 2 of R419 since the last record, by channel, and the second of that record under 1,000 + channel. -/
  retries : Tbl Nat
  /-- State of the wear governor: 0 OPEN, 1 THROTTLED, 2 EXHAUSTED (R426). -/
  wearState : Nat
  /-- Tokens missing from the wear governor's bucket, in ten-thousandths of a byte; a factory-full bucket misses none (R425). -/
  wearSpent : Nat
  /-- The journal: entries not yet committed, and what the committed ones stand for. -/
  journalPending : Nat
  saved : Saved
  /-- Serials of the live-serial table, and serials whose key has been destroyed (R429). -/
  keys : List Nat
  destroyed : List Nat
  deriving DecidableEq, Repr

/-- A firmware slot of the boot store (R585 to R589). -/
structure FwSlot where
  version : Nat
  security : Nat
  valid : Bool
  rotChange : Bool
  failedBoots : Nat
  digest : Nat
  deriving DecidableEq, Repr

/-- An SPDM session (R605, R606). -/
structure Session where
  id : Nat
  requester : Owner
  authenticated : Bool
  deriving DecidableEq, Repr

inductive Readiness where
  | booting | ready | draining | failedReplace
  deriving DecidableEq, Repr

/-- A signed object that FW_UPDATE writes to the boot store: its TYPE, and what the module keeps of it (R581, R587). -/
structure FwWrite where
  kind : Nat
  version : Nat
  security : Nat
  rotChange : Bool
  digest : Nat
  payload : List Byte
  deriving DecidableEq, Repr

/-- The boot store and bring-up (R579 to R610). -/
structure Boot where
  slots : List FwSlot
  active : Nat
  booted : Option Nat
  /-- Writes by FW_UPDATE in progress, by context slot. -/
  writing : Tbl FwWrite
  recovery : Bool
  /-- A known-answer kernel set is stored; the number of its contents; the kernels of it that verified (R496). -/
  katStored : Bool
  katDigest : Nat
  /-- Digest of a kernel set that replaces the stored one at the next bring-up or FW_ACTIVATE (R587). -/
  katNext : Option Nat
  kernelSet : Nat
  /-- The owner configuration stored, and the one that has taken effect (R587, R603): its 16 bytes. -/
  ownerConfig : Option (List Byte)
  configInForce : Option (List Byte)
  managers : List Owner
  lastSequence : Nat
  /-- Fuse bits [1023:960] as they stood when the journal was formatted (R586). -/
  epoch : Nat
  /-- The copy of the DeviceID certificate is present (R600). -/
  hasCert : Bool
  /-- Which boot key and which storage secret are in use, numbered in the order of their making; the boot key has not been destroyed. -/
  bootKeyEpoch : Nat
  storageEpoch : Nat
  bootKeyPresent : Bool
  /-- The life-cycle state derived at the last cold reset (R598), and the debug mask in force (R601). -/
  lifecycle : Nat
  debugMask : Nat
  readiness : Readiness
  step : Nat
  progress : Nat
  journalDone : Bool
  sweepDone : Bool
  /-- LOCAL_TIME of the watchdog resets of the last hour (R595). -/
  watchdogResets : List Nat
  /-- A life-cycle change past step 3 of R600 that awaits its cold reset: the target. -/
  lifecyclePending : Option Nat
  sessions : List Session
  /-- Sessions opened so far, from which session numbers are made. -/
  keysMade : Nat
  /-- B-die bridges that run at half bandwidth (R19). -/
  halfBridges : Nat
  deriving DecidableEq, Repr

end Sys2Proof.Machine
end

