-- ==== Sys2Proof/Config.lean ====
section
/-! DEFINITION. The free values of the model: what the spec leaves open and what it takes from named standards whose
algorithms it does not give. Every one is an opaque constant, so no proof can rest on what it is. -/
namespace Sys2Proof.Config

/-- What a command reads in an argument byte past ARG_LEN (R57), for its distance from ARG_LEN and the byte of the slot there. -/
opaque unusedArg : Nat → Byte → Byte

/-- A choice that the spec leaves to the module (which free slot, frame or number), applied to a counter of the state. -/
opaque pick : Nat → Nat

/-- A result field whose layout or value the spec does not state, applied to a counter of the state. -/
opaque freeNat : Nat → Nat

/-- Result bytes whose layout the spec does not state. -/
opaque freeBytes : Nat → List Byte

/-- Whether a composite signature (Ed25519 with ML-DSA-65) over the bytes verifies under the key with this digest. -/
opaque verifies : Nat → List Byte → Bool

/-- SHA-384 of the bytes, as a number. -/
opaque sha384 : List Byte → Nat

/-- SHA-384 of the boot ROM of the root of trust (R606). -/
opaque bootRomDigest : Nat

/-- The answer of the root of trust to an SPDM 1.3 request, with the session that it opens, if any. -/
opaque spdmAnswer : Nat → List Byte → List Byte × Option Nat

/-- What a KEY flit of a link's SPDM exchange gives (R309): none while the exchange goes on, then whether both ends have
authenticated each other; and the module's next KEY payload. -/
opaque keyExchange : Nat → List Byte → Option Bool × List Byte

/-- The secret that keys images at rest, as bytes: the boot key of a cold reset (false) or the device storage secret of an epoch (true); both
stay in the root of trust (R194, R428). -/
opaque atRestSecret : Bool → Nat → List Byte

/-- HKDF-SHA-384 of RFC 5869 with no salt: input key material, info and the bytes of output asked for. A standard that the spec names and does
not give. -/
opaque hkdfSha384 : List Byte → List Byte → Nat → List Byte

/-- AES-256-XTS of IEEE 1619: data key, tweak key, tweak and one data unit. A standard that the spec names and does not give. -/
opaque aes256Xts : List Byte → List Byte → List Byte → List Byte → List Byte

/-- The AES-256 key and the salt of a direction of a link (0 sent, 1 received) in a key epoch, from the session secrets (R309). -/
opaque linkKey : Nat → Nat → Nat → BitVec 256
opaque linkSalt : Nat → Nat → Nat → BitVec 32

/-- AES-256-GCM of a flit (R308), a standard that the spec names and does not give: key, IV, additional authenticated data and 232 B of
payload give the 232 B of ciphertext and the 12 B tag as one number. -/
opaque gcmSeal : BitVec 256 → List Byte → List Byte → List Byte → Nat

/-- The inverse: key, IV, additional authenticated data, and 244 B of ciphertext and tag give the payload; none when the tag fails. -/
opaque gcmOpen : BitVec 256 → List Byte → List Byte → List Byte → Option Nat

/-- The DSLBIS entry of the CDAT (R443) as the CXL specification encodes it, for a port's rate and width. -/
opaque cdat : Nat → Nat → List Byte

/-- The Command Effects Log (R441), as the CXL specification encodes it. -/
opaque commandEffects : List Byte

/-- Which of the results within 1 ULP EXP, RECIP or RSQRT gives (R275), for the function, the type of its result and the
operand: modulo 3, 0 is the neighbour below or the exact value, 1 the one above, 2 the one below an exact value. -/
opaque ulpChoice : Nat → Nat → Nat → Nat

/-- Known-answer kernel outputs: the expected result of kernel `k` (R496 to R498). -/
opaque kernelAnswer : Nat → List Byte

/-- Element `j` of what MMA gives for an INT8 and an FP8 operand, whose product the spec does not state: of the operands, the accumulator and the
types, so that the same inputs give the same bits (R258). -/
opaque mixedProduct : List Byte → List Byte → List Nat → Nat → Nat → Nat

/-- What a core computes for a descriptor on operand values whose result the spec does not state. -/
opaque freeResult : Nat → Nat

/-- The voltage of the rail of a unit at a time, in mV (R664): a measurement that no command brings in. -/
opaque railMv : Nat → Nat → Nat

end Sys2Proof.Config
end

