-- ==== Sys2Proof/Machine/State.lean ====
section
/-! DEFINITION. The state of the module: everything that the spec gives it, as plain data, the queue of waiting commands,
and the state right after a cold reset. -/
namespace Sys2Proof.Machine

/-- What the module has sent to the outside, oldest first. -/
inductive Output where
  /-- Assert_INTA or Deassert_INTA of a function (R453). -/
  | intx (ld fn : Nat) (assert : Bool)
  /-- A write to host memory: ring records, stream data, dumps (R457). -/
  | hostWrite (ld address : Nat) (bytes : List Byte)
  /-- A read of host memory (R458). -/
  | hostRead (ld tag address length : Nat)
  /-- CXL.mem data and completion (R448); DevLoad in MLD mode (R436). -/
  | cxlData (ld tag : Nat) (bytes : List Byte) (poison : Bool) (devLoad : Nat)
  | cxlCmp (ld tag devLoad : Nat)
  /-- A configuration write completed, an unsupported request, Request Retry Status (R440, R451). -/
  | cfgDone (ld fn : Nat)
  | unsupported (ld fn : Nat)
  | retryStatus (ld fn : Nat)
  /-- Primary mailbox and FM API answers: return code name and payload (R190, R441). -/
  | mbox (ld : Nat) (code : String) (payload : List Byte)
  | fmApi (who : Owner) (code : String) (payload : List Byte)
  | doe (ld : Nat) (payload : List Byte) (error : Bool)
  | spdm (who : Owner) (payload : List Byte)
  /-- A RESPONSE to a channel access message (R75). -/
  | chnResponse (who : Owner) (ch offset length : Nat) (data : List Byte)
  /-- A LINK_CTL, IDLE or RETRY_REQ flit (R299 to R302). -/
  | flit (port : Nat) (name : String) (payload : List Byte)
  | packet (port : Nat) (p : Packet)
  | ltr (port : Nat) (value : Option Nat)
  | l1Request (port : Nat) (l12 : Bool)
  | errFatal (port : Nat)
  /-- A pin of the module changes (R30, R36, R572). -/
  | pin (name : String) (level : Bool)
  /-- A pin of the connector of one host, downstream or fabric port changes (R24, R27, R408, R649). -/
  | portPin (name : String) (port : Nat) (level : Bool)
  /-- A pin goes to high impedance (R650). -/
  | pinFloat (name : String)
  /-- The data units of an image as the tier path sends them to the medium of T1 or T2 from a sector address on, encrypted (R427). -/
  | media (tier : Tier) (sector : Nat) (units : List (List Byte))
  deriving DecidableEq, Repr

/-- The fuses of the module (R584). They are only ever burnt. -/
structure Fuses where
  serial : Nat
  vendorRootDigest : Nat
  ownerDigest : Nat
  ownerSet : Bool
  lcOperational : Bool
  lcReturn : Bool
  lcEnd : Bool
  /-- Bits burnt in DEBUG_COUNT (32) and in ANTI_ROLLBACK (128). -/
  debugCount : Nat
  antiRollback : Nat
  /-- ZILHAL_VID and the hardware revision, which are fused into every module (R626, R633). -/
  vendorId : Nat
  hwRev : Nat
  deriving DecidableEq, Repr

/-- The module without its fuses and its queue. -/
structure Mod where
  /-- ZPV-8420-N128 rather than N64 (R1). -/
  n128 : Bool
  ftc : Nat
  localTime : Nat
  /-- Phase of the FTC at P3 and P4, in 64ths of a nanosecond (R319). -/
  phase : Nat
  chans : Tbl Chan
  gaffer : Gaffer
  ctxs : Tbl Ctx
  mem : Memory
  svc : Service
  lds : Tbl Ld
  ports : List HostPort
  pow : Power
  cores : Tbl Core
  mvs : Tbl Movement
  streams : Tbl Stream
  reg : Regulator
  test : Test
  fab : Fabric
  fm : FabMem
  t0 : Tier0
  t1 : List T1Port
  t2 : Tier2
  boot : Boot
  /-- Indirect buffers being read (R58). -/
  bufs : List DmaBuf
  out : List Output
  /-- The model's own counter of free choices and free values made so far. -/
  freeIx : Nat
  deriving DecidableEq, Repr

/-- The whole state. -/
structure State where
  mach : Mod
  fuses : Fuses
  pending : List Instr
  deriving DecidableEq, Repr

/-- Why the machine stops. Every behaviour of the block that the spec describes goes on, so no meaning raises a fault; the
type has one constructor so that it is inhabited. -/
inductive Fault where
  /-- Raised by no command. Safe: it only stops. -/
  | unused
  deriving DecidableEq, Repr

/-- Why a command has no meaning. -/
inductive Refusal where
  /-- Raised by an arm of `exec` whose command has not been given its meaning. Safe: the model stops where the hardware
  goes on. -/
  | notModelled (mnemonic : String)
  deriving DecidableEq, Repr

/-- The answer of a meaning. -/
abbrev Out := Host.Outcome State Fault Refusal

/-- Apply a change of the module. -/
def State.onMod (s : State) (f : Fuses → Mod → Mod) : State := { s with mach := f s.fuses s.mach }

/-- Life-cycle state that the fuses give (R598). -/
def Fuses.lifecycle (f : Fuses) : Nat :=
  if f.lcEnd then 5 else if f.lcReturn then 4 else if !f.ownerSet then 0 else if !f.lcOperational then 1
  else if f.debugCount % 2 = 1 then 3 else 2

/-! ### The state after a cold reset -/

/-- A function right after reset: configuration space at zero, but Device Control at 0x2810, the reset value of PCI Express
(PRESUMED: log 5; the PCI Express capability stands at 0x48). -/
def Function.init : Function :=
  { cfg := [(0x50, 0x10), (0x51, 0x28)], reset := 0, intxStatus := 0, intxEnable := 0, asserted := false, urSecond := none }

def HdmDecoder.init : HdmDecoder :=
  { base := 0, size := 0, waysLog2 := 0, granLog2 := 8, skip := 0, dpaBase := 0, committed := false,
    errNotCommitted := false, lockOnCommit := false }

def Ld.init : Ld :=
  { f0 := Function.init, f1 := Function.init, chnPend := [], memoryActive := false,
    decoders := List.replicate 4 HdmDecoder.init, eventLogs := List.replicate 5 [], eventOverflow := List.replicate 5 0,
    adds := [], timestamp := 0, timestampSet := 0, reads := [], nextTag := 0, retiredTags := [], heldDma := [],
    outsideSecond := none, regs := [] }

def HostPort.init : HostPort :=
  { mode := .down, width := 0, rate := 0, perst := true, ideSecure := false, ideInsecure := false, inL1 := false,
    inL12 := false, latencyTarget := 1000, ltr := none }

def FabPort.init : FabPort :=
  { state := .disabled, enabled := false, encryptRequired := false, speedCap := 0, mode := 0, lanes := 0, encrypted := false,
    miswired := false, duplicateId := false, goodbye := false, peerId := 0xFFFF, peerPort := 0, peerSerial := 0,
    peerEncrypt := false, delayPs := 0, retries := 0, seqNext := 0, ackLast := 0, expected := 0, retryPending := false,
    replay := [], ctl := [], retrain := none, rehello := false, gotRetry := (0, 0), sentRetry := 0, sinceAck := 0, credits := List.replicate 8 0, owed := List.replicate 8 0, egress := [], arrived := [], partials := [],
    txKey := .none, rxKey := .none, rxOld := none, corrected := 0, uncorrectable := 0, losses := [], lost := 0, timestampSent := none, cause := 0,
    dropSecond := none }

def Fabric.init : Fabric :=
  { ports := List.replicate 16 FabPort.init, deviceId := 0xFFFF, hashSalt := 0, ttl := 0, routes := [], shadow := [],
    routeGen := 0, shadowDirty := false, lastWave := 0, correction := 0, stepped := false, synced := false, absorb := 0,
    syncWait := none, flows := [], counters := [], noRouteSecond := [], unreachable := [] }

def FabMem.init : FabMem :=
  { regions := [], grants := [], requests := [], nextTag := 0, trees := [], foreignTables := [], rehomes := [], unitMoves := [], vops := [], joins := [], takes := [],
    refused := [] }

def T1Port.init : T1Port :=
  { present := false, state := .absent, capacity := 0, holdsMap := false, mapShare := 0, mapSingle := false, poisonPass := false }

def Tier0.init : Tier0 :=
  { layout := 0x11, channels := [], offline := [], owed := [], chans := [], sweeping := true, kept := 0,
    corrections := [], discardLogged := [] }

def Saved.init : Saved :=
  { parts := [], lds := [], regions := [], recs := [], extents := [], serial := 0, failed := false, wearSpent := 0, policy := (true, 24, 240, 600, 2 ^ 48 - 1) }

def Tier2.init : Tier2 :=
  { inService := false, lostChannels := [], lostDies := [], retired := [], readOnly := false, tableJournal := [], writeBuf := [],
    retries := [], wearState := 0, wearSpent := 0, journalPending := 0, saved := Saved.init, keys := [], destroyed := [] }

def FwSlot.init : FwSlot :=
  { version := 0, security := 0, valid := false, rotChange := false, failedBoots := 0, digest := 0 }

def Boot.init : Boot :=
  { slots := [{ FwSlot.init with valid := true }, FwSlot.init], active := 0, booted := none, writing := [], recovery := false,
    katStored := true, katDigest := 0, katNext := none, kernelSet := 0, ownerConfig := none, configInForce := none, managers := [], lastSequence := 0, epoch := 0,
    hasCert := true, bootKeyEpoch := 0, storageEpoch := 0, bootKeyPresent := true, lifecycle := 0, debugMask := 0, readiness := .booting,
    step := 2, progress := 0, journalDone := false, sweepDone := false, watchdogResets := [], lifecyclePending := none, sessions := [],
    keysMade := 0, halfBridges := 0 }

def Memory.init : Memory :=
  { parts := [], lds := [], extents := [], regions := [], recs := [], nextRec := 0, serial := 0, promoSeq := 0,
    parkAge := 0, heldWrites := [], heldReads := [], cows := [], tableSlots := [], tableWaiters := [],
    lineHits := [0, 0, 0, 0], mapCarve := [], mapInT0 := false }

def ErrLog.init : ErrLog :=
  { recs := [], nextSeq := 1, lost := [0, 0, 0, 0, 0], journalled := [], lowRaised := [],
    poisonReadSecond := [] }

def Trace.init : Trace :=
  { carveMiB := 0, carve := [], dumpMiB := 0, mode := 0, pre16 := 0, triggerMask := 0, freezeOnTrigger := false, classMask := 0,
    partition := 0xFF, kindMask := 0, postEvents := 0, state := .idle, events := [], dropped := 0, postLeft := 0,
    stepped := false, buffered := [], dropsNow := 0, firstDrop := 0, triggerNo := 0, lastTrigger := [], sources := 0 }

def Hang.init : Hang :=
  { classMask := 0, dumpOnHang := false, crucibles := false, hangMs := 1000, rings := [], dumps := [], nextDump := 1,
    captures := [] }

def Service.init : Service :=
  { err := ErrLog.init, ctr := { tbl := [], moduleFrozen := false, freezeFtc := 0 }, trace := Trace.init,
    hang := Hang.init, scrub := none, scrubQueue := [], heals := [] }

def Power.init : Power :=
  { phase := .on, pwrPrsnt := true, pwrEn := true, modReset := false, pwrEnPin := true, modResetPin := false, slotId := 0, inputFault := false,
    modPwrgd := true, leakPin := false, alertPin := false, thermtripPin := false, sbVrefLow := false,
    cableFault := [false, false, false, false], hmPrsnt := [false, false, false, false], dsPrsnt := List.replicate 8 false,
    fPrsnt := List.replicate 16 false, dPerstOut := List.replicate 8 false, dRefclkOut := List.replicate 8 false,
    vcblOut := List.replicate 16 false, presenceLatched := false, leakClass := 0, leakCand := 0, leakHeld := 0, leakFlag := false,
    sensorFlag := false, leakPending := [], inputLow := false, inputHighHour := none, hostLimit := 1150, noBurst := false,
    coolantLimit := 1150, coolantCause := 0, coolantHeld := 0, inletT := 0, outletT := 0, flow := 0, p100 := 0, p20ms := 0, p2s := 0,
    burstUs := 20000, thermalUs := 2000000, cSteps := 0, bSteps := 0, belowUs := 0, overFloorUs := 0, capFail := false,
    thermalActive := false, throttleMinute := none, energyUJ := 0, bTemps := [0, 0, 0, 0], cTemps := List.replicate 8 0,
    gddrTemps := [], nandTemps := [], sticky := none, rung := 0, resting := 2, kept := 0, idleUs := 1000, nowCtx := none,
    preparing := false, entries := [0, 0, 0, 0], lastExitNs := 0, lastWake := 0 }

def Regulator.init : Regulator :=
  { masters := [], pendingMasters := [], scale := [], windowNs := 4000, ageLimitNs := 20000,
    pendingWindow := none }

def Test.init : Test :=
  { kernelMask := 2 ^ 48 - 1, enabled := true, roundHours := 24, deferMinutes := 240, drainPeriodS := 600,
    cores := [], units := [], running := [], diagnoses := [], testRuns := [],
    privileged := [], endDrain := false, totals := List.replicate 10 0, discardSecond := [] }

/-- The module right after a cold reset. -/
def Mod.init : Mod :=
  { n128 := false, ftc := 0, localTime := 0, phase := 0, chans := [],
    gaffer := { fault0 := false, fault1 := false, order := [], wakeLatched := false },
    ctxs := [], mem := Memory.init, svc := Service.init, lds := [], ports := List.replicate 4 HostPort.init,
    pow := Power.init, cores := [], mvs := [], streams := [], reg := Regulator.init, test := Test.init,
    fab := Fabric.init, fm := FabMem.init, t0 := Tier0.init, t1 := List.replicate 8 T1Port.init, t2 := Tier2.init,
    boot := Boot.init, bufs := [], out := [], freeIx := 0 }

/-- The fuses of a module as it leaves the factory with nothing burnt but what every module carries. -/
def Fuses.init : Fuses :=
  { serial := 0, vendorRootDigest := 0, ownerDigest := 0, ownerSet := false, lcOperational := false, lcReturn := false,
    lcEnd := false, debugCount := 0, antiRollback := 0, vendorId := 0, hwRev := 0 }

/-- The machine right after reset. -/
def State.reset : State := { mach := Mod.init, fuses := Fuses.init, pending := [] }

end Sys2Proof.Machine
end

