-- ==== Sys2Proof/Machine/Tbl.lean ====
section
/-! DEFINITION. The operations over sparse tables and sparse byte stores: look up, write, remove, and the
little-endian reads and writes of several bytes (00_scope R4). -/
namespace Sys2Proof

/-- The value under key `k`, if there is one. -/
def Tbl.find {α : Type} : Tbl α → Nat → Option α
  | [], _ => none
  | (k', v) :: t, k => if k = k' then some v else if k < k' then none else Tbl.find t k

/-- The table with `v` under key `k`; keys stay strictly rising. -/
def Tbl.put {α : Type} : Tbl α → Nat → α → Tbl α
  | [], k, v => [(k, v)]
  | (k', v') :: t, k, v =>
    if k = k' then (k, v) :: t else if k < k' then (k, v) :: (k', v') :: t else (k', v') :: Tbl.put t k v

/-- The table without key `k`. -/
def Tbl.del {α : Type} : Tbl α → Nat → Tbl α
  | [], _ => []
  | (k', v') :: t, k => if k = k' then t else if k < k' then (k', v') :: t else (k', v') :: Tbl.del t k

/-- The value under key `k`, or `d`. -/
def Tbl.findD {α : Type} (t : Tbl α) (k : Nat) (d : α) : α := (Tbl.find t k).getD d

/-- Change the value under `k` where there is one. -/
def Tbl.upd {α : Type} (t : Tbl α) (k : Nat) (f : α → α) : Tbl α :=
  match Tbl.find t k with
  | some v => Tbl.put t k (f v)
  | none => t

/-- Change the value under `k`, taking `d` where there is none. -/
def Tbl.updD {α : Type} (t : Tbl α) (k : Nat) (d : α) (f : α → α) : Tbl α :=
  Tbl.put t k (f (Tbl.findD t k d))

/-- Whether key `k` is present. -/
def Tbl.has {α : Type} (t : Tbl α) (k : Nat) : Bool := (Tbl.find t k).isSome

/-- Change every value. -/
def Tbl.mapV {α β : Type} (t : Tbl α) (f : Nat → α → β) : Tbl β := t.map (fun p => (p.1, f p.1 p.2))

/-- The keys, rising. -/
def Tbl.keys {α : Type} (t : Tbl α) : List Nat := t.map (fun p => p.1)

/-- The smallest number below `n` that is no key of the table. -/
def Tbl.lowestFree {α : Type} (t : Tbl α) (n : Nat) : Option Nat :=
  go t 0
where
  go : Tbl α → Nat → Option Nat
    | [], k => if k < n then some k else none
    | (k', _) :: t, k => if k < k' then (if k < n then some k else none) else go t (k' + 1)

/-- Keys strictly rising from above `lo`. -/
def Tbl.sortedFrom {α : Type} : Tbl α → Nat → Bool
  | [], _ => true
  | (k, _) :: t, lo => decide (lo ≤ k) && Tbl.sortedFrom t (k + 1)

/-- The canonical form of a table. -/
def Tbl.wf {α : Type} (t : Tbl α) : Bool := Tbl.sortedFrom t 0

/-- The byte at address `a`; an unlisted address reads as zero. -/
def Mem.rd (m : Mem) (a : Nat) : Byte := Tbl.findD m a 0

/-- Write one byte, keeping the canonical form: a zero byte is not listed. -/
def Mem.wr (m : Mem) (a : Nat) (b : Byte) : Mem := if b = 0 then Tbl.del m a else Tbl.put m a b

/-- `n` bytes from address `a` upwards. -/
def Mem.rdBytes (m : Mem) (a : Nat) : Nat → List Byte
  | 0 => []
  | n + 1 => Mem.rd m a :: Mem.rdBytes m (a + 1) n

/-- Write a list of bytes from address `a` upwards. -/
def Mem.wrBytes (m : Mem) (a : Nat) : List Byte → Mem
  | [] => m
  | b :: bs => Mem.wrBytes (Mem.wr m a b) (a + 1) bs

/-- The little-endian number in a list of bytes (R4). -/
def leNat : List Byte → Nat
  | [] => 0
  | b :: bs => b.toNat + 256 * leNat bs

/-- The `n` little-endian bytes of a number (R4). -/
def leBytes : Nat → Nat → List Byte
  | 0, _ => []
  | n + 1, v => BitVec.ofNat 8 v :: leBytes n (v / 256)

/-- The little-endian number of `n` bytes at address `a`. -/
def Mem.rdLE (m : Mem) (a n : Nat) : Nat := leNat (Mem.rdBytes m a n)

/-- Write the low `n` bytes of `v` at address `a`, little-endian. -/
def Mem.wrLE (m : Mem) (a n v : Nat) : Mem := Mem.wrBytes m a (leBytes n v)

/-- Every byte from `a` for `n` bytes becomes zero. -/
def Mem.clear (m : Mem) (a n : Nat) : Mem := m.filter (fun c => decide (c.1 < a) || decide (a + n ≤ c.1))

/-- The bytes from `a` for `n` bytes, moved to start at 0. -/
def Mem.slice (m : Mem) (a n : Nat) : Mem :=
  (m.filter (fun c => decide (a ≤ c.1) && decide (c.1 < a + n))).map (fun c => (c.1 - a, c.2))

/-- Replace the `n` bytes from `a` with the bytes of `x` from 0. -/
def Mem.splice (m : Mem) (a n : Nat) (x : Mem) : Mem :=
  m.filter (fun c => decide (c.1 < a)) ++ (Mem.slice x 0 n).map (fun c => (c.1 + a, c.2)) ++
    m.filter (fun c => decide (a + n ≤ c.1))

/-- The canonical form of a byte store: addresses strictly rising and no zero byte listed. -/
def Mem.wf (m : Mem) : Bool := Tbl.wf m && m.all (fun c => c.2 != 0)

/-- The store whose first bytes are the list. -/
def Mem.ofBytes (bs : List Byte) : Mem := Mem.wrBytes [] 0 bs

/-- Bits `[lo + w - 1 : lo]` of a number. -/
def bits (v lo w : Nat) : Nat := v / 2 ^ lo % 2 ^ w

/-- Bit `i` of a number. -/
def bit (v i : Nat) : Bool := v / 2 ^ i % 2 = 1

/-- 1 for true. -/
def b2n (b : Bool) : Nat := if b then 1 else 0

/-- The number whose bit `i` is the list's entry `i`. -/
def packBits : List Bool → Nat
  | [] => 0
  | b :: bs => b2n b + 2 * packBits bs

/-- `v` without the bits that are set in `w`, over `n` bits (a W1C write). -/
def clearBits : Nat → Nat → Nat → Nat
  | 0, _, _ => 0
  | n + 1, v, w => (if w % 2 = 1 then 0 else v % 2) + 2 * clearBits n (v / 2) (w / 2)

/-- `v` with bit `i` set. -/
def setBit (v i : Nat) : Nat := if bit v i then v else v + 2 ^ i

/-- `v` with bit `i` clear. -/
def clrBit (v i : Nat) : Nat := if bit v i then v - 2 ^ i else v

/-- The number's bits that are set, below `n`. -/
def onesOf (v n : Nat) : List Nat := (List.range n).filter (bit v)

/-- How many of the low `n` bits are set. -/
def popCount (v n : Nat) : Nat := (onesOf v n).length

/-- Saturating increment at `max`. -/
def satInc (max v : Nat) : Nat := if v < max then v + 1 else max

/-- Division rounded up (by a positive number). -/
def ceilDiv (a b : Nat) : Nat := (a + b - 1) / b

/-- A signed number as `w` bits of two's complement. -/
def toTwos (w : Nat) (v : Int) : Nat := (v % (2 ^ w : Int)).toNat

/-- `w` bits of two's complement read as a signed number. -/
def ofTwos (w v : Nat) : Int := if v % 2 ^ w < 2 ^ (w - 1) then (v % 2 ^ w : Nat) else (v % 2 ^ w : Nat) - (2 ^ w : Int)

/-- Number of bits needed for `v`: 0 for 0, else 1 + floor(log2 v). -/
def bitLen (v : Nat) : Nat := if v = 0 then 0 else Nat.log2 v + 1

/-- Largest of a list, `d` for the empty one. -/
def maxOf (d : Int) (l : List Int) : Int := l.foldl max d

/-- Sum of a list. -/
def sumOf (l : List Nat) : Nat := l.foldl (· + ·) 0

end Sys2Proof
end

