-- ==== Sys2Proof/Machine/Ops.lean ====
section
/-! DEFINITION. The named operations that every family shares: time, free choices, outputs, interrupts, completion rings,
events, error records, trace events, counters and triggers. -/
namespace Sys2Proof

/-- OWNER_KIND and OWNER_ID of an identity (R48, R49). -/
def Owner.kind : Owner → Nat
  | .ld _ => 1 | .peer _ _ => 2 | .neighbour _ => 2 | .mctp _ _ => 3

def Owner.ident : Owner → Nat
  | .ld id => id.toNat
  | .peer d p => p.toNat * 2 ^ 14 + d.toNat
  | .neighbour p => 2 ^ 31 + p.toNat
  | .mctp md e => md.toNat * 256 + e.toNat

/-- The LD of a bound channel, when its owner is one. -/
def Owner.ldNo : Owner → Option Nat
  | .ld id => some id.toNat
  | _ => none

end Sys2Proof

namespace Sys2Proof.Machine

/-! ### Pure views -/

/-- Code of a status (R82). -/
def Status.code : Status → Nat
  | .ok => 0x00 | .pending => 0x01 | .accepted => 0x02 | .badOpcode => 0x10 | .badArgument => 0x11
  | .notPermitted => 0x12 | .noResource => 0x13 | .notReady => 0x14 | .conflict => 0x15 | .busy => 0x16
  | .poisoned => 0x17 | .timeout => 0x18 | .aborted => 0x19 | .fenced => 0x1A | .capacity => 0x1B

def Sev.code : Sev → Nat
  | .info => 0 | .corrected => 1 | .contained => 2 | .unit => 3 | .module => 4

def Opn.code : Opn → Nat
  | .none => 0 | .hostRead => 1 | .hostWrite => 2 | .tileFetch _ => 3 | .tileStore _ => 4 | .promotion => 5
  | .eviction => 6 | .encode => 7 | .scrub => 8 | .heal => 9 | .remote => 10 | .command _ => 11 | .training => 12
  | .background => 13 | .test => 14

/-- OPCODE of an error record (R484). -/
def Opn.opcode : Opn → Nat
  | .tileFetch d => d | .tileStore d => d | .command d => d
  | .none | .hostRead | .hostWrite | .promotion | .eviction | .encode | .scrub | .heal | .remote | .training | .background | .test => 0

def ASpace.code : ASpace → Nat
  | .none => 0 | .dpa => 1 | .regionPane => 2 | .t0 => 3 | .t1 => 4 | .t2 => 5 | .fabric => 6 | .hostPhys => 7
  | .extent => 8

/-- A context ID: generation and slot (R85). -/
def ctxId (slot : Nat) (c : Ctx) : Nat := c.gen.toNat * 65536 + slot

/-- The state of an LD; an LD with no entry holds its reset state. -/
def Mod.ld (m : Mod) (l : Nat) : Ld := Tbl.findD m.lds l Ld.init

def Mod.setLd (m : Mod) (l : Nat) (f : Ld → Ld) : Mod := { m with lds := Tbl.updD m.lds l Ld.init f }

def Mod.port (m : Mod) (h : Nat) : HostPort := m.ports.getD h HostPort.init

def Mod.setPort (m : Mod) (h : Nat) (f : HostPort → HostPort) : Mod := { m with ports := m.ports.modify h f }

def Mod.fport (m : Mod) (p : Nat) : FabPort := m.fab.ports.getD p FabPort.init

def Mod.setFport (m : Mod) (p : Nat) (f : FabPort → FabPort) : Mod :=
  { m with fab := { m.fab with ports := m.fab.ports.modify p f } }

def Mod.setChan (m : Mod) (ch : Nat) (f : Chan → Chan) : Mod := { m with chans := Tbl.upd m.chans ch f }

def Mod.setCtx (m : Mod) (slot : Nat) (f : Ctx → Ctx) : Mod := { m with ctxs := Tbl.upd m.ctxs slot f }

def Mod.setMem (m : Mod) (f : Memory → Memory) : Mod := { m with mem := f m.mem }

def Mod.setRegion (m : Mod) (r : Nat) (f : Region → Region) : Mod :=
  { m with mem := { m.mem with regions := Tbl.upd m.mem.regions r f } }

def Mod.setRec (m : Mod) (r : Nat) (f : PaneRec → PaneRec) : Mod :=
  { m with mem := { m.mem with recs := Tbl.upd m.mem.recs r f } }

def Mod.setPart (m : Mod) (p : Nat) (f : Part → Part) : Mod :=
  { m with mem := { m.mem with parts := Tbl.upd m.mem.parts p f } }

def Mod.setExtent (m : Mod) (e : Nat) (f : Extent → Extent) : Mod :=
  { m with mem := { m.mem with extents := Tbl.upd m.mem.extents e f } }

def Mod.setMv (m : Mod) (v : Nat) (f : Movement → Movement) : Mod := { m with mvs := Tbl.upd m.mvs v f }

def Mod.setStream (m : Mod) (v : Nat) (f : Stream → Stream) : Mod := { m with streams := Tbl.upd m.streams v f }

def Mod.setPow (m : Mod) (f : Power → Power) : Mod := { m with pow := f m.pow }

def Mod.setSvc (m : Mod) (f : Service → Service) : Mod := { m with svc := f m.svc }

def Mod.setTrace (m : Mod) (f : Trace → Trace) : Mod := { m with svc := { m.svc with trace := f m.svc.trace } }

def Mod.setHang (m : Mod) (f : Hang → Hang) : Mod := { m with svc := { m.svc with hang := f m.svc.hang } }

def Mod.setErr (m : Mod) (f : ErrLog → ErrLog) : Mod := { m with svc := { m.svc with err := f m.svc.err } }

def Mod.setFab (m : Mod) (f : Fabric → Fabric) : Mod := { m with fab := f m.fab }

def Mod.setFm (m : Mod) (f : FabMem → FabMem) : Mod := { m with fm := f m.fm }

def Mod.setTest (m : Mod) (f : Test → Test) : Mod := { m with test := f m.test }

def Mod.setBoot (m : Mod) (f : Boot → Boot) : Mod := { m with boot := f m.boot }

/-- The second of LOCAL_TIME, for records that are logged at most once per second. -/
def Mod.second (m : Mod) : Nat := m.localTime / 1000000000

/-- Fold a change over a list. -/
def Mod.each {α : Type} (m : Mod) (l : List α) (f : Mod → α → Mod) : Mod := l.foldl f m

/-- Apply a change when a condition holds. -/
def Mod.onlyIf (m : Mod) (c : Bool) (f : Mod → Mod) : Mod := if c then f m else m

/-! ### The oscillator and the wear bucket (R320, R425) -/

/-- Nanoseconds by which an advance of the oscillator by one changes the FTC while a negative correction is absorbed: the
FTC runs at half rate (R320). -/
def Fabric.ftcStep (f : Fabric) (localTime : Nat) : Nat := if 0 < f.absorb ∧ localTime % 2 = 1 then 0 else 1

/-- Tokens of the wear bucket per nanosecond, in ten-thousandths of a byte: 243.4 or 486.7 MB/s (R425). -/
def Mod.wearRefill (m : Mod) : Nat := if m.n128 then 4867 else 2434

/-- The wear bucket refills for some nanoseconds, up to full, at every rung (R425). -/
def Mod.refillWear (m : Mod) (ns : Nat) : Mod := { m with t2 := { m.t2 with wearSpent := m.t2.wearSpent - m.wearRefill * ns } }

/-! ### Free choices -/

/-- A free choice below `n` (0 when `n` is 0), advancing the model's counter of free choices. -/
def Mod.choose (m : Mod) (n : Nat) : Nat × Mod :=
  (if n = 0 then 0 else Config.pick m.freeIx % n, { m with freeIx := m.freeIx + 1 })

/-- The first number from `start` upwards, cyclically below `n`, that passes the test. -/
def probe (n : Nat) (ok : Nat → Bool) (start : Nat) : Nat → Option Nat
  | 0 => none
  | k + 1 => if ok (start % n) then some (start % n) else probe n ok (start + 1) k

/-- A free choice among the numbers below `n` that pass the test. -/
def Mod.chooseFrom (m : Mod) (n : Nat) (ok : Nat → Bool) : Option Nat × Mod :=
  let c := m.choose n
  (probe n ok c.1 n, c.2)

/-- A free value, advancing the counter. -/
def Mod.freeVal (m : Mod) : Nat × Mod := (Config.freeNat m.freeIx, { m with freeIx := m.freeIx + 1 })

/-! ### Outputs, DMA and interrupts -/

def Mod.send (m : Mod) (o : Output) : Mod := { m with out := m.out ++ [o] }

/-- Bit 2 (Bus Master Enable) and bit 10 (Interrupt Disable) of the Command register of a function. -/
def Function.busMaster (f : Function) : Bool := bit (Mem.rdLE f.cfg 4 2) 2
def Function.intDisable (f : Function) : Bool := bit (Mem.rdLE f.cfg 4 2) 10

/-- The module drives CLKREQ# of a host port low again as its link leaves L1.2, the only state in which it releases it (R649). -/
def Mod.takeClkreq (m : Mod) (h : Nat) : Mod := if (m.port h).inL12 then m.send (.portPin "CLKREQ#" h false) else m

/-- Traffic on the port of an LD brings its link back to L0 (R452). -/
def Mod.backToL0 (m : Mod) (l : Nat) : Mod :=
  (m.takeClkreq (l / 16)).setPort (l / 16) (fun p => { p with inL1 := false, inL12 := false })

/-- Max Payload Size of function 1: 128 B to the 512 B that it supports (R438, R458). -/
def Ld.maxPayload (d : Ld) : Nat := min 512 (128 * 2 ^ (bits (Mem.rdLE d.f1.cfg 0x50 2) 5 3))

/-- The pieces in which bytes are written to the host: each ends at a multiple of Max Payload Size or at the last byte (R458). -/
def dmaPieces (most : Nat) : Nat → Nat → List Byte → List (Nat × List Byte)
  | 0, _, _ => []
  | fuel + 1, a, bs =>
    if bs = [] then []
    else
      let n := most - a % most
      (a, bs.take n) :: dmaPieces most fuel (a + n) (bs.drop n)

/-- Send the writes of a DMA transfer, split at Max Payload Size, in address order (R458). -/
def Mod.hostWrites (m : Mod) (l address : Nat) (bytes : List Byte) : Mod :=
  let most := (m.ld l).maxPayload
  m.each (dmaPieces most (bytes.length / most + 2) address bytes) (fun m w => m.send (.hostWrite l w.1 w.2))

/-- A DMA write of the LD: issued while Bus Master Enable of function 1 is set, and held otherwise (R457, R462). -/
def Mod.dmaWrite (m : Mod) (l address : Nat) (bytes : List Byte) : Mod :=
  if (m.ld l).f1.busMaster ∧ (m.ld l).heldDma = [] then (m.backToL0 l).hostWrites l address bytes
  else m.setLd l (fun d => { d with heldDma := d.heldDma ++ [(address, bytes)] })

/-- INTX_STATUS of a function as it reads: bit 0 of function 1 is set while any bit of INTX_CHN_PEND is (R454). -/
def Ld.intxStatus (d : Ld) (fn : Nat) : Nat :=
  if fn = 0 then d.f0.intxStatus else clrBit d.f1.intxStatus 0 + b2n (d.chnPend != [])

def Ld.func (d : Ld) (fn : Nat) : Function := if fn = 0 then d.f0 else d.f1

def Ld.setFunc (d : Ld) (fn : Nat) (f : Function → Function) : Ld :=
  if fn = 0 then { d with f0 := f d.f0 } else { d with f1 := f d.f1 }

/-- Some bit is set in both INTX_STATUS and INTX_ENABLE (R453). -/
def Ld.intxCond (d : Ld) (fn : Nat) : Bool :=
  (List.range 5).any (fun i => bit (d.intxStatus fn) i && bit (d.func fn).intxEnable i)

/-- Send one Assert_INTA or Deassert_INTA when the INTx condition of the function has changed (R453). -/
def Mod.syncIntx (m : Mod) (l fn : Nat) : Mod :=
  let d := m.ld l
  let now := d.intxCond fn && !(d.func fn).intDisable
  if now = (d.func fn).asserted then m
  else ((m.setLd l (fun d => d.setFunc fn (fun f => { f with asserted := now }))).backToL0 l).send (.intx l fn now)

/-- Set a bit of INTX_STATUS (R454, R455). -/
def Mod.setIntx (m : Mod) (l fn i : Nat) : Mod :=
  (m.setLd l (fun d => d.setFunc fn (fun f => { f with intxStatus := setBit f.intxStatus i }))).syncIntx l fn

/-- The LDs that the host ports present: 16 in MLD mode, LD 0 otherwise (R435). -/
def Mod.ldNos (m : Mod) : List Nat := (List.range 64).filter (fun l => l % 16 = 0 || decide ((m.port (l / 16)).mode = .mld))

/-- Set MODULE of every LD: readiness, the rung or a latched leak flag has changed (R454). -/
def Mod.moduleChanged (m : Mod) : Mod := m.each m.ldNos (fun m l => m.setIntx l 1 4)

/-- Set bits of CHN_ERR of a channel, and CHN_ERR of its owner LD's interrupt status (R50, R454). -/
def Mod.setChnErr (m : Mod) (ch : Nat) (i : Nat) : Mod :=
  match Tbl.find m.chans ch with
  | none => m
  | some c =>
    let m1 := m.setChan ch (fun c => { c with err := c.err ||| BitVec.ofNat 5 (2 ^ i) })
    match c.owner.ldNo with
    | some l => m1.setIntx l 1 2
    | none => m1

/-! ### Counters (R524 to R530) -/

/-- Whether a counter's filter takes an event (R524, R526). -/
def Counter.takes (c : Counter) (event unit master : Nat) : Bool :=
  c.event = event && (c.unit = 0xFFFF || c.unit = unit || (c.unit % 4096 = 0xFFF && c.unit / 4096 = unit / 4096)) &&
    (c.master = 0xFFFF || c.master = master)

/-- Whether the counter with this key is frozen (R530). -/
def Mod.ctrFrozen (m : Mod) (key : Nat) : Bool :=
  m.svc.ctr.moduleFrozen ||
    (key < 4096 && (match Tbl.find m.mem.parts (key / 64) with | some p => p.frozen | none => false))

/-- The default minimum of a master: those of the FLASH and MAP engines (R348). -/
def engineMin (res master : Nat) : Nat :=
  if master = 0x3007 ∧ res = 3 then 8000 else if master = 0x3009 ∧ (res = 1 ∨ res = 2) then 32000 else 0

/-- The key of a master's settings at a resource. -/
def regKey (res ix master : Nat) : Nat := res * 2 ^ 28 + ix * 2 ^ 16 + master

def MasterSet.init (res master : Nat) : MasterSet := { min := engineMin res master, max := 0, weight := 16, spend := 0, last := 0 }

/-- Charge the bytes of one request to a master (R347, R351): in units of 64 B. -/
def Mod.spend (m : Mod) (res ix master bytes : Nat) : Mod :=
  let t := Tbl.updD m.reg.masters (regKey res ix master) (MasterSet.init res master) (fun x => { x with spend := x.spend + ceilDiv bytes 64 })
  { m with reg := { m.reg with masters := t } }

/-- Units per window of a rate, and as scaled (R351, R357). -/
def Mod.units (m : Mod) (mbps : Nat) : Nat := ceilDiv (mbps * m.reg.windowNs) 64000
def Mod.scaled (m : Mod) (res ix mbps : Nat) : Nat := m.units mbps * Tbl.findD m.reg.scale (res * 4096 + ix) 1000 / 1000

/-- Charge the bytes of one request to the movement that made it, too (R354). -/
def Mod.spendMv (m : Mod) (v : Option Nat) (res ix bytes : Nat) : Mod :=
  v.elim m (fun v => m.setMv v (fun x => { x with spends := Tbl.updD x.spends (res * 4096 + ix) 0 (· + ceilDiv bytes 64) }))

/-- Spend, effective MIN and MAX in units of this window; no MAX where it is 0 (R351). -/
structure Budget where
  spend : Nat
  min : Nat
  max : Option Nat
  deriving DecidableEq, Repr

/-- The budget of a master at a resource, or a movement's equal part of its partition's allotment (R351, R354). A master's
minimum includes the reservations of its streams (R365). -/
def Mod.regBudget (m : Mod) (res ix master : Nat) (v : Option Nat) : Budget :=
  let s := (Tbl.find m.reg.masters (regKey res ix master)).getD (MasterSet.init res master)
  let lim := fun (n : Nat) => if s.max = 0 then none else some (m.units s.max / n)
  match v.bind (fun v => Tbl.find m.mvs v) with
  | some x =>
    let n := max 1 (Tbl.findD m.reg.divided x.partition 1)
    { spend := Tbl.findD x.spends (res * 4096 + ix) 0, min := m.scaled res ix s.min / n, max := lim n }
  | none =>
    let own := m.streams.flatMap (fun t => t.2.reserve.filter (fun r => r.1 = res * 4096 + ix && r.2.1 = master))
    { spend := s.spend, min := m.scaled res ix s.min + (own.map (fun r => m.scaled res ix r.2.2)).foldl (· + ·) 0, max := lim 1 }

/-- A request older than the age limit is promoted above its budget (R353). -/
def Mod.pastAge (m : Mod) (issued : Nat) : Bool := decide (m.reg.ageLimitNs < m.localTime - issued)

/-- A request of the master is held: its spend has reached MAX, and is not below MIN (R351). -/
def Mod.overMax (m : Mod) (res ix master : Nat) (v : Option Nat) : Bool :=
  let b := m.regBudget res ix master v
  b.max.elim false (fun x => decide (x ≤ b.spend) && decide (b.min ≤ b.spend))

/-- The resource whose bytes an event counts (R349, R525), 0 for none. -/
def eventResource (event : Nat) : Nat :=
  match event with
  | 0x0003 => 1 | 0x0004 => 1 | 0x0005 => 2 | 0x0006 => 2 | 0x0007 => 3 | 0x0008 => 3 | 0x000A => 5 | 0x000C => 4 | _ => 0

/-- Charge what an event counts to its master, when it has one. -/
def Mod.chargeEvent (m : Mod) (event unit master amount : Nat) : Mod :=
  if master = 0xFFFF ∨ eventResource event = 0 then m
  else m.spend (eventResource event) (if event = 0x000A then unit % 4096 else 0) master amount

/-- Add an amount to every counter that passes the test; a global counter that passes its threshold raises the THRESHOLD trigger source (R524,
R532). -/
def Mod.addCount (m : Mod) (hit : Nat → Counter → Bool) (amount : Nat) : Mod :=
  let thr := m.svc.ctr.tbl.any (fun e => hit e.1 e.2 && 4096 ≤ e.1 && e.2.thresholdLog2 != 0 &&
    e.2.value < 2 ^ e.2.thresholdLog2 && 2 ^ e.2.thresholdLog2 ≤ e.2.value + amount)
  let tbl := Tbl.mapV m.svc.ctr.tbl (fun k c => if hit k c then
    { c with value := (c.value + amount) % 2 ^ 48, wrapped := c.wrapped || decide (2 ^ 48 ≤ c.value + amount) } else c)
  let m1 := m.setSvc (fun v => { v with ctr := { v.ctr with tbl := tbl } })
  if thr then m1.setTrace (fun t => { t with sources := setBit t.sources 1 }) else m1

/-- Add an event's amount to every counter that takes it and that no freeze holds, and charge it to its master (R349, R524). -/
def Mod.count (m : Mod) (event unit master : Nat) (part : Option Nat) (amount : Nat) : Mod :=
  (m.addCount (fun k c => c.takes event unit master && !m.ctrFrozen k && (4096 ≤ k || part = some (k / 64))) amount).chargeEvent event unit master amount

/-- The counters of cycles and of bytes inside the NoC, NOC_BYTES, EXPANDER_WAIT, BARRIER_WAIT and FETCH_WAIT (R525): the model has no cycles and
no routes, so each gains a free amount as time passes. -/
def Mod.countCycles (m : Mod) : Mod :=
  m.each (m.svc.ctr.tbl.filter (fun e => (e.2.event == 0x0002 || decide (0x0010 ≤ e.2.event ∧ e.2.event ≤ 0x0012)) && !m.ctrFrozen e.1)) (fun m e =>
    let a := m.freeVal
    a.2.addCount (fun k _ => k == e.1) a.1)

/-! ### Time (R319, R320) -/

/-- One tick of time, which is what the block does when no command waits: one nanosecond at P0 to P2; one period of the
32.768 kHz crystal at P3 and P4, where the FTC advances by 30,517 or 30,518 ns so that the average step is exact
(R319: 10^9 ÷ 32,768 = 30,517 + 37 ÷ 64), at half rate while a negative correction is absorbed (R320). Nothing runs while the module is not powered. -/
def Mod.tick (m : Mod) : Mod :=
  if m.pow.phase ≠ .on then m
  else if m.pow.rung < 3 then
    let w := m.countCycles.refillWear 1
    { w with ftc := (m.ftc + m.fab.ftcStep m.localTime) % 2 ^ 64, localTime := (m.localTime + 1) % 2 ^ 64,
             fab := { m.fab with absorb := m.fab.absorb - (1 - m.fab.ftcStep m.localTime) } }
  else
    let step := 30517 + (m.phase + 37) / 64
    let late := min m.fab.absorb (step / 2)
    let w := m.countCycles.refillWear step
    { w with ftc := (m.ftc + step - late) % 2 ^ 64, localTime := (m.localTime + step) % 2 ^ 64, phase := (m.phase + 37) % 64,
             fab := { m.fab with absorb := m.fab.absorb - late } }

/-! ### Completion rings and events (R68 to R74, R90) -/

/-- The 32 bytes of a record with its PHASE (R70). -/
def RingRec.bytes (r : RingRec) (phase : Bool) : List Byte :=
  leBytes 8 r.tag ++ leBytes 4 r.context ++ leBytes 2 r.status.code ++ leBytes 2 (b2n phase * 0x8000 + r.kind * 0x1000) ++
    leBytes 2 r.code ++ leBytes 2 0 ++ leBytes 4 r.detail ++ leBytes 8 r.data

/-- A COMPLETE context becomes FREE once its final status has been written to a ring or read (R86). -/
def Mod.retireCtx (m : Mod) (id : Nat) : Mod :=
  m.setCtx (id % 65536) (fun c =>
    if c.gen.toNat = id / 65536 ∧ c.state = .complete then
      { c with state := .free, tag := 0, opcode := 0, progress := 0, final := .ok, detail := 0, data := 0,
               work := .none, obj := .none, window := none, holder := none } else c)

/-- The ring holds 2^k records that the host has not consumed (R72). -/
def Chan.ringFull (c : Chan) (r : Ring) : Bool := (c.head - c.tail).toNat = 2 ^ r.log2

/-- Write one record at the producer index (R70, R71, R74). -/
def Mod.writeRecord (m : Mod) (ch : Nat) (c : Chan) (r : Ring) (rec : RingRec) : Mod :=
  match c.owner.ldNo with
  | none => m
  | some l =>
    let idx := c.head.toNat
    let phase := idx / 2 ^ r.log2 % 2 = 0
    let m1 := (m.dmaWrite l (r.base + 32 * (idx % 2 ^ r.log2)) (rec.bytes phase)).count 0x000A (0x6000 + l / 16) l
      ((Tbl.find m.mem.lds l).map (fun b => b.partition)) 32
    let m2 := m1.setChan ch (fun c => { c with head := c.head + 1 })
    let m3 := if r.irq then
        (m2.setLd l (fun d => { d with chnPend := if d.chnPend.contains ch then d.chnPend else ch :: d.chnPend })).syncIntx l 1
      else m2
    if rec.kind = 0 then m3.retireCtx rec.context else m3

/-- Deliver a record to a channel's ring: write it, hold it while the ring is full or disabled, or drop it (R69, R72, R73).
A channel with no ring loses events and bulk completions, and sets CRING_LOST (R89). DESIGN CHOICE (log 76): CRING_HELD says that the ring was
full, and records held because it is disabled do not set it. -/
def Mod.ringRecord (m : Mod) (ch : Nat) (rec : RingRec) : Mod :=
  match Tbl.find m.chans ch with
  | none => m
  | some c =>
    match c.ring with
    | none => if rec.kind = 0 then m else m.setChnErr ch 3
    | some r =>
      if r.disabled || c.held != [] || c.ringFull r then
        if c.held.length < 64 then
          let m1 := m.setChan ch (fun c => { c with held := c.held ++ [rec] })
          if r.disabled then m1 else m1.setChnErr ch 2
        else (m.setChan ch (fun c => { c with lost := if c.lost = 0xFFFF then c.lost else c.lost + 1 })).setChnErr ch 3
      else m.writeRecord ch c r rec

/-- Write the held records of a channel in order while the ring has room (R72, R641). -/
def Mod.flushHeld (m : Mod) (ch : Nat) : Nat → Mod
  | 0 => m
  | n + 1 =>
    match Tbl.find m.chans ch with
    | some c =>
      match c.ring, c.held with
      | some r, rec :: rest =>
        if r.disabled || c.ringFull r then m
        else ((m.setChan ch (fun c => { c with held := rest })).writeRecord ch c r rec).flushHeld ch n
      | _, _ => m
    | none => m

/-- Raise an event of a partition, or a module-wide event (`part` 64), to the channels that subscribed to it (R90). -/
def Mod.raise (m : Mod) (code part data detail context : Nat) : Mod :=
  m.each m.chans (fun m c => if c.2.subs.contains (code, part) then
    m.ringRecord c.1 { tag := 0, context := context, status := .ok, kind := 1, code := code, detail := detail, data := data }
    else m)

/-! ### Trace events (R535 to R538) -/

/-- Events that the trace area holds (R534). -/
def Trace.capacity (t : Trace) : Nat := (t.carveMiB - t.dumpMiB) * 32768

/-- The B-die that a unit lies on. -/
def unitDie (unit : Nat) : Nat :=
  let i := unit % 4096
  match unit / 4096 with
  | 1 => i / 1024
  | 2 => i / 32
  | 3 => i / 2
  | 4 => i / 8
  | 5 => if i < 16 then i / 4 else i - 16
  | 6 => i
  | 7 => i
  | 8 => i
  | 10 => i / 16
  | 11 => if i = 0 then 0 else if i ≤ 4 then i - 1 else if i ≤ 8 then i - 5 else 0
  | _ => 0

/-- Write one event into the trace in the present state (R538). -/
def Mod.tracePut (m : Mod) (e : TraceEv) : Mod :=
  let t := m.svc.trace
  let n := t.capacity
  let e := { e with post := t.state = .capturing, stepped := t.stepped }
  match t.state with
  | .recording =>
    if t.mode = 0 then
      let m1 := m.setTrace (fun t => { t with events := t.events ++ [e] })
      if n ≤ t.events.length + 1 then
        (m1.setTrace (fun t => { t with state := .stopped })).raise 0x0C03 64 (t.events.length + 1) 0 0
      else m1
    else m.setTrace (fun t => { t with events := (t.events ++ [e]).drop (t.events.length + 1 - n) })
  | .capturing =>
    let m1 := m.setTrace (fun t => { t with events := (t.events ++ [e]).drop (t.events.length + 1 - n), postLeft := t.postLeft - 1 })
    if t.postLeft ≤ 1 then
      (m1.setTrace (fun t => { t with state := .stopped })).raise 0x0C03 64 m1.svc.trace.events.length 0 0
    else m1
  | _ => m

/-- The trace takes events. -/
def Trace.live (t : Trace) : Bool := t.state = .recording || t.state = .capturing

/-- An event for the trace: at P2 to P4 it waits in the 64 KiB buffer of its B-die, or is dropped and counted when that is full (R537). -/
def Mod.traceWrite (m : Mod) (e : TraceEv) : Mod :=
  let t := m.svc.trace
  if m.pow.rung < 2 ∨ !t.live then m.tracePut e
  else
    let d := unitDie e.unit
    if Tbl.findD t.buffered d 0 < 2048 then (m.setTrace (fun t => { t with buffered := Tbl.updD t.buffered d 0 (· + 1) })).tracePut e
    else m.setTrace (fun t => { t with dropped := satInc (2 ^ 64 - 1) t.dropped, dropsNow := t.dropsNow + 1,
                                       firstDrop := if t.dropsNow = 0 then e.ftc else t.firstDrop })

/-- Writing resumes at P0 or P1: a DROPPED event tells what was dropped (R537). -/
def Mod.traceResume (m : Mod) : Mod :=
  let t := m.svc.trace
  let m1 := m.setTrace (fun t => { t with buffered := [], dropsNow := 0 })
  if t.dropsNow = 0 ∨ !t.live then m1
  else m1.tracePut { ftc := m.ftc, unit := 1, kind := 0x10, post := false, stepped := false, ring := false, partition := 0xFF, a16 := 0, tag := 0,
                     a32 := t.dropsNow % 2 ^ 32, a64 := t.firstDrop }

/-- The unit keeps a hang ring while its class is enabled; the router crossbars keep none (R541). -/
def Hang.keeps (h : Hang) (unit : Nat) : Bool := bit h.classMask (unit / 4096) && !(unit / 4096 = 5 && 16 ≤ unit % 4096)

/-- Put an event into the hang ring of its unit, which holds the last 64 (R541). -/
def Mod.ringPut (m : Mod) (e : TraceEv) : Mod :=
  m.setHang (fun h => { h with rings := Tbl.updD h.rings e.unit [] (fun l => (l ++ [e]).drop (l.length + 1 - 64)) })

/-- The same while a dump is being written: a ring that has not yet been copied does not record (R543). -/
def Mod.ringEvent (m : Mod) (e : TraceEv) : Mod :=
  if m.svc.hang.dumps.all (fun d => d.written) then m.ringPut e
  else let c := m.choose 2; if c.1 = 0 then c.2.ringPut e else c.2

/-- Record an event in the unit's hang ring and, where the masks let it through, in the trace (R537, R541). -/
def Mod.traceEv (m : Mod) (unit kind part a16 tag a32 a64 : Nat) : Mod :=
  let e : TraceEv := { ftc := m.ftc, unit := unit, kind := kind, post := false, stepped := false, ring := false,
                       partition := part, a16 := a16, tag := tag, a32 := a32, a64 := a64 }
  let m1 := if m.svc.hang.keeps unit then m.ringEvent e else m
  let t := m.svc.trace
  if kind = 0x0D ∨ kind = 0x0E ∨ kind = 0x10 ∨
      (bit t.kindMask kind ∧ bit t.classMask (unit / 4096) ∧ (t.partition = 0xFF ∨ t.partition = part))
  then m1.traceWrite e else m1

/-! ### Error records (R484 to R492, R664) -/

/-- What a place that logs a record gives; the log adds the rest. -/
structure ErrIn where
  unit : Nat
  code : Nat
  sev : Sev
  opn : Opn := .none
  address : Nat := 0
  space : ASpace := .none
  partition : Nat := 0xFF
  region : Nat := 0xFFFF
  context : Nat := 0
  count : Nat := 0
  detail : Nat := 0
  /-- The 48 B appendix records that follow (R486). -/
  appendix : List (List Byte) := []
  /-- A temperature that the record gives in place of the unit's (R576). -/
  temp : Option Int := none
  /-- FTC and LOCAL_TIME of a detection that came before the record (R36). -/
  times : Option (Nat × Nat) := none
  restored : Bool := false
  deriving DecidableEq, Repr

/-- The temperature that R664 names for a unit, °C × 8. -/
def Mod.unitTemp (m : Mod) (unit : Nat) : Int :=
  let b := fun i => m.pow.bTemps.getD i 0
  let c := fun i => m.pow.cTemps.getD i 0
  let i := unit % 4096
  let hotB := maxOf (b 0) m.pow.bTemps
  match unit / 4096 with
  | 0 => b 0
  | 9 => b 0
  | 1 => c (i / 512)
  | 2 => m.pow.gddrTemps.getD (i / 4) 0
  | 3 => b (i / 2)
  | 4 => m.pow.nandTemps.getD i 0
  | 5 => if i < 16 then b (i / 4) else b (i - 16)
  | 6 => b i
  | 7 => b i
  | 8 => b i
  | 10 => b (i / 16)
  | 11 =>
    if i = 0 then b 0 else if i ≤ 4 then b (i - 1)
    else if i ≤ 8 then max (c (2 * (i - 5))) (c (2 * (i - 5) + 1))
    else if i = 9 then maxOf (m.pow.gddrTemps.getD 0 0) m.pow.gddrTemps
    else if i = 10 then maxOf (m.pow.nandTemps.getD 0 0) m.pow.nandTemps
    else if i = 11 then maxOf hotB m.pow.cTemps
    else if i = 13 then m.pow.outletT else if i = 15 then b 0 else m.pow.inletT
  | _ => 0

/-- Add 1 to LOST of a record's scope and severity (R488). -/
def Mod.lose (m : Mod) (part : Nat) (sev : Sev) : Mod :=
  let inc := fun (l : List Nat) => l.modify sev.code (satInc (2 ^ 32 - 1))
  if part < 64 then m.setPart part (fun p => { p with lost := inc p.lost }) else m.setErr (fun e => { e with lost := inc e.lost })

/-- The oldest record of the lowest severity that does not exceed `sev` (R488); appendix records go with their parents. -/
def pickVictim (rs : List ErrRec) (sev : Sev) : Option ErrRec :=
  let c := rs.filter (fun r => r.code != 0 && decide (r.sev.code ≤ sev.code))
  c.foldl (fun (b : Option ErrRec) r => match b with
    | none => some r
    | some x => if r.sev.code < x.sev.code then some r else b) none

/-- A record belongs to the victim: the record itself or one of its appendix records. -/
def ErrRec.partOf (r v : ErrRec) : Bool := r.seq = v.seq || (r.code = 0 && r.seq - r.parentDiff = v.seq)

/-- Make room for `k` new records of the scope, or answer that there is none (R488). -/
def Mod.makeRoom (m : Mod) (part : Nat) (sev : Sev) (k : Nat) : Nat → Option Mod
  | 0 => none
  | fuel + 1 =>
    let rs := m.svc.err.recs
    let mine := rs.filter (fun r => r.partition = part)
    let cap := if part < 64 then 1024 else 4096
    let scope := if cap < mine.length + k then some mine else if 16384 < rs.length + k then some rs else none
    match scope with
    | none => some m
    | some l =>
      match pickVictim l sev with
      | none => none
      | some v =>
        ((m.setErr (fun e => { e with recs := e.recs.filter (fun r => !r.partOf v) })).lose v.partition v.sev).makeRoom part sev k fuel

/-- The 64 bytes of an error record (R484, R486). -/
def ErrRec.bytes (r : ErrRec) : List Byte :=
  if r.code = 0 then
    leBytes 8 r.seq ++ leBytes 2 r.unit ++ leBytes 2 0 ++ leBytes 4 r.parentDiff ++ (r.appendix ++ List.replicate 48 0).take 48
  else
    leBytes 8 r.seq ++ leBytes 2 r.unit ++ leBytes 2 r.code ++ leBytes 1 r.sev.code ++ leBytes 1 r.opn.code ++
    leBytes 2 r.opcode ++ leBytes 8 r.ftc ++ leBytes 8 r.localTime ++ leBytes 8 r.address ++ leBytes 1 r.space.code ++
    leBytes 1 r.partition ++ leBytes 2 r.region ++ leBytes 2 r.temp ++ leBytes 2 r.rail ++ leBytes 4 r.context ++
    leBytes 4 r.count ++ leBytes 4 r.detail ++
    leBytes 1 (b2n r.restored + 2 * b2n r.read + 4 * b2n r.hasAppendix) ++ leBytes 3 0

/-- Put a record into event log `i` of an LD; a full log counts it as overflow. Sets EVENT_LOG when the log was empty
(R441, R455, R491). -/
def Mod.eventLog (m : Mod) (l i : Nat) (rec : List Byte) : Mod :=
  let log := (m.ld l).eventLogs.getD i []
  if log.length < 64 then
    let m1 := m.setLd l (fun d => { d with eventLogs := d.eventLogs.modify i (· ++ [rec]) })
    if log = [] then m1.setIntx l 0 0 else m1
  else m.setLd l (fun d => { d with eventOverflow := d.eventOverflow.modify i (satInc 0xFFFF) })

/-- The LDs bound to a partition. -/
def Mod.ldsOf (m : Mod) (part : Nat) : List Nat := (m.mem.lds.filter (fun b => b.2.partition = part)).map (fun b => b.1)

/-- Deliver ERROR_RECORD and ERROR_RECORD_ANY for a logged record: for one below CONTAINED each at most once per second per scope, a scope being
that of the record (R488, R491). -/
def Mod.errEvents (m : Mod) (r : ErrRec) : Mod :=
  let detail := r.code * 65536 + r.unit
  let scope := min r.partition 64
  if r.sev.code < 2 ∧ Tbl.find m.svc.err.lowRaised scope = some m.second then m
  else
    let m1 := if r.sev.code < 2 then m.setErr (fun e => { e with lowRaised := Tbl.put e.lowRaised scope m.second }) else m
    let m2 := m1.raise 0x0A02 64 r.seq detail 0
    if r.partition < 64 then m2.raise 0x0A01 r.partition r.seq detail 0 else m2

/-- Log a record: number it, store it or drop it under the caps, journal it, raise its events, place it in the event logs of
the partition's LDs and record it in the trace (R484 to R492, R536). A CONTAINED or worse record is a trigger source
(R532). -/
def Mod.logErr (m : Mod) (e : ErrIn) : Mod :=
  let k := e.appendix.length
  let seq := m.svc.err.nextSeq
  let r : ErrRec :=
    { seq := seq, unit := e.unit, code := e.code, sev := e.sev, opn := e.opn, opcode := e.opn.opcode,
      ftc := (e.times.map (fun t => t.1)).getD m.ftc, localTime := (e.times.map (fun t => t.2)).getD m.localTime, address := e.address, space := e.space, partition := e.partition, region := e.region,
      temp := toTwos 16 (e.temp.getD (m.unitTemp e.unit)), rail := Config.railMv e.unit m.ftc % 65536, context := e.context,
      count := e.count % 2 ^ 32, detail := e.detail % 2 ^ 32, restored := e.restored, read := false, hasAppendix := k != 0,
      parentDiff := 0, appendix := [] }
  let apps := (List.range k).map (fun i => { r with seq := seq + i + 1, code := 0, parentDiff := i + 1, hasAppendix := false,
                                                     appendix := e.appendix.getD i [] })
  let m0 := m.setErr (fun g => { g with nextSeq := g.nextSeq + 1 + k })
  match m0.makeRoom e.partition e.sev (k + 1) 16385 with
  | none => m0.lose e.partition e.sev
  | some m1 =>
    let m2 := m1.setErr (fun g => { g with
      recs := g.recs ++ r :: apps
      journalled := if 3 ≤ e.sev.code ∧ m.t2.inService ∧ !e.restored then (g.journalled ++ [r]).drop (g.journalled.length + 1 - 256)
                    else g.journalled })
    let m3 := m2.errEvents r
    let log := if e.sev = .corrected then 1 else if e.sev = .contained then 2 else 3
    let m4 := if e.partition < 64 ∧ 1 ≤ e.sev.code then
        m3.each (m3.ldsOf e.partition) (fun m l => m.eventLog l log r.bytes) else m3
    let m5 := m4.traceEv e.unit 0x0A e.partition e.sev.code e.code 0 seq
    if 2 ≤ e.sev.code then m5.setTrace (fun t => { t with sources := setBit t.sources 2 }) else m5

end Sys2Proof.Machine
end

