-- ==== Sys2Proof/Machine/Egress.lean ====
section
/-! DEFINITION. Packets and flits as they leave on the fabric ports, and routing (spec/09_fabric_links_routing.md R300 to R304, R306, R308,
R309, R314 to R317; the egress budgets of spec/11_regulation_streams.md R351 to R353), triggers (spec/17_counters_trace_dumps.md) and the
answers of the meanings. -/
namespace Sys2Proof.Machine

/-! ### CRC-32C (R274) -/

/-- One byte into the CRC-32C register (R274): the reflected polynomial 0x82F63B78. -/
def crcByte (crc : Nat) (b : Byte) : Nat :=
  go 8 (crc ^^^ b.toNat)
where
  go : Nat → Nat → Nat
    | 0, c => c
    | n + 1, c => go n (if c % 2 = 1 then (c / 2) ^^^ 0x82F63B78 else c / 2)

/-- CRC-32C of bytes, new (0) or continued from a result (R274). -/
def crc32c (start : Nat) (bs : List Byte) : Nat := (bs.foldl crcByte (if start = 0 then 0xFFFFFFFF else start ^^^ 0xFFFFFFFF)) ^^^ 0xFFFFFFFF

/-! ### Packets and the links (R300, R301, R303, R304, R306, R314 to R317) -/

/-- Whether a port carries packets (R297). -/
def FabPort.carries (p : FabPort) : Bool := p.state = .up || p.state = .limited

/-- LENGTH of a packet, in 16 B units (R306). -/
def Packet.units (p : Packet) : Nat := ceilDiv p.payload.length 16

/-- The bytes of a packet: its 16 B header and its payload, zero filled to 16 B (R306). -/
def Packet.bytes (p : Packet) : List Byte :=
  let h := ((((((((((p.dest % 2 ^ 14) * 2 ^ 14 + p.src % 2 ^ 14) * 2 ^ 6 + p.srcPart % 64) * 4 + p.cls % 4) * 2 + b2n p.esc) * 2 + b2n p.poison) * 2 +
    b2n p.isLocal) * 2 ^ 9 + p.ttl % 256) * 2 ^ 16 + p.flow % 2 ^ 16) * 2 ^ 8 + p.op % 256) * 2 ^ 56 + p.units * 2 ^ 48 + p.tag % 2 ^ 32
  leBytes 16 h ++ (p.payload ++ List.replicate 15 0).take (16 * p.units)

/-- A packet read from its bytes; none when its LENGTH is above 139 (R306). -/
def Packet.ofBytes (bs : List Byte) : Option Packet :=
  let h := leNat (bs.take 16)
  let n := bits h 48 8
  if 139 < n then none
  else some { dest := bits h 114 14, src := bits h 100 14, srcPart := bits h 94 6, cls := bits h 92 2, esc := bit h 91, poison := bit h 90,
              isLocal := bit h 89, ttl := bits h 80 8, flow := bits h 64 16, op := bits h 56 8, tag := bits h 0 32,
              payload := (bs.drop 16).take (16 * n) }

/-- Virtual channel of a packet and the 64 B credits that it uses (R303). -/
def Packet.vc (p : Packet) : Nat := 2 * p.cls + b2n p.esc
def Packet.credits (p : Packet) : Nat := ceilDiv (16 + 16 * p.units) 64

/-- The packet may leave the port after `used` bytes of packets laid before it: a LIMITED port carries only LOCAL MGMT packets (R297), the
channel holds the credits, and fewer than 1,024 sequenced flits are unacknowledged (R301). -/
def FabPort.maySend (f : FabPort) (used : Nat) (p : Packet) : Bool :=
  (f.state = .up || (f.state = .limited && p.isLocal)) && decide (p.credits ≤ f.credits.getD p.vc 0) &&
    decide (f.replay.length + ceilDiv (used + p.bytes.length) 232 ≤ 1024)

/-- The first packet of a virtual channel in the queue, if it may leave. -/
def FabPort.headOf (f : FabPort) (used v : Nat) : Option Packet :=
  match f.egress.find? (fun p => p.vc = v) with
  | some p => if f.maySend used p then some p else none
  | none => none

/-! ### Flits (R300, R301, R308, R309) -/

/-- The last SEQ received in order. -/
def FabPort.lastSeq (f : FabPort) : Nat := (f.expected + 4095) % 4096

/-- The key of a direction (0 sent, 1 received) of a link in an epoch of a session; its IV count starts at a number. -/
def LinkKey.of (secret dir epoch count : Nat) : LinkKey :=
  { secret := secret, key := Config.linkKey secret dir epoch, salt := Config.linkSalt secret dir epoch, epoch := epoch, count := count, used := 0 }

/-- The key of the next epoch. The count starts again at the SEQ of the epoch's first flit, so that its low 12 bits stay SEQ (R308, R309;
DEDUCED: log 77). -/
def LinkKey.next (k : LinkKey) (dir seq : Nat) : LinkKey := LinkKey.of k.secret dir (k.epoch + 1) seq

/-- One flit more under a key. -/
def LinkKey.step (k : LinkKey) : LinkKey := { k with count := k.count + 1, used := k.used + 1 }

/-- The 12 B IV: the salt and the count (R308). -/
def LinkKey.iv (k : LinkKey) : List Byte := leBytes 4 k.salt.toNat ++ leBytes 8 k.count

/-- The header of a flit (R300): an unsequenced flit is never encrypted (R308). -/
def FabPort.header (f : FabPort) (kind ack vc count first : Nat) : List Byte :=
  let enc := f.encrypted && (kind = 0 || kind = 3)
  leBytes 8 (f.seqNext * 2 ^ 52 + ack * 2 ^ 40 + kind * 2 ^ 36 + b2n (enc && f.txKey.epoch % 2 = 1) * 2 ^ 35 + vc * 2 ^ 32 + count * 2 ^ 20 +
    first * 2 ^ 15 + b2n enc * 2 ^ 14)

/-- A whole flit: header, payload filled with zeros to 232 B, tag and CRC-32C (R300); the payload of a sequenced flit of an encrypted port is
encrypted, with the header as additional authenticated data (R308). -/
def FabPort.flit (f : FabPort) (kind ack vc count first : Nat) (payload : List Byte) : List Byte :=
  let h := f.header kind ack vc count first
  let plain := (payload ++ List.replicate 232 0).take 232
  let body := h ++ (if f.encrypted && (kind = 0 || kind = 3) then leBytes 244 (Config.gcmSeal f.txKey.key f.txKey.iv h plain)
                    else plain ++ List.replicate 12 0)
  body ++ leBytes 4 (crc32c 0 body)

/-- The sender's key after one more sequenced flit: a new epoch after 2^40 of them (R309). -/
def FabPort.txStep (f : FabPort) : LinkKey :=
  if !f.encrypted then f.txKey
  else if f.txKey.used + 1 < 2 ^ 40 then f.txKey.step
  else f.txKey.next 0 ((f.seqNext + 1) % 4096)

/-- Send a sequenced flit: it takes the next SEQ and is kept for replay, with the number of packets that end in it (R301). -/
def Mod.sendFlit (m : Mod) (i : Nat) (name : String) (kind first ends : Nat) (payload : List Byte) : Mod :=
  let f := m.fport i
  let bytes := f.flit kind f.lastSeq 0 0 first payload
  (m.setFport i (fun f => { f with seqNext := (f.seqNext + 1) % 4096, replay := f.replay ++ [{ seq := f.seqNext, ends := ends, bytes := bytes }],
                                   txKey := f.txStep, rxOld := none })).send (.flit i name bytes)

/-- Packets laid end to end across payloads of 232 B: of each payload FIRST_PKT, 31 where no packet starts, the number of packets that end in
it, and its bytes (R300, R301). -/
def layPackets (ps : List Packet) : List (Nat × Nat × List Byte) :=
  let bs := ps.flatMap Packet.bytes
  let marks := (ps.foldl (fun (x : Nat × List (Nat × Nat)) p => (x.1 + p.bytes.length, x.2 ++ [(x.1, x.1 + p.bytes.length)])) (0, [])).2
  (List.range (ceilDiv bs.length 232)).map (fun k =>
    ((match marks.find? (fun x => x.1 / 232 = k) with | some x => x.1 % 232 / 8 | none => 31),
     (marks.filter (fun x => (x.2 - 1) / 232 = k)).length, (bs.drop (232 * k)).take 232))

/-- Lay packets into DATA flits; what is left of the last payload is zero. -/
def Mod.layOut (m : Mod) (i : Nat) (ps : List Packet) : Mod := m.each (layPackets ps) (fun m x => m.sendFlit i "DATA" 0 x.1 x.2.1 x.2.2)

/-- Remove the first occurrence of a packet. -/
def dropFirst (p : Packet) : List Packet → List Packet
  | [] => []
  | q :: qs => if q = p then qs else q :: dropFirst p qs

/-- A packet as it leaves: SYNC carries the FTC at its first transmitted bit (R320). -/
def Mod.stamped (m : Mod) (p : Packet) : Packet :=
  if p.op = 2 ∧ p.isLocal then { p with q := {}, payload := p.payload.take 8 ++ leBytes 8 m.ftc } else { p with q := {} }

/-- The master to which a packet is charged (R347): that of its request, or the fabric source partition. -/
def Packet.master (p : Packet) : Nat := p.q.master.getD (0x1000 + p.srcPart)

/-- Take a packet off a port's queue to be sent: it uses its credits (R303), is counted and is charged (R351, R525). -/
def Mod.emit (m : Mod) (i : Nat) (p : Packet) : Mod :=
  (((m.setFport i (fun f => { f with egress := dropFirst p f.egress, credits := f.credits.modify p.vc (· - p.credits) })).send
    (.packet i (m.stamped p))).count 0x000C (0x5000 + i) p.master (some p.srcPart) p.bytes.length).spendMv p.q.movement 4 0 p.bytes.length

/-! ### The choice between REQ and BULK (R304, R351 to R353) -/

/-- Where a request stands at the egress (R351, R352): 0 promoted by age, 1 in its master's minimum, 2 in excess, 3 held. -/
def Mod.egressRank (m : Mod) (p : Packet) : Nat :=
  let b := m.regBudget 4 0 p.master p.q.movement
  if m.pastAge p.q.issued then 0
  else if b.spend < b.min then 1
  else if b.max.elim true (fun x => b.spend < x) then 2
  else 3

/-- The service class of a packet by its master (R346, R348); none for a fabric source partition, whose packets do not carry it. -/
def Packet.serviceClass (p : Packet) : Option Nat :=
  match p.master / 4096 with
  | 0 => some (if p.op = 0x10 ∨ p.op = 0x11 then 0 else 1)
  | 2 => some 2
  | 3 => some (if p.master = 0x3009 then 0 else if [0x3001, 0x3003, 0x3004, 0x3005].contains p.master then 3 else 2)
  | _ => none

/-- Which of a request and a bulk packet goes first (R352, R353): by rank; among promoted ones the older, at a tie the lower input; in the
minimum by class and then by age. Where that does not decide, and by the weights among those in excess, a free choice (log 9). -/
def Mod.egressPick (m : Mod) (a b : Packet) : Mod × Packet :=
  let ra := m.egressRank a
  let rb := m.egressRank b
  let cls := match a.serviceClass, b.serviceClass with | some x, some y => (x, y) | _, _ => (0, 0)
  let free := m.choose 2
  if ra ≠ rb then (m, if ra < rb then a else b)
  else if ra = 0 then (m, if a.q.issued ≤ b.q.issued then a else b)
  else if cls.1 ≠ cls.2 then (m, if cls.1 < cls.2 then a else b)
  else if ra = 1 ∧ a.q.issued ≠ b.q.issued then (m, if a.q.issued < b.q.issued then a else b)
  else (free.2, if free.1 = 0 then a else b)

/-- The packet of a port for the next flit slot (R304): MGMT, then RSP, then REQ or BULK of a master that is not held; within a class the
escape channel first. -/
def Mod.nextPacket (m : Mod) (i used : Nat) : Mod × Option Packet :=
  let f := m.fport i
  let first := fun (a b : Option Packet) => match a with | some p => some p | none => b
  let urgent := first (first (f.headOf used 7) (f.headOf used 6)) (first (f.headOf used 3) (f.headOf used 2))
  let due := fun (v : Nat) => (f.headOf used v).filter (fun p => m.egressRank p != 3)
  match urgent, first (due 1) (due 0), first (due 5) (due 4) with
  | some p, _, _ => (m, some p)
  | none, some p, none => (m, some p)
  | none, none, some p => (m, some p)
  | none, some p, some q => let c := m.egressPick p q; (c.1, some c.2)
  | none, none, none => (m, none)

/-- Take the packets that may be sent, one flit slot after the other, and lay them into flits behind those already taken. -/
def Mod.pumpFrom (m : Mod) (i : Nat) : Nat → List Packet → Mod
  | 0, ps => m.layOut i ps
  | n + 1, ps =>
    match m.nextPacket i (sumOf (ps.map (fun p => p.bytes.length))) with
    | (m1, some p) => (m1.emit i p).pumpFrom i n (ps ++ [m1.stamped p])
    | (m1, none) => m1.layOut i ps

/-- Send what may be sent on a port, up to a number of packets. -/
def Mod.pump (m : Mod) (i n : Nat) : Mod := m.pumpFrom i n []

/-- Queue a packet on a port's egress and send what may be sent. -/
def Mod.enqueue (m : Mod) (i : Nat) (p : Packet) : Mod :=
  let m1 := m.setFport i (fun f => { f with egress := f.egress ++ [p] })
  m1.pump i ((m1.fport i).egress.length + 1)

/-- Count a dropped packet: 1 NO_ROUTE, 2 TTL_EXPIRED, 3 DOUBLE_DATELINE, 4 malformed, 5 unaddressed. -/
def Mod.fabCount (m : Mod) (k : Nat) : Mod := m.setFab (fun f => { f with counters := Tbl.updD f.counters k 0 (· + 1) })

/-- The slot that R315 chooses, as port and DATELINE bit; none when the entry is invalid or no port of it is UP (R317). -/
def Mod.routeOf (m : Mod) (p : Packet) : Option (Nat × Bool) :=
  let e := Tbl.findD m.fab.routes p.dest 0
  let slots := List.range (bits e 28 2 + 1)
  let h := ((p.src * 40503 + p.dest * 31337 + p.flow * 7919 + m.fab.hashSalt) % 65536) / 16
  let portOf := fun s => bits e (4 * s) 4
  let isUp := fun s => (m.fport (portOf s)).state == FabState.up
  if !bit e 31 then none
  else
    let s := h % slots.length
    if isUp s then some (portOf s, bit e (20 + s))
    else
      let ups := slots.filter isUp
      if ups = [] then none else (ups[h % ups.length]?).map (fun s => (portOf s, bit e (20 + s)))

/-- Put a packet that R315 can place on its port; a packet for this module's own ID is delivered locally (R314), with those of
port 0. Whether it could be placed. -/
def Mod.place (m : Mod) (p : Packet) : Mod × Bool :=
  if p.dest = m.fab.deviceId then (m.setFport 0 (fun f => { f with arrived := f.arrived ++ [{ p with q := { p.q with crossing := false, free := true } }] }), true)
  else
    match m.routeOf p with
    | some (i, dl) =>
      let m1 := if dl ∧ p.esc then m.fabCount 3 else m
      (m1.enqueue i { p with esc := p.esc || dl, q := { p.q with crossing := dl && !p.esc } }, true)
    | none => (m, false)

/-- UNREACHABLE for a request (R317). -/
def Mod.unreachableFor (m : Mod) (p : Packet) : Packet :=
  { dest := p.src, src := m.fab.deviceId % 16384, srcPart := 0, cls := 1, esc := false, poison := false, isLocal := false, ttl := m.fab.ttl,
    flow := p.flow, op := 0x03, tag := p.tag, payload := [] }

/-- Send a packet that this module makes: with its TTL; a request with no route is answered to the module itself, another
packet is dropped and counted (R306, R317). An unaddressed module sends none (R311). -/
def Mod.sendPacket (m : Mod) (p : Packet) : Mod :=
  if m.fab.deviceId = 0xFFFF then m
  else
    match m.place p with
    | (m1, true) => m1
    | (m1, false) => if p.cls = 0 then (m1.place (m1.unreachableFor p)).1 else m1.fabCount 1

/-- A packet of this module to a device (R306). -/
def Mod.packetTo (m : Mod) (dest cls flow op tag : Nat) (payload : List Byte) (part : Nat := 0) (poison : Bool := false) : Packet :=
  { dest := dest, src := m.fab.deviceId % 16384, srcPart := part, cls := cls, esc := false, poison := poison, isLocal := false,
    ttl := m.fab.ttl, flow := flow, op := op, tag := tag, payload := payload, q := { issued := m.localTime } }

/-- A packet charged to a master other than its source partition (R347). -/
def Packet.chargedTo (p : Packet) (master : Nat) (movement : Option Nat := none) : Packet :=
  { p with q := { p.q with master := some master, movement := movement } }

/-! ### Triggers (R532, R533, R538) -/

/-- COUNTERS_FROZEN to the subscribers of a partition: byte 0 the scope, bytes 2 to 3 the partition (R547). -/
def Mod.frozenEvent (m : Mod) (scope part : Nat) : Mod := m.raise 0x0C04 part (scope + part * 65536) 0 0

/-- The module freeze (R530). -/
def Mod.freezeModule (m : Mod) : Mod :=
  if m.svc.ctr.moduleFrozen then m
  else
    (m.setSvc (fun v => { v with ctr := { v.ctr with moduleFrozen := true, freezeFtc := m.ftc } })).each
      (m.mem.parts.filter (fun p => p.2.state = .active)) (fun m p => m.frozenEvent 1 p.1)

/-- The payload of FREEZE_TRIGGER (R533). -/
def freezeTriggerPayload (no origin source ftc : Nat) : List Byte :=
  leBytes 2 no ++ leBytes 2 origin ++ leBytes 1 source ++ leBytes 3 0 ++ leBytes 8 ftc

/-- A LOCAL MGMT packet of this module (R306). -/
def Mod.localPacket (m : Mod) (op tag : Nat) (payload : List Byte) : Packet :=
  { dest := 0, src := m.fab.deviceId % 16384, srcPart := 0, cls := 3, esc := false, poison := false, isLocal := true,
    ttl := m.fab.ttl, flow := 2 * 16384, op := op, tag := tag, payload := payload }

/-- Send a LOCAL packet on every port that carries packets, but one (16 for none). -/
def Mod.sendLocalAll (m : Mod) (p : Packet) (except : Nat) : Mod :=
  m.each (List.range 16) (fun m i => if i ≠ except ∧ (m.fport i).carries then m.enqueue i p else m)

/-- What a trigger does to the trace (R538). -/
def Mod.traceTrigger (m : Mod) (no source origin ftc : Nat) : Mod :=
  let t := m.svc.trace
  let ev := fun (m : Mod) => m.traceEv 1 0x0E 0xFF source no origin ftc
  if t.state = .recording ∧ t.mode = 2 then
    let n := t.capacity
    let keep := n * t.pre16 / 16
    let post := if t.postEvents = 0 ∨ n - keep < t.postEvents then n - keep else t.postEvents
    let kept := t.events.drop (t.events.length - keep)
    if post = 0 then
      (m.setTrace (fun t => { t with events := kept, state := .stopped })).raise 0x0C03 64 kept.length 0 0
    else ev (m.setTrace (fun t => { t with events := kept, state := .capturing, postLeft := post }))
  else ev m

/-- Take one trigger with its source bit (R532): freeze, trace, TRACE_TRIGGERED and, for sources 0 to 4 and 6,
FREEZE_TRIGGER when FORWARD is set and the module has a device ID (R533). -/
def Mod.trigger (m : Mod) (source no origin ftc : Nat) : Mod :=
  let m1 := if m.svc.trace.freezeOnTrigger then m.freezeModule else m
  let m2 := m1.traceTrigger no source origin ftc
  m2.raise 0x0C02 64 (source + no * 65536) 0 0

/-- Act on the trigger sources that have arisen in this command, as one trigger of the lowest enabled source (R532). -/
def Mod.settle (m : Mod) : Mod :=
  match (List.range 7).filter (fun i => bit m.svc.trace.sources i && bit m.svc.trace.triggerMask i) with
  | [] => if m.svc.trace.sources = 0 then m else m.setTrace (fun t => { t with sources := 0 })
  | s :: _ =>
    let no := (m.svc.trace.triggerNo + 1) % 65536
    let m1 := (m.setTrace (fun t => { t with triggerNo := no })).trigger s no m.fab.deviceId m.ftc
    let m2 := if bit m.svc.trace.triggerMask 7 ∧ m.fab.deviceId ≠ 0xFFFF then
        m1.sendLocalAll (m1.localPacket 0x06 0 (freezeTriggerPayload no m.fab.deviceId s m.ftc)) 16 else m1
    m2.setTrace (fun t => { t with sources := 0 })

/-- Raise a trigger source. -/
def Mod.source (m : Mod) (i : Nat) : Mod := m.setTrace (fun t => { t with sources := setBit t.sources i })

/-! ### Answers of the meanings -/

/-- The state when a command has changed the module: the triggers that it raised have acted. -/
def State.after (s : State) (m : Mod) : State := { s with mach := m.settle }

/-- A command whose effect is a change of the module: the change, then the triggers it raised. -/
def State.act (s : State) (f : Mod → Mod) : Out := .next (s.after (f s.mach))

/-- A command whose effect reads the fuses. -/
def State.actF (s : State) (f : Fuses → Mod → Mod) : Out := .next (s.after (f s.fuses s.mach))

/-- A command whose effect may burn fuses. -/
def State.burn (s : State) (f : Fuses → Mod → Fuses × Mod) : Out :=
  .next { s with mach := (f s.fuses s.mach).2.settle, fuses := (f s.fuses s.mach).1 }

end Sys2Proof.Machine
end

