-- ==== Sys2Proof/Machine/Serve.lean ====
section
/-! DEFINITION. How the Gaffer serves the channels (spec/02_control_model.md): identities and permissions, the order of
service, the checks before a command, the posting of results, and the life of contexts. -/
namespace Sys2Proof.Machine

/-- A command being served: its channel, requester, copied slot, the module's fuses and what has been resolved. -/
structure Req where
  ch : Nat
  owner : Owner
  slot : Mem
  fuses : Fuses
  /-- The target partition (R661). -/
  part : Option Nat
  manager : Bool
  deriving DecidableEq, Repr

/-- What a command answers: status, CONTEXT_ID, DETAIL and result DATA (R59). `.pending` leaves it in service. -/
structure Reply where
  status : Status
  context : Nat := 0
  detail : Nat := 0
  data : List Byte := []
  deriving DecidableEq, Repr

/-- A mailbox command: the effect on the module and the answer. -/
abbrev Cmd := Req → Mod → Mod × Reply

def slotOpcode (s : Mem) : Nat := Mem.rdLE s 0 2
def slotFlags (s : Mem) : Nat := Mem.rdLE s 2 2
def slotArgLen (s : Mem) : Nat := Mem.rdLE s 4 2
def slotPart (s : Mem) : Nat := Mem.rdLE s 6 1
def slotTag (s : Mem) : Nat := Mem.rdLE s 8 8

/-- The slot as a command reads it: the header and the ARG_LEN bytes of ARGS that are in use. What an argument byte past ARG_LEN reads is not
stated (R57): it is a free value (log 12). -/
def argSlot (s : Mem) : Mem :=
  s.filter (fun c => decide (c.1 < 0x10 + slotArgLen s)) ++
    (List.range (240 - slotArgLen s)).map (fun i => (0x10 + slotArgLen s + i, Config.unusedArg i (Mem.rd s (0x10 + slotArgLen s + i))))

/-- `n` bytes of ARGS from offset `off`, as a number (R57). -/
def slotArg (s : Mem) (off n : Nat) : Nat := Mem.rdLE s (0x10 + off) n

def Req.arg (r : Req) (off n : Nat) : Nat := slotArg r.slot off n
def Req.noRing (r : Req) : Bool := bit (slotFlags r.slot) 0
def Req.tag (r : Req) : Nat := slotTag r.slot
def Req.opcode (r : Req) : Nat := slotOpcode r.slot
def Req.ld (r : Req) : Option Nat := r.owner.ldNo
/-- The target partition; commands that need one have been refused without it. -/
def Req.partD (r : Req) : Nat := r.part.getD 64

/-- BAD_ARGUMENT with DETAIL the command-slot offset of the field at ARGS offset `off` (R59). -/
def badArg (m : Mod) (off : Nat) : Mod × Reply := (m, { status := .badArgument, detail := 0x10 + off })

def fail (m : Mod) (st : Status) (detail : Nat := 0) : Mod × Reply := (m, { status := st, detail := detail })

def done (m : Mod) (data : List Byte := []) : Mod × Reply := (m, { status := .ok, data := data })

/-- The first reserved range that is not zero, as BAD_ARGUMENT (R6): pairs of ARGS offset and length. -/
def reserved (r : Req) (l : List (Nat × Nat)) : Option Nat := (l.find? (fun p => r.arg p.1 p.2 != 0)).map (fun p => p.1)

/-! ### Identities, permissions and the opcode table -/

inductive Perm where
  | any | tenant | manager | signed
  deriving DecidableEq, Repr

/-- The permission class of an opcode; none when the opcode is not in the opcode table (R79, R81). -/
def permOf (op : Nat) : Option Perm :=
  let g := op / 256
  let i := op % 256
  let upTo := fun (n : Nat) (p : Perm) => if i < n then some p else none
  match g with
  | 0x00 => upTo 4 .any
  | 0x01 => if i < 3 then some .any else upTo 8 .tenant
  | 0x02 => if i < 4 then some .manager else upTo 7 .tenant
  | 0x03 => upTo 7 .tenant
  | 0x04 => upTo 8 .tenant
  | 0x05 => upTo 4 .tenant
  | 0x06 => upTo 3 .tenant
  | 0x07 => upTo 5 .tenant
  | 0x08 => upTo 5 .tenant
  | 0x09 => if i < 4 then some .manager else upTo 5 .tenant
  | 0x0A => if i = 2 then some .manager else upTo 5 .tenant
  | 0x0B => if i < 3 then some .manager else upTo 4 .any
  | 0x0C => if i < 3 then some .tenant else if i = 8 then some .tenant else upTo 8 .manager
  | 0x0D => if i = 3 ∨ i = 4 then some .tenant else if i = 6 then some .any else upTo 6 .manager
  | 0x0E => if i = 1 ∨ i = 3 then some .any else upTo 4 .manager
  | 0x0F => if i = 6 then some .any else upTo 6 .signed
  | _ => none

/-- The module-wide events: those of R90's table and those that their chapters state to require F permission. -/
def moduleEvents : List Nat :=
  [0x0310, 0x0311, 0x0312, 0x0313, 0x0901, 0x0A02, 0x0B02, 0x0B04, 0x0C02, 0x0C03, 0x0D01, 0x0D02, 0x0D03, 0x0D04, 0x0E01, 0x0E02, 0x0E03, 0x0E04]

/-- The event codes that the manual defines (R90). -/
def eventCodes : List Nat :=
  moduleEvents ++ [0x0201, 0x0301, 0x0302, 0x0401, 0x0601, 0x0701, 0x0702, 0x0A01, 0x0B01, 0x0B03, 0x0C01, 0x0C04, 0x0D05]

/-- Whether the command, in the form its slot gives, needs a target partition (R661). -/
def needsPart (slot : Mem) : Bool :=
  let op := slotOpcode slot
  let g := op / 256
  if g = 0x00 ∨ g = 0x0B ∨ g = 0x0E ∨ g = 0x0F then false
  else if op = 0x0100 ∨ op = 0x0101 ∨ op = 0x0102 then false
  else if op = 0x0103 ∨ op = 0x0104 then
    !moduleEvents.contains (slotArg slot 0 2)
  else if op = 0x0306 then false
  else if op = 0x0900 ∨ op = 0x0902 ∨ op = 0x0903 ∨ op = 0x0904 then false
  else if op = 0x0A00 then slotArg slot 0 1 != 1
  else if op = 0x0A01 then slotArg slot 0x0A 1 != 1
  else if op = 0x0A02 then false
  else if op = 0x0C00 ∨ op = 0x0C01 ∨ op = 0x0C02 then slotArg slot 0 1 != 1
  else if op = 0x0C03 ∨ op = 0x0C04 ∨ op = 0x0C05 ∨ op = 0x0C06 ∨ op = 0x0C07 then false
  else if op = 0x0D00 ∨ op = 0x0D01 ∨ op = 0x0D02 ∨ op = 0x0D05 ∨ op = 0x0D06 then false
  else true

/-- A requester's own partition: the partition that binds the LD (R76, R661). -/
def Mod.ownPart (m : Mod) (o : Owner) : Option Nat :=
  match o.ldNo with
  | some l => (Tbl.find m.mem.lds l).map (fun b => b.partition)
  | none => none

/-- FLAGS of the owner configuration in force; 0 without one (R603). -/
def Boot.flags (b : Boot) : Nat := b.configInForce.elim 0 (fun c => (c.getD 1 0).toNat)

/-- An MCTP endpoint on the sideband I3C bus. -/
def isSideband : Owner → Bool
  | .mctp md _ => md = 0
  | _ => false

/-- The requester is on the manager list, or counts as on it while the list is empty; with SIDEBAND_ONLY only the entries of the sideband
bus count (R602). -/
def Mod.isManager (m : Mod) (o : Owner) : Bool :=
  if m.boot.managers = [] then [0, 1, 4].contains m.boot.lifecycle || isSideband o
  else m.boot.managers.contains o && (!bit m.boot.flags 0 || isSideband o)

/-- The command that a slot gives is one that DEBUG_MASK opens to any channel owner (R601): the F commands of group 0x0C at global scope,
ERROR_LOG_READ with SCOPE 1, the F commands of group 0x0B. -/
def debugOpen (mask : Nat) (slot : Mem) : Bool :=
  let op := slotOpcode slot
  (bit mask 0 && ((op / 256 = 0x0C && 3 ≤ op % 256 && op % 256 ≤ 7) || (0x0C00 ≤ op && op ≤ 0x0C02 && slotArg slot 0 1 = 1))) ||
  (bit mask 1 && op = 0x0A01 && slotArg slot 0x0A 1 = 1) || (bit mask 2 && op / 256 = 0x0B && op % 256 < 3)

/-- The target partition that the PARTITION field names (R661). -/
def Mod.targetPart (m : Mod) (o : Owner) (slot : Mem) : Option Nat :=
  if slotPart slot < 64 then some (slotPart slot) else if slotPart slot = 0xFF then m.ownPart o else none

/-! ### Order of service (R44, R45, R66) -/

/-- The requester partition under which a command counts: a partition, or an identity of its own (R45). -/
def Mod.serviceKey (m : Mod) (o : Owner) : Option Nat × Option Owner :=
  match m.ownPart o with
  | some p => (some p, none)
  | none => (none, some o)

/-- Commands in service that count under a key. -/
def Mod.inService (m : Mod) (k : Option Nat × Option Owner) : Nat :=
  (m.gaffer.order.filter (fun ch => match Tbl.find m.chans ch with
    | some c => (match c.inflight with | some f => f.started | none => false) && m.serviceKey c.owner = k
    | none => false)).length

/-- The command of the channel has not been taken into service and its requester has fewer than 64 in service (R45). -/
def Mod.canStart (m : Mod) (ch : Nat) : Bool :=
  match Tbl.find m.chans ch with
  | some c => (match c.inflight with | some f => !f.started | none => false) && decide (m.inService (m.serviceKey c.owner) < 64)
  | none => false

/-- The channel whose command the Gaffer takes next: identities on the manager list first, then doorbell order (R45). -/
def Mod.nextChan (m : Mod) : Option Nat :=
  let mgr := fun ch => match Tbl.find m.chans ch with | some c => m.isManager c.owner | none => false
  match m.gaffer.order.find? (fun ch => mgr ch && m.canStart ch) with
  | some ch => some ch
  | none => m.gaffer.order.find? m.canStart

/-- Mailbox service runs: the module is powered, the Gaffer has been started from a verified image or the module is in recovery, and a
Gaffer pair is left (R44, R589, R590). -/
def Mod.gafferUp (m : Mod) : Bool :=
  m.pow.phase = .on && !m.pow.modReset && 3 ≤ m.boot.step && !(m.gaffer.fault0 && m.gaffer.fault1)

/-- The domain that the opcode's group needs is powered (R66, R80); FAILED_REPLACE rests at P2 and serves its commands there (R514, R563). -/
def Mod.awakeFor (m : Mod) (op : Nat) : Bool :=
  decide (m.pow.rung ≤ 1) || m.boot.readiness == .failedReplace || [0x00, 0x01, 0x02, 0x09, 0x0E, 0x0F].contains (op / 256)

def Mod.mayServe (m : Mod) (ch : Nat) (fl : InFlight) : Bool := fl.started || m.nextChan = some ch

/-! ### Posting results (R59 to R64) -/

/-- The result slot of a reply (R59). -/
def resultSlot (op tag : Nat) (rep : Reply) : Mem :=
  Mem.ofBytes (leBytes 2 op ++ leBytes 2 rep.status.code ++ leBytes 2 rep.data.length ++ leBytes 2 0 ++ leBytes 8 tag ++
    leBytes 4 rep.context ++ leBytes 4 rep.detail ++ rep.data)

/-- Post the final status of the channel's command: the result slot in full, then the status word (R63). The result of a
command of a closing channel is discarded (R55). -/
def Mod.post (m : Mod) (ch : Nat) (rep : Reply) : Mod :=
  match Tbl.find m.chans ch with
  | none => m
  | some c =>
    match c.inflight with
    | none => m
    | some fl =>
      let m1 := { m with gaffer := { m.gaffer with order := m.gaffer.order.erase ch }, bufs := m.bufs.filter (fun b => b.key != ch) }
      let m2 := m1.setChan ch (fun c =>
        if c.closing then { c with inflight := none }
        else { c with inflight := none, res := resultSlot (slotOpcode fl.slot) (slotTag fl.slot) rep,
                      status := BitVec.ofNat 32 (c.seq.toNat * 65536 + rep.status.code) })
      let m3 := m2.traceEv 0 0x07 ((m.ownPart c.owner).getD 0xFF) (slotOpcode fl.slot) (slotTag fl.slot % 2 ^ 32) rep.status.code rep.context
      match c.owner.ldNo with
      | some l => if c.closing then m3 else m3.setIntx l 1 1
      | none => m3

/-! ### The checks before a command (R6, R76 to R78, R185, R661) -/

/-- Refused while DRAINING, by opcode and form alone (R78). -/
def refusedDraining (slot : Mem) : Bool :=
  let op := slotOpcode slot
  [0x0203, 0x0300, 0x0301, 0x0302, 0x0304, 0x0305, 0x0400, 0x0402, 0x0403, 0x0405, 0x0500, 0x0501, 0x0502, 0x0600, 0x0601,
   0x0700, 0x0701, 0x0800, 0x0801, 0x0A00, 0x0A03, 0x0B01, 0x0C08, 0x0F02, 0x0F03, 0x0F04].contains op ||
  (op = 0x0D03 && [0, 1, 5, 6].contains (slotArg slot 0 1))

/-- Runs in FAILED_REPLACE (R78). -/
def runsFailed (op : Nat) : Bool := op / 256 = 0 || op = 0x0A01 || op = 0x0C07 || op = 0x0F02

/-- The refusal that a command meets before its own checks, in the order: readiness (R77; in recovery R589, in END R598), the refusals of
DRAINING and FAILED_REPLACE, which the opcode and form alone decide (R78), slot fields, target partition, permission, partition state. -/
def Mod.turnedAway (m : Mod) (r : Req) : Option Reply :=
  let op := slotOpcode r.slot
  let bad := fun (d : Nat) => some { status := .badArgument, detail := d : Reply }
  let denied := fun (d : Nat) => some { status := .notPermitted, detail := d : Reply }
  let early := if m.boot.recovery then [0x0000, 0x0001, 0x0F06, 0x0F00] else if m.boot.lifecycle = 5 then [0x0000, 0x0001, 0x0F06] else [0x0000, 0x0001]
  if m.boot.readiness = .booting ∧ !early.contains op then some { status := .notReady }
  else if m.boot.readiness = .draining ∧ refusedDraining r.slot then denied 0x0D01
  else if m.boot.readiness = .failedReplace ∧ !runsFailed op then denied 0x0D02
  else if slotFlags r.slot / 2 ≠ 0 then bad 0x02
  else if 240 < slotArgLen r.slot then bad 0x04
  else if Mem.rdLE r.slot 7 1 ≠ 0 then bad 0x07
  else if needsPart r.slot ∧ r.part = none then bad 0x06
  else
    let allowed := match permOf op with
      | some .any => true
      | some .tenant => r.manager || (r.part.isSome && r.part == m.ownPart r.owner)
      | some .manager => r.manager
      | some .signed => r.manager
      | none => false
    if !allowed then denied (if permOf op = some .signed then 0x0F01 else 0)
    else if needsPart r.slot ∧ op ≠ 0x0200 then
      match Tbl.find m.mem.parts r.partD with
      | none => denied 0x0201
      | some p => if p.state = .destroying ∧ op ≠ 0x0204 ∧ op ≠ 0x0105 then denied 0x0201 else none
    else none

/-- The request of a channel's in-flight command. -/
def Mod.reqOf (m : Mod) (fz : Fuses) (ch : Nat) (c : Chan) (fl : InFlight) : Req :=
  { ch := ch, owner := c.owner, slot := argSlot fl.slot, fuses := fz, part := m.targetPart c.owner fl.slot,
    manager := m.isManager c.owner || debugOpen m.boot.debugMask (argSlot fl.slot) }

/-- Mark the command as taken into service. -/
def Mod.start (m : Mod) (ch : Nat) : Mod :=
  m.setChan ch (fun c => { c with inflight := c.inflight.map (fun f => { f with started := true }) })

/-- The answer to an opcode that is not in the opcode table: BAD_OPCODE (R79), before the module is ready NOT_READY (R77), and in
FAILED_REPLACE NOT_PERMITTED (R78). -/
def Mod.unknownReply (m : Mod) : Reply :=
  match m.boot.readiness with
  | .booting => { status := .notReady }
  | .failedReplace => { status := .notPermitted, detail := 0x0D02 }
  | _ => { status := .badOpcode }

/-- Answer every command whose turn has come and whose opcode is not in the opcode table. -/
def Mod.serveUnknown (m : Mod) : Nat → Mod
  | 0 => m
  | n + 1 =>
    match m.nextChan with
    | none => m
    | some ch =>
      match Tbl.find m.chans ch with
      | none => m
      | some c =>
        match c.inflight with
        | none => m
        | some fl =>
          if m.gafferUp ∧ permOf (slotOpcode fl.slot) = none then
            (m.post ch m.unknownReply).serveUnknown n
          else m

/-- A command of channel `ch` can be carried out now: it is the channel's pending command, in the row's form, its turn has
come, and the units that it needs are up. -/
def Mod.servable (m : Mod) (ch op : Nat) (form : Mem → Bool) : Option (Chan × InFlight) :=
  match Tbl.find m.chans ch with
  | none => none
  | some c =>
    match c.inflight with
    | none => none
    | some fl =>
      if slotOpcode fl.slot = op ∧ form (argSlot fl.slot) ∧ m.gafferUp ∧ m.awakeFor op ∧ m.mayServe ch fl then some (c, fl) else none

/-- Carry out the pending command of a channel: the checks, the command, its result. With no such command, or not its
turn, the row has no effect. -/
def Mod.serveF (m : Mod) (fz : Fuses) (ch op : Nat) (form : Mem → Bool)
    (cmd : Req → Fuses → Mod → (Fuses × Mod) × Reply) : Fuses × Mod :=
  match m.servable ch op form with
  | none => (fz, m)
  | some (c, fl) =>
    let m1 := m.start ch
    let r := m1.reqOf fz ch c fl
    match m1.turnedAway r with
    | some rep => (fz, (m1.post ch rep).serveUnknown m1.gaffer.order.length)
    | none =>
      let x := cmd r fz m1
      if x.2.status = .pending then x.1
      else (x.1.1, (x.1.2.post ch x.2).serveUnknown x.1.2.gaffer.order.length)

/-- The same for a command that leaves the fuses alone. -/
def Mod.serve (m : Mod) (fz : Fuses) (ch op : Nat) (form : Mem → Bool) (cmd : Cmd) : Mod :=
  match m.servable ch op form with
  | none => m
  | some (c, fl) =>
    let m1 := m.start ch
    let r := m1.reqOf fz ch c fl
    match m1.turnedAway r with
    | some rep => (m1.post ch rep).serveUnknown m1.gaffer.order.length
    | none =>
      let x := cmd r m1
      if x.2.status = .pending then x.1 else (x.1.post ch x.2).serveUnknown x.1.gaffer.order.length

/-- Every form of the opcode. -/
def anyForm (_ : Mem) : Bool := true

/-- A mailbox row of the table: serve channel `ch` with the command. -/
def State.mailbox (s : State) (ch : ChanNo) (op : Nat) (form : Mem → Bool) (cmd : Cmd) : Out :=
  s.actF (fun fz m => m.serve fz ch.toNat op form cmd)

/-! ### Contexts (R84 to R87, R217) -/

/-- Context slots that a partition uses. -/
def Mod.ctxsUsed (m : Mod) (part : Nat) : Nat :=
  (m.ctxs.filter (fun c => c.2.partition = part && c.2.state != .free)).length

/-- Contexts that an LD holds (R217). -/
def Mod.ctxsHeld (m : Mod) (l : Nat) : Nat :=
  (m.ctxs.filter (fun c => c.2.holder = some l && c.2.state != .free && c.2.obj != .none)).length

/-- The lease of an LD leaves IDLE when a holder context is created, and returns to it when the last closes (R217). -/
def Mod.leaseSync (m : Mod) (l : Nat) : Mod :=
  { m with mem := { m.mem with lds := Tbl.upd m.mem.lds l (fun b =>
      if b.lease = .idle ∧ 0 < m.ctxsHeld l then { b with lease := .live, since := m.localTime }
      else if b.lease ≠ .idle ∧ b.lease ≠ .cleanup ∧ m.ctxsHeld l = 0 then { b with lease := .idle, since := m.localTime }
      else b) } }

/-- Context slots that commands use, all partitions together. -/
def Mod.ctxsInUse (m : Mod) : Nat := (m.ctxs.filter (fun c => c.2.state != .free)).length

/-- The contexts that a partition's commands may use: its quota. DESIGN CHOICE (log 76): commands with no target partition, whose quota the
spec does not name, share what the quotas leave of the 64,512 slots (R84). -/
def Mod.ctxQuota (m : Mod) (part : Nat) : Nat :=
  match Tbl.find m.mem.parts part with
  | some p => p.quota
  | none => 64512 - sumOf (m.mem.parts.map (fun p => p.2.quota))

/-- Create a context for the request, or the refusal: the LD is in CLEANUP (R219), the quota is used up, or only the 1,024 slots are left that
are reserved for internal engines (R84). -/
def Mod.newCtx (m : Mod) (r : Req) (work : Work) (obj : Obj) (window : Option Window) : Mod × (Nat ⊕ Reply) :=
  let part := r.partD
  let inCleanup := match r.ld with
    | some l => (match Tbl.find m.mem.lds l with | some b => b.lease == LeaseState.cleanup | none => false)
    | none => false
  if inCleanup then (m, .inr { status := .notPermitted, detail := 0x0202 })
  else if m.ctxQuota part ≤ m.ctxsUsed part ∨ 64512 ≤ m.ctxsInUse then (m, .inr { status := .noResource })
  else
    let free := fun n => match Tbl.find m.ctxs n with | some c => c.state == CtxState.free | none => true
    match m.chooseFrom 65536 free with
    | (none, m1) => (m1, .inr { status := .noResource })
    | (some n, m1) =>
      let g := match Tbl.find m.ctxs n with | some c => (if c.gen = 0xFFFF then 1 else c.gen + 1) | none => 1
      let c : Ctx :=
        { gen := g, state := .active, partition := part, tag := r.tag, opcode := r.opcode, progress := 0, final := .pending,
          detail := 0, data := 0, chan := r.ch, noRing := r.noRing, chanOwner := r.owner, pastPonr := false, work := work,
          obj := obj, window := window, holder := r.ld, viewWriteLogged := false }
      let m2 := { m1 with ctxs := Tbl.put m1.ctxs n c }
      (match r.ld with | some l => if obj == Obj.none then m2 else m2.leaseSync l | none => m2, .inl n)

/-- The ID of a context slot. -/
def Mod.idOf (m : Mod) (slot : Nat) : Nat := match Tbl.find m.ctxs slot with | some c => ctxId slot c | none => 0

/-- Start work under a new context and answer ACCEPTED (R65). -/
def Mod.accept (m : Mod) (r : Req) (work : Work) : Mod × Reply :=
  match m.newCtx r work .none none with
  | (m1, .inr rep) => (m1, rep)
  | (m1, .inl n) => (m1, { status := .accepted, context := m1.idOf n })

/-- The work of a context ends with its final status: the context becomes COMPLETE and its record goes to the ring of its
channel, unless NO_RING (R65, R69, R86). DESIGN CHOICE (log 76): Progress reads 0 until work ends with OK, which makes it 1,000. -/
def Mod.finish (m : Mod) (slot : Nat) (st : Status) (detail data : Nat) : Mod :=
  match Tbl.find m.ctxs slot with
  | none => m
  | some c =>
    if c.state = .free ∨ c.state = .complete then m
    else
      let m1 := m.setCtx slot (fun c => { c with state := .complete, final := st, detail := detail, data := data, work := .none,
                                                  progress := if st = .ok then 1000 else c.progress })
      if c.noRing then m1
      else m1.ringRecord c.chan { tag := c.tag, context := ctxId slot c, status := st, kind := 0, code := c.opcode, detail := detail, data := data }

/-- Close a lasting context: its slot becomes FREE, its window closes with it, and its holder's lease follows (R86, R217). -/
def Mod.freeCtx (m : Mod) (slot : Nat) : Mod :=
  match Tbl.find m.ctxs slot with
  | none => m
  | some c =>
    let m1 := m.setCtx slot (fun c => { c with state := .free, tag := 0, opcode := 0, progress := 0, final := .ok, detail := 0,
                                               data := 0, work := .none, obj := .none, window := none, holder := none })
    match c.holder with | some l => m1.leaseSync l | none => m1

/-- The context that an ID names when its generation is current (R85). -/
def Mod.findCtx (m : Mod) (id : Nat) : Option (Nat × Ctx) :=
  match Tbl.find m.ctxs (id % 65536) with
  | some c => if id ≠ 0 ∧ c.gen.toNat = id / 65536 then some (id % 65536, c) else none
  | none => none

/-- The same for a context that is in use and of the partition. -/
def Mod.liveCtx (m : Mod) (id part : Nat) : Option (Nat × Ctx) :=
  match m.findCtx id with
  | some (n, c) => if c.state ≠ .free ∧ c.partition = part then some (n, c) else none
  | none => none

end Sys2Proof.Machine
end

