-- ==== Sys2Proof/Machine/Wake.lean ====
section
/-! DEFINITION. Changes of rung that lose nothing, and what activity does to a descent (spec/18_power_coolant_rungs.md R563, R566, R578). -/
namespace Sys2Proof.Machine

/-- The B-dies are powered and their oscillators run, so that a port's pins are driven (R22, R562, R590). -/
def Mod.bdiesUp (m : Mod) : Bool := m.pow.phase = .on && !m.pow.modReset && 3 ≤ m.boot.step

/-- Drive the pins of one kind that have changed. -/
def Mod.drivePorts (m : Mod) (names : List String) (old new : List Bool) : Mod :=
  m.each ((List.range new.length).filter (fun i => old.getD i false != new.getD i false)) (fun m i =>
    m.each names (fun m n => m.send (.portPin n i (new.getD i false))))

/-- Drive the pins of the downstream and fabric ports to what the state gives: with a device present DREFCLK, while the B-dies' clocks can
run, and DPERST# released (R408); VCBL_3V3 and then FCBL_RST# while FPRSNT# is asserted and no cable fault stands (R27, R654). -/
def Mod.syncPorts (m : Mod) : Mod :=
  let p := m.pow
  let near := m.bdiesUp && decide (p.rung ≤ 2)
  let clk := (List.range 8).map (fun d => near && p.dsPrsnt.getD d false)
  let rst := (List.range 8).map (fun d => m.bdiesUp && p.dsPrsnt.getD d false)
  let sup := (List.range 16).map (fun i => near && p.fPrsnt.getD i false && !p.cableFault.getD (i / 4) false)
  (((m.drivePorts ["DREFCLK"] p.dRefclkOut clk).drivePorts ["DPERST#"] p.dPerstOut rst).drivePorts ["VCBL_3V3", "FCBL_RST#"] p.vcblOut sup).setPow
    (fun p => { p with dPerstOut := rst, dRefclkOut := clk, vcblOut := sup })

/-- The module is at another rung: RUNG_CHANGE is traced, MODULE is set (R536, R636), and the trace is written again at P0 and P1 (R537). -/
def Mod.setRung (m : Mod) (r : Nat) : Mod :=
  if m.pow.rung = r then m
  else
    let old := m.pow.rung
    let m1 := ((m.setPow (fun p => { p with rung := r })).traceEv 1 0x0C 0xFF (old * 16 + r) 0 0 0).moduleChanged
    let m2 := if r ≤ 1 ∧ 2 ≤ old then m1.traceResume else m1
    m2.syncPorts

/-- Activity abandons a preparation and a descent that MODE NOW asked for: its command ends with ABORTED (R563, R573, R578). -/
def Mod.activity (m : Mod) : Mod :=
  let m1 := m.setPow (fun p => { p with preparing := false, nowCtx := none })
  match m.pow.nowCtx with
  | some c => m1.finish c .aborted 0 0
  | none => m1

/-- A wake by cause (LAST_WAKE of R574) that raises a module at P2 or above; its exit takes the time that LAST_EXIT_NS reports, which is a
free value. FAILED_REPLACE rests at P2 (R563). -/
def Mod.wakeNear (m : Mod) (cause r : Nat) : Mod :=
  let m1 := m.activity
  if m1.pow.rung ≤ r ∨ 2 < m1.pow.rung ∨ m1.boot.readiness = .failedReplace then m1
  else
    let f := m1.freeVal
    (f.2.setPow (fun p => { p with lastExitNs := f.1 % 2 ^ 32, lastWake := cause })).setRung r

end Sys2Proof.Machine
end

