-- ==== Sys2Proof/Machine/Channels.lean ====
section
/-! DEFINITION. The channel rows of the table: binding and closing a channel, doorbells, CHN_ERR, the ring's tail, and
the channel access messages (spec/02_control_model.md R46 to R75). -/
namespace Sys2Proof.Machine

/-! ### Access to an LD's functions -/

/-- Configuration offset of PMCSR (PRESUMED: the PM capability stands at 0x40; spec/14_host_ports.md R438 gives the
capability and no place). -/
def pmcsrOffset : Nat := 0x44

/-- The function is in D3hot (R440). -/
def Function.inD3 (f : Function) : Bool := Mem.rdLE f.cfg pmcsrOffset 1 % 4 = 3

/-- A memory request of the LD to function `fn` is answered as an unsupported request: its reset is in progress (R451) or
it is in D3hot (R440). -/
def Mod.blocked (m : Mod) (l fn : Nat) : Bool := ((m.ld l).func fn).reset != 0 || ((m.ld l).func fn).inD3

/-- Report an error of a function through its AER registers: a bit of the uncorrectable (or, from 32, of the correctable) error status, and
one of Device Status (R438, R440, R459; PRESUMED places: the layout of log 5). -/
def Mod.aer (m : Mod) (l fn b dev : Nat) : Mod :=
  let a := if b < 32 then 0x104 + b / 8 else 0x110 + (b - 32) / 8
  let set := fun (c : Mem) (a i : Nat) => Mem.wr c a (Mem.rd c a ||| BitVec.ofNat 8 (2 ^ i))
  m.setLd l (fun d => d.setFunc fn (fun f => { f with cfg := set (set f.cfg a (b % 8)) 0x52 dev }))

/-- Log HOST_UR, at most once per function per second, and answer with UR (R440, R460). -/
def Mod.hostUR (m : Mod) (l fn : Nat) : Mod :=
  let m1 := (m.aer l fn 20 3).send (.unsupported l fn)
  if ((m.ld l).func fn).urSecond = some m.second then m1
  else (m1.setLd l (fun d => d.setFunc fn (fun f => { f with urSecond := some m.second }))).logErr
    { unit := 0x6000 + l / 16, code := 0x0601, sev := .info, opn := .none, context := 0x8000 + l }

/-- The functions of an LD are presented: from step 3 of bring-up, with the port's link up; in recovery LD 0 of each port alone (R589, R590). -/
def Mod.presented (m : Mod) (l : Nat) : Bool :=
  m.pow.phase = .on && !m.pow.modReset && 3 ≤ m.boot.step && (m.port (l / 16)).mode != .down &&
    (l % 16 = 0 || ((m.port (l / 16)).mode = .mld && !m.boot.recovery))

/-- Both Gaffer pairs have a fault: mailbox service has stopped, and only the identity and status registers and the wake logic answer
(R44). -/
def Mod.gafferDead (m : Mod) : Bool := m.gaffer.fault0 && m.gaffer.fault1

/-- The medium of an MCTP endpoint brings messages in: the sideband while SB_VREF stands (R650), PCIe VDM while the host port is up (R435,
R49). -/
def Mod.mediumUp (m : Mod) (md : Nat) : Bool :=
  if md = 0 then !m.pow.sbVrefLow else decide (md ≤ 4) && (m.port (md - 1)).mode != .down

/-- Apply an access of a requester to a channel page: a host LD through BAR2 of its management function, or UR (R440, R451); an MCTP
endpoint whose medium is up; any other once channel pages answer (R645). With a fault in both Gaffer pairs nothing answers (R44). -/
def Mod.viaBar2 (m : Mod) (who : Owner) (f : Mod → Mod) : Mod :=
  if m.gafferDead then m
  else
    match who with
    | .ld id => if !m.presented id.toNat then m else let m := m.backToL0 id.toNat; if m.blocked id.toNat 1 then m.hostUR id.toNat 1 else f m
    | .mctp md _ => if m.pow.phase = .on ∧ !m.pow.modReset ∧ 3 ≤ m.boot.step ∧ m.mediumUp md.toNat then f m else m
    | _ => if m.pow.phase = .on ∧ !m.pow.modReset ∧ 3 ≤ m.boot.step then f m else m

/-! ### Owning a channel (R52 to R56) -/

/-- The state of a channel just bound to an identity: every field at its reset value (R52, R55). -/
def Chan.init (who : Owner) : Chan :=
  { owner := who, closing := false, seq := 0, err := 0, head := 0, lost := 0, tail := 0, cmd := [], res := [], status := 0,
    inflight := none, ring := none, held := [], subs := [] }

/-- A write of OPEN = 1: binds a free channel to the writer; on a bound or closing channel it has no effect (R52, R53). -/
def Mod.openChan (m : Mod) (ch : Nat) (who : Owner) : Mod :=
  if Tbl.has m.chans ch then m else { m with chans := Tbl.put m.chans ch (Chan.init who) }

/-- A write of OPEN = 0 by the owner: the channel reads CLOSING from here (R55). -/
def Mod.closeChan (m : Mod) (ch : Nat) (who : Owner) : Mod :=
  m.setChan ch (fun c => if c.owner = who then { c with closing := true } else c)

/-- A close by the module, as if the owner had written OPEN = 0 (R56). -/
def Mod.moduleClose (m : Mod) (ch : Nat) : Mod := m.setChan ch (fun c => { c with closing := true })

/-- Close every channel whose owner passes the test (R56). -/
def Mod.closeWhere (m : Mod) (p : Owner → Bool) : Mod :=
  { m with chans := Tbl.mapV m.chans (fun _ c => if p c.owner then { c with closing := true } else c) }

/-- The channel becomes free: every field of its page at its reset value, its completion bit cleared, and its contexts left
to their partition with no ring (R55, R454). -/
def Mod.freeChan (m : Mod) (ch : Nat) : Mod :=
  match Tbl.find m.chans ch with
  | none => m
  | some c =>
    let m1 := { m with chans := Tbl.del m.chans ch, gaffer := { m.gaffer with order := m.gaffer.order.erase ch },
                       ctxs := Tbl.mapV m.ctxs (fun _ x => if x.chan = ch then { x with noRing := true } else x),
                       mvs := Tbl.mapV m.mvs (fun _ x => if x.startChan = ch then { x with startNoRing := true } else x) }
    match c.owner.ldNo with
    | some l => (m1.setLd l (fun d => { d with chnPend := d.chnPend.erase ch })).syncIntx l 1
    | none => m1

/-- A closing channel with no pending command becomes free (R55). -/
def Mod.chanFree (m : Mod) (ch : Nat) : Mod :=
  match Tbl.find m.chans ch with
  | some c => if c.closing ∧ c.inflight = none then m.freeChan ch else m
  | none => m

/-- Free every channel at once: a cold or Gaffer-initiated reset (R56). -/
def Mod.freeAllChans (m : Mod) : Mod := m.each (Tbl.keys m.chans) Mod.freeChan

/-! ### Doorbells (R60 to R62, R66) -/

/-- The sequence number after `s`: it wraps from 0xFFFF to 0x0001 (R50). -/
def nextSeq (s : BitVec 16) : BitVec 16 := if s = 0xFFFF then 1 else s + 1

/-- Accept a doorbell: copy the slot, step SEQ, set the status word to PENDING, clear the result slot, and queue the
command behind the doorbells before it; the Balance domain latches the wake (R60, R66). -/
def Mod.acceptDoorbell (m : Mod) (ch : Nat) (c : Chan) : Mod :=
  let sq := nextSeq c.seq
  let m1 := m.activity.setChan ch (fun c => { c with
    seq := sq, status := BitVec.ofNat 32 (sq.toNat * 65536 + 1), res := [],
    inflight := some { slot := c.cmd, started := false } })
  let m2 := { m1 with gaffer := { m1.gaffer with order := m1.gaffer.order ++ [ch], wakeLatched := true } }
  let m3 := m2.traceEv 0 0x06 ((m.ownPart c.owner).getD 0xFF) (slotOpcode c.cmd) (slotTag c.cmd % 2 ^ 32) ch sq.toNat
  m3.serveUnknown m3.gaffer.order.length

/-- A write of RING = 1: accepted when no command is pending, otherwise it sets DOORBELL_PENDING; while closing it has no
effect (R55, R60, R61). -/
def Mod.ring (m : Mod) (ch : Nat) (who : Owner) : Mod :=
  match Tbl.find m.chans ch with
  | none => m
  | some c =>
    if c.owner ≠ who ∨ c.closing then m
    else if c.inflight ≠ none then m.setChnErr ch 0
    else m.acceptDoorbell ch c

/-! ### The other registers of a channel page -/

/-- A W1C write to CHN_ERR by the owner (R50). -/
def Mod.clearChnErr (m : Mod) (ch : Nat) (who : Owner) (v : Nat) : Mod :=
  m.setChan ch (fun c => if c.owner = who then { c with err := c.err &&& ~~~(BitVec.ofNat 5 v) } else c)

/-- A write to CHN_CRING_TAIL: it takes effect when the channel has a ring and the producer index lies at most a ring's record count beyond
the new value, and the records held while the ring was full are then written; otherwise it is discarded (R72, R641). -/
def Mod.writeTail (m : Mod) (ch : Nat) (who : Owner) (v : Nat) : Mod :=
  match Tbl.find m.chans ch with
  | none => m
  | some c =>
    let t := BitVec.ofNat 32 v
    if c.owner = who ∧ c.ring.elim false (fun r => decide ((c.head - t).toNat ≤ 2 ^ r.log2)) then
      (m.setChan ch (fun c => { c with tail := t })).flushHeld ch 64
    else m

/-- A write by the owner to the result slot or the result status word is discarded and sets RESULT_WRITE (R50). -/
def Mod.resultWrite (m : Mod) (ch : Nat) (who : Owner) : Mod :=
  match Tbl.find m.chans ch with
  | some c => if c.owner = who then m.setChnErr ch 1 else m
  | none => m

/-- A write of bytes to a channel page by a requester (R47, R52): each register takes it as its row of the table does, the
command slot stores it, reserved offsets discard it. -/
def Mod.pageWrite (m : Mod) (who : Owner) (ch off : Nat) (data : List Byte) : Mod :=
  let v := leNat data
  if off = 0x000 then (if v % 2 = 1 then m.openChan ch who else m.closeChan ch who)
  else
    match Tbl.find m.chans ch with
    | none => m
    | some c =>
      if c.owner ≠ who then m
      else if off = 0x008 then (if v % 2 = 1 then m.ring ch who else m)
      else if off = 0x018 then m.clearChnErr ch who v
      else if off = 0x028 then m.writeTail ch who v
      else if 0x100 ≤ off ∧ off < 0x200 then
        m.setChan ch (fun c => { c with cmd := Mem.wrBytes c.cmd (off - 0x100) (data.take (0x200 - off)) })
      else if (0x200 ≤ off ∧ off < 0x300) ∨ off = 0x300 then m.resultWrite ch who
      else m

/-- A write of several bytes to a channel page, as the 4 B accesses that it stands for, in order (R47, R75). -/
def Mod.pageWrites (m : Mod) (who : Owner) (ch off : Nat) (data : List Byte) : Nat → Mod
  | 0 => m
  | n + 1 => if data = [] then m else
      (m.pageWrite who ch off (data.take 4)).pageWrites who ch (off + 4) (data.drop 4) n

/-! ### Reads of a channel page (R47 to R50, R52, R59, R64, R71) -/

/-- CHN_CTRL as a requester reads it: to any but the owner, OPEN = 1 and MINE = 0 alone (R48, R52). -/
def Chan.ctrl (c : Chan) (who : Owner) : Nat :=
  if c.owner = who then c.owner.ident * 2 ^ 32 + c.owner.kind * 2 ^ 28 + 4 * b2n c.closing + 3 else 1

/-- The bytes of a channel page that its owner reads. -/
def Chan.page (c : Chan) (who : Owner) : Mem :=
  let m0 : Mem := Mem.wrLE [] 0x000 8 (c.ctrl who)
  let m1 := Mem.wrLE m0 0x010 8 c.seq.toNat
  let m2 := Mem.wrLE m1 0x018 8 c.err.toNat
  let m3 := Mem.wrLE m2 0x020 8 (c.head.toNat + c.lost.toNat * 2 ^ 48)
  let m4 := Mem.wrLE m3 0x028 8 c.tail.toNat
  m4 ++ c.cmd.map (fun x => (x.1 + 0x100, x.2)) ++ c.res.map (fun x => (x.1 + 0x200, x.2)) ++
    (Mem.wrLE [] 0x300 4 c.status.toNat)

/-- Read `n` bytes of a channel page. A free page reads zeros; to any but the owner a bound page reads zeros but for
CHN_CTRL (R52). -/
def Mod.pageRead (m : Mod) (who : Owner) (ch off n : Nat) : List Byte :=
  match Tbl.find m.chans ch with
  | none => List.replicate n 0
  | some c => if c.owner = who then Mem.rdBytes (c.page who) off n else Mem.rdBytes (Mem.wrLE [] 0 8 (c.ctrl who)) off n

/-- Whether a write of a host LD to BAR2 is an access that a channel page takes (R47, R440): an aligned 4 B or 8 B access to a listed register
or slot, or a whole line of a slot. -/
def pageTakes (off len : Nat) : Bool :=
  let slot := decide (0x100 ≤ off) && decide (off < 0x300)
  ((len = 4 && off % 4 = 0 || len = 8 && off % 8 = 0) && (decide (off < 0x30) || slot || (decide (0x300 ≤ off) && decide (off < 0x304)))) ||
    (len = 64 && off % 64 = 0 && slot)

/-- A write of a host LD to a channel page. On a page that is free or another's, an access that the page would not take is discarded and
never answered as an unsupported request (R52); on a page of its own it is one (R440). -/
def Mod.bar2Write (m : Mod) (l : Nat) (who : Owner) (ch off : Nat) (data : List Byte) : Mod :=
  if pageTakes off data.length then m.pageWrites who ch off data 16
  else if (Tbl.find m.chans ch).elim false (fun c => c.owner = who) then m.hostUR l 1
  else m

/-- CHN_MSG: a channel access message has the effect of the equivalent BAR2 accesses, in order, and is answered by a
RESPONSE (R75). LENGTH is 4 to 256, a multiple of 4, within the page. DESIGN CHOICE (log 76): a message with another LENGTH, an OFFSET that
is not aligned or a page end that it passes is dropped and gets no RESPONSE. -/
def Mod.chnMsg (m : Mod) (who : Owner) (write : Bool) (ch off len : Nat) (data : List Byte) : Mod :=
  if off % 4 ≠ 0 ∨ len % 4 ≠ 0 ∨ len < 4 ∨ 256 < len ∨ 0x1000 < off + len then m
  else if write then (m.pageWrites who ch off (data.take len) 64).send (.chnResponse who ch off 0 [])
  else m.send (.chnResponse who ch off len (m.pageRead who ch off len))

end Sys2Proof.Machine
end

