-- ==== Sys2Proof/Machine/Basic.lean ====
section
/-! DEFINITION. The commands of groups 0x00 and 0x01: identity, status, channels, rings, events and contexts
(spec/02_control_model.md R83 to R90). -/
namespace Sys2Proof.Machine

/-- A number of `n` bytes in result DATA. -/
def le (n v : Nat) : List Byte := leBytes n v

def Readiness.code : Readiness → Nat
  | .booting => 0 | .ready => 1 | .draining => 2 | .failedReplace => 3

/-- T1 capacity found at enumeration, in bytes. -/
def Mod.t1Bytes (m : Mod) : Nat := sumOf ((m.t1.filter (fun p => p.state = .inService || p.state = .retraining)).map (fun p => p.capacity))

/-- Usable T2 capacity: 56 TB or 112 TB (R1, R8), none while T2 is out of service. -/
def Mod.t2Bytes (m : Mod) : Nat := if m.t2.inService then (if m.n128 then 112000000000000 else 56000000000000) else 0

/-- Fenced sliver cores. -/
def Mod.fencedCores (m : Mod) : Nat := (m.test.cores.filter (fun c => c.2.fenced)).length

/-- FW_VERSION of the booted slot. -/
def Mod.fwVersion (m : Mod) : Nat := match m.boot.booted with | some i => (m.boot.slots.getD i FwSlot.init).version | none => 0

/-- Journal replay progress in thousandths; 1,000 once READY (R88). -/
def Mod.bootProgress (m : Mod) : Nat := if m.boot.readiness = .booting then m.boot.progress else 1000

/-- Error records that no reader has read (R88, R489). -/
def Mod.unreadErrors (m : Mod) : Nat := (m.svc.err.recs.filter (fun r => !r.read)).length

/-- Highest junction temperature of the B-dies and C-dies (R88). -/
def Mod.maxTemp (m : Mod) : Int := maxOf (m.pow.bTemps.getD 0 0) (m.pow.bTemps ++ m.pow.cTemps)

/-- Free slots in a partition's quota; 0 for a requester that names no partition (R88, R661). -/
def Mod.freeContexts (m : Mod) (part : Option Nat) : Nat :=
  match part with
  | some p => (match Tbl.find m.mem.parts p with | some x => x.quota - m.ctxsUsed p | none => 0)
  | none => 0

/-- A command that takes no arguments: ARG_LEN must be zero. -/
def noArgs (cmd : Cmd) : Cmd := fun r m =>
  if slotArgLen r.slot ≠ 0 then fail m .badArgument 0x04 else cmd r m

def cmdIdentify : Cmd := noArgs fun r m =>
  done m (le 8 r.fuses.serial ++ le 2 (b2n m.n128) ++ le 2 m.boot.lifecycle ++ le 4 m.fwVersion ++ le 8 m.t1Bytes ++
    le 8 m.t2Bytes ++ le 2 m.fab.deviceId ++ le 2 m.fencedCores)

def cmdGetStatus : Cmd := noArgs fun r m =>
  done m (le 1 m.boot.readiness.code ++ le 1 m.pow.rung ++ le 2 m.bootProgress ++ le 4 m.unreadErrors ++ le 8 m.ftc ++
    le 2 (toTwos 16 m.maxTemp) ++ le 2 (m.freeContexts r.part))

/-- GET_CAPABILITIES, GET_TIME and CHANNEL_INFO: R81 names them and no rule gives their result layout, so their DATA is a
free value of at most 232 bytes. -/
def cmdOpenResult : Cmd := fun _ m =>
  ({ m with freeIx := m.freeIx + 1 }, { status := .ok, data := (Config.freeBytes m.freeIx).take 232 })

def cmdGetCapabilities : Cmd := fun r m => cmdOpenResult r m
def cmdGetTime : Cmd := fun r m => cmdOpenResult r m
def cmdChannelInfo : Cmd := noArgs cmdOpenResult

/-- RING_SETUP (R68, R73, R89): the records held for the old ring go to the new one from index 0, ahead of any later. -/
def cmdRingSetup : Cmd := fun r m =>
  if r.ld = none then fail m .notPermitted
  else if r.arg 0 8 % 4096 ≠ 0 then badArg m 0
  else if r.arg 8 1 < 7 ∨ 15 < r.arg 8 1 then badArg m 8
  else if r.arg 9 1 / 2 ≠ 0 then badArg m 9
  else
    let m1 := m.setChan r.ch (fun c => { c with
      ring := some { base := r.arg 0 8, log2 := r.arg 8 1, irq := bit (r.arg 9 1) 0, disabled := false }, head := 0, tail := 0, lost := 0 })
    done (m1.flushHeld r.ch 64)

/-- RING_TEARDOWN (R89): held records are not written; a lost event or bulk completion sets CRING_LOST. -/
def cmdRingTeardown : Cmd := noArgs fun r m =>
  match Tbl.find m.chans r.ch with
  | none => done m
  | some c =>
    let m1 := m.setChan r.ch (fun c => { c with ring := none, held := [] })
    done (if c.held.any (fun x => x.kind != 0) then m1.setChnErr r.ch 3 else m1)

/-- The subscription that EVENT_SUBSCRIBE and EVENT_UNSUBSCRIBE name: a module-wide event needs F (R90). -/
def eventSub (r : Req) : Option (Nat × Nat) :=
  if moduleEvents.contains (r.arg 0 2) then (if r.manager then some (r.arg 0 2, 64) else none) else some (r.arg 0 2, r.partD)

def cmdEventSubscribe : Cmd := fun r m =>
  if !eventCodes.contains (r.arg 0 2) then badArg m 0
  else
    match eventSub r with
    | none => fail m .notPermitted
    | some e => done (m.setChan r.ch (fun c => { c with subs := if c.subs.contains e then c.subs else c.subs ++ [e] }))

def cmdEventUnsubscribe : Cmd := fun r m =>
  if !eventCodes.contains (r.arg 0 2) then badArg m 0
  else
    match eventSub r with
    | none => fail m .notPermitted
    | some e => done (m.setChan r.ch (fun c => { c with subs := c.subs.erase e }))

def CtxState.code : CtxState → Nat
  | .free => 0 | .active => 1 | .cancelling => 2 | .complete => 3

/-- The context that CONTEXT_STATUS and CONTEXT_CANCEL name: current, and of a partition on which the requester has T
permission (R85). -/
def Mod.ownedCtx (m : Mod) (r : Req) : Option (Nat × Ctx) :=
  match m.findCtx (r.arg 0 4) with
  | some (n, c) => if r.manager ∨ r.part = some c.partition then some (n, c) else none
  | none => none

/-- CONTEXT_STATUS (R86, R89): reading a final status frees the slot. -/
def cmdContextStatus : Cmd := fun r m =>
  match m.ownedCtx r with
  | none => badArg m 0
  | some (n, c) =>
    if c.state = .free then (m, { status := .ok, context := r.arg 0 4, data := le 32 0 })
    else
      let fin := c.state = .complete
      let data := le 1 c.state.code ++ le 1 0 ++ le 2 (if fin then c.final.code else Status.pending.code) ++ le 4 c.progress ++
        le 8 c.tag ++ le 4 (if fin then c.detail else 0) ++ le 4 0 ++ le 8 (if fin then c.data else 0)
      (if fin then m.retireCtx (ctxId n c) else m, { status := .ok, context := r.arg 0 4, data := data })

/-- CONTEXT_LIST (R87's group text): up to 58 IDs of the target partition's contexts in ascending slot order. -/
def cmdContextList : Cmd := fun r m =>
  if slotArgLen r.slot ≠ 0 ∧ slotArgLen r.slot ≠ 4 then fail m .badArgument 0x04
  else
    let ids := (m.ctxs.filter (fun c => c.2.partition = r.partD && c.2.state != .free)).map (fun c => ctxId c.1 c.2)
    let l := (ids.drop (r.arg 0 4)).take 58
    done m (l.flatMap (le 4))

/-! ### The rows -/

/-- IDENTIFY (R88). -/
def execIdentify (ch : ChanNo) (s : State) : Out := s.mailbox ch 0x0000 anyForm cmdIdentify
/-- GET_STATUS (R88). -/
def execGetStatus (ch : ChanNo) (s : State) : Out := s.mailbox ch 0x0001 anyForm cmdGetStatus
/-- GET_CAPABILITIES (R81). -/
def execGetCapabilities (ch : ChanNo) (s : State) : Out := s.mailbox ch 0x0002 anyForm cmdGetCapabilities
/-- GET_TIME (R81). -/
def execGetTime (ch : ChanNo) (s : State) : Out := s.mailbox ch 0x0003 anyForm cmdGetTime
/-- CHANNEL_INFO (R81). -/
def execChannelInfo (ch : ChanNo) (s : State) : Out := s.mailbox ch 0x0100 anyForm cmdChannelInfo
/-- RING_SETUP (R68, R89). -/
def execRingSetup (ch : ChanNo) (s : State) : Out := s.mailbox ch 0x0101 anyForm cmdRingSetup
/-- RING_TEARDOWN (R89). -/
def execRingTeardown (ch : ChanNo) (s : State) : Out := s.mailbox ch 0x0102 anyForm cmdRingTeardown
/-- EVENT_SUBSCRIBE (R90). -/
def execEventSubscribe (ch : ChanNo) (s : State) : Out := s.mailbox ch 0x0103 anyForm cmdEventSubscribe
/-- EVENT_UNSUBSCRIBE (R90). -/
def execEventUnsubscribe (ch : ChanNo) (s : State) : Out := s.mailbox ch 0x0104 anyForm cmdEventUnsubscribe
/-- CONTEXT_STATUS (R89). -/
def execContextStatus (ch : ChanNo) (s : State) : Out := s.mailbox ch 0x0105 anyForm cmdContextStatus
/-- CONTEXT_LIST (R87). -/
def execContextList (ch : ChanNo) (s : State) : Out := s.mailbox ch 0x0107 anyForm cmdContextList

end Sys2Proof.Machine
end

