-- ==== Sys2Proof/Machine/Codec.lean ====
section
/-! DEFINITION. The Frit and Lehr stored formats and the building of Lehr tables (spec/04_frit_and_lehr_formats.md,
spec/05_compression_engines.md R165 to R181): encoders and decoders, bit for bit. -/
namespace Sys2Proof.Machine

/-! ### Bytes and bits (R137) -/

/-- `n` bytes of a store from address `a`, in one pass over the list. -/
def Mem.dense : Mem → Nat → Nat → List Byte
  | _, _, 0 => []
  | [], a, n + 1 => 0 :: Mem.dense [] (a + 1) n
  | (k, v) :: t, a, n + 1 => if k = a then v :: Mem.dense t (a + 1) n else 0 :: Mem.dense ((k, v) :: t) (a + 1) n

/-- The `n` bytes of a store from address `a`. -/
def Mem.block (m : Mem) (a n : Nat) : List Byte := Mem.dense (m.dropWhile (fun c => c.1 < a)) a n

/-- A list of bytes as a store starting at address `a`. -/
def Mem.pack : Nat → List Byte → Mem
  | _, [] => []
  | a, b :: bs => if b = 0 then Mem.pack (a + 1) bs else (a, b) :: Mem.pack (a + 1) bs

/-- Cut a list into `n` pieces of length `k`. -/
def pieces {α : Type} (k : Nat) : Nat → List α → List (List α)
  | 0, _ => []
  | n + 1, l => l.take k :: pieces k n (l.drop k)

/-- The low `w` bits of a number, least significant first. -/
def bitsLsb : Nat → Nat → List Bool
  | 0, _ => []
  | w + 1, v => (v % 2 = 1) :: bitsLsb w (v / 2)

/-- The bits of a byte array, bit 0 of byte 0 first (R137). -/
def bytesToBits (bs : List Byte) : List Bool := bs.flatMap (fun b => bitsLsb 8 b.toNat)

/-- Bits packed into bytes, the last byte filled with zeros (R137). -/
def bitsToBytes : Nat → List Bool → List Byte
  | 0, _ => []
  | n + 1, l => BitVec.ofNat 8 (packBits (l.take 8)) :: bitsToBytes n (l.drop 8)

/-- Insertion into a list sorted by `le`. -/
def insertBy {α : Type} (le : α → α → Bool) (x : α) : List α → List α
  | [] => [x]
  | y :: l => if le x y then x :: y :: l else y :: insertBy le x l

/-- Stable insertion sort. -/
def sortBy {α : Type} (le : α → α → Bool) (l : List α) : List α := l.foldr (insertBy le) []

/-! ### Element types -/

def DType.code : DType → Nat
  | .opaque => 0 | .bf16 => 1 | .fp16 => 2 | .fp32 => 3 | .e4m3 => 4 | .e5m2 => 5 | .int8 => 6 | .int32 => 7

def DType.ofCode (n : Nat) : Option DType :=
  match n with
  | 0 => some .opaque | 1 => some .bf16 | 2 => some .fp16 | 3 => some .fp32 | 4 => some .e4m3 | 5 => some .e5m2
  | 6 => some .int8 | 7 => some .int32 | _ => none

/-- Bytes of an element. -/
def DType.bytes : DType → Nat
  | .bf16 => 2 | .fp16 => 2 | .fp32 => 4 | .int32 => 4 | _ => 1

/-- Exponent and mantissa widths of a floating type (0, 0 for the others). -/
def DType.expBits : DType → Nat
  | .bf16 => 8 | .fp16 => 5 | .fp32 => 8 | .e4m3 => 4 | .e5m2 => 5 | _ => 0
def DType.manBits : DType → Nat
  | .bf16 => 7 | .fp16 => 10 | .fp32 => 23 | .e4m3 => 3 | .e5m2 => 2 | _ => 0

/-- The types that Frit and Lehr EXP code (R138, R149). -/
def DType.floating : DType → Bool
  | .bf16 | .fp16 | .fp32 => true
  | _ => false

/-- Elements of a 2,048 B tile. -/
def DType.perTile (d : DType) : Nat := 2048 / d.bytes

/-- Sign, exponent field and mantissa of an element. -/
def DType.split (d : DType) (v : Nat) : Nat × Nat × Nat :=
  (bits v (d.expBits + d.manBits) 1, bits v d.manBits d.expBits, bits v 0 d.manBits)

def DType.join (d : DType) (sign exp man : Nat) : Nat := (sign * 2 ^ d.expBits + exp) * 2 ^ d.manBits + man

/-- The elements of a byte list. -/
def elems (w : Nat) (bs : List Byte) : List Nat := (pieces w (bs.length / w) bs).map leNat

/-! ### Frit (R138 to R145) -/

/-- The all-ones exponent field. -/
def DType.allOnes (d : DType) : Nat := 2 ^ d.expBits - 1

/-- Counts of symbols. -/
def histogram (l : List Nat) : Tbl Nat := l.foldl (fun t s => Tbl.updD t s 0 (· + 1)) []

/-- The codebook of a pane, ascending (R140). -/
def fritCodebook (d : DType) (hist : Tbl Nat) : List Nat :=
  let special := if 0 < Tbl.findD hist d.allOnes 0 then [d.allOnes] else []
  let cands := hist.filter (fun p => 1 ≤ p.1 && p.1 < d.allOnes && 0 < p.2)
  let ordered := sortBy (fun a b => decide (b.2 < a.2) || (a.2 = b.2 && decide (a.1 ≤ b.1))) cands
  sortBy (fun a b => decide (a ≤ b)) (special ++ (ordered.map (fun p => p.1)).take (7 - special.length))

/-- The code of an exponent that is an entry: its place, from 1. -/
def codeOf (cb : List Nat) (e : Nat) : Nat := cb.idxOf e + 1

/-- Code, mantissa and whether the element counts in ALTERED (R141). -/
def fritMap (d : DType) (cb : List Nat) (e man : Nat) : Nat × Nat × Bool :=
  if e = 0 then (0, man, false)
  else if cb.contains e then (codeOf cb e, man, false)
  else
    let fin := cb.filter (fun x => x != d.allOnes)
    let ones := 2 ^ d.manBits - 1
    match fin.filter (fun x => decide (x < e)), fin.filter (fun x => decide (e < x)) with
    | [], _ => (0, 0, true)
    | lo, [] => (codeOf cb (lo.getLastD 0), ones, true)
    | lo, hi :: _ =>
      let l := lo.getLastD 0
      if e - l ≤ hi - e then (codeOf cb l, ones, true) else (codeOf cb hi, 0, true)

/-- Width in bits of a Frit element (R142). -/
def DType.fritBits (d : DType) : Nat := 4 + d.manBits

/-- Bytes of a Frit tile (R142). -/
def DType.fritTile (d : DType) : Nat := d.fritBits * d.perTile / 8

/-- Sectors of a Frit image (R143). -/
def DType.fritSectors (d : DType) : Nat := ceilDiv (64 + 32 * d.fritTile) 256

/-- A Frit element: mantissa, code and sign, lowest bits first (R141, R142). -/
def fritElem (d : DType) (cb : List Nat) (v : Nat) : List Bool :=
  let f := d.split v
  let c := fritMap d cb f.2.1 f.2.2
  bitsLsb d.fritBits ((f.1 * 8 + c.1) * 2 ^ d.manBits + c.2.1)

/-- A Frit tile: its elements without gaps (R142). -/
def fritTileEncode (d : DType) (cb : List Nat) (vs : List Nat) : List Byte := bitsToBytes d.fritTile (vs.flatMap (fritElem d cb))

/-- The Frit image of a pane: its bytes to the end of the last sector (R138 to R145). -/
def fritEncode (d : DType) (tiles : List (List Byte)) (poison : List Bool) : List Byte :=
  let es := tiles.map (elems d.bytes)
  let ok := (es.zip poison).filter (fun p => !p.2)
  let hist := histogram (ok.flatMap (fun p => p.1.map (fun v => (d.split v).2.1)))
  let cb := fritCodebook d hist
  let altered := sumOf (ok.map (fun p => (p.1.filter (fun v => (fritMap d cb (d.split v).2.1 (d.split v).2.2).2.2)).length))
  let body := (es.zip poison).flatMap (fun p => fritTileEncode d cb (if p.2 then [] else p.1))
  let head := leBytes 1 2 ++ leBytes 1 d.code ++ leBytes 1 cb.length ++
    leBytes 1 (b2n (altered = 0) + 2 * b2n (cb.contains d.allOnes)) ++
    (cb ++ List.replicate (7 - cb.length) 0).flatMap (leBytes 1) ++ leBytes 1 0 ++ leBytes 4 (packBits poison) ++
    leBytes 4 altered ++ List.replicate 44 0
  (head ++ body ++ List.replicate (d.fritSectors * 256) 0).take (d.fritSectors * 256)

/-- A Frit tile body expanded with its codebook (R144). -/
def fritTileDecode (d : DType) (cb : List Nat) (body : List Byte) : List Byte :=
  (pieces d.fritBits d.perTile (bytesToBits body)).flatMap (fun l =>
    let v := packBits l
    let code := bits v d.manBits 3
    leBytes d.bytes (d.join (bits v (3 + d.manBits) 1) (if code = 0 then 0 else cb.getD (code - 1) 0) (bits v 0 d.manBits)))

/-- The codebook field of a Frit image, seven entries. -/
def fritHeaderCb (img : Mem) : List Nat := (List.range 7).map (fun k => (Mem.rd img (4 + k)).toNat)

/-- The DTYPE of an image. -/
def imageDType (img : Mem) : DType := (DType.ofCode (Mem.rdLE img 1 1)).getD .opaque

/-- The POISON mask of a Frit image (offset 0x0C) or of a Lehr image (offset 0x08). -/
def fritPoison (img : Mem) : Nat := Mem.rdLE img 0x0C 4
def lehrPoison (img : Mem) : Nat := Mem.rdLE img 0x08 4

/-- Tile `t` of a Frit image: its body. -/
def fritBody (img : Mem) (t : Nat) : List Byte :=
  let d := imageDType img
  Mem.block img (64 + t * d.fritTile) d.fritTile

/-! ### Canonical codes and table images (R154, R155) -/

/-- The code length of a symbol in a table image. -/
def tableLen (img : Mem) (s : Nat) : Nat := bits (Mem.rdLE img (0x10 + s / 2) 1) (4 * (s % 2)) 4

/-- The lengths of all 256 symbols. -/
def tableLens (img : Mem) : List Nat := (List.range 256).map (tableLen img)

/-- count[l] and first[l] for l from 1 to 12. -/
def canonical (lens : List Nat) : List (Nat × Nat) :=
  go ((List.range 12).map (fun l => (lens.filter (fun x => x = l + 1)).length)) 0
where
  go : List Nat → Nat → List (Nat × Nat)
    | [], _ => []
    | c :: cs, code => (c, code) :: go cs ((code + c) * 2)

/-- The code of a symbol: its length and value; length 0 when it has none. -/
def symCode (lens : List Nat) (s : Nat) : Nat × Nat :=
  let l := lens.getD s 0
  if l = 0 then (0, 0)
  else (l, ((canonical lens).getD (l - 1) (0, 0)).2 + ((lens.take s).filter (fun x => x = l)).length)

/-- The bits of a code, most significant first (R153). -/
def codeBits (lv : Nat × Nat) : List Bool := (bitsLsb lv.1 lv.2).reverse

/-- Decode one symbol, reading bits one at a time (R156): the symbol and the bits left. -/
def decodeSym (lens : List Nat) (canon : List (Nat × Nat)) (bs : List Bool) : Option (Nat × List Bool) :=
  go canon bs 1 0
where
  go : List (Nat × Nat) → List Bool → Nat → Nat → Option (Nat × List Bool)
    | [], _, _, _ => none
    | _, [], _, _ => none
    | (cnt, first) :: cs, b :: rest, l, code =>
      let code := 2 * code + b2n b
      if first ≤ code ∧ code < first + cnt then
        (((List.range 256).filter (fun s => lens.getD s 0 = l)).getD (code - first) 0, rest)
      else go cs rest (l + 1) code

/-- Decode `n` symbols; none on a format error (R157). -/
def decodeSyms (lens : List Nat) (canon : List (Nat × Nat)) : Nat → List Bool → Option (List Nat)
  | 0, _ => some []
  | n + 1, bs =>
    match decodeSym lens canon bs with
    | none => none
    | some (s, rest) => (decodeSyms lens canon n rest).map (fun l => s :: l)

/-! ### Lehr (R147 to R157) -/

inductive LMode where
  | zero | raw | exp | byte
  deriving DecidableEq, Repr

def LMode.code : LMode → Nat
  | .zero => 0 | .raw => 1 | .exp => 2 | .byte => 3

def LMode.ofCode (n : Nat) : LMode := if n = 0 then .zero else if n = 1 then .raw else if n = 2 then .exp else .byte

/-- Bytes of the sign and mantissa planes of an EXP body (R151). -/
def DType.planeBytes (d : DType) : Nat := d.perTile * (1 + d.manBits) / 8

/-- The kind of code that a region's type takes (R149). -/
def DType.lehrKind (d : DType) : LMode := if d.floating then .exp else .byte

/-- The symbols of a tile: exponent fields or bytes. -/
def tileSymbols (d : DType) (tile : List Byte) : List Nat :=
  if d.floating then (elems d.bytes tile).map (fun v => (d.split v).2.1) else tile.map (fun b => b.toNat)

/-- The coded body of a tile and its stream length in 16 B units; none when a symbol has no code. -/
def lehrBody (d : DType) (lens : List Nat) (tile : List Byte) : Option (List Byte × Nat) :=
  let syms := tileSymbols d tile
  if syms.any (fun s => lens.getD s 0 = 0) then none
  else
    let stream := syms.flatMap (fun s => codeBits (symCode lens s))
    let units := ceilDiv stream.length 128
    let sb := bitsToBytes (units * 16) stream
    if d.floating then
      let es := (elems d.bytes tile).map d.split
      let signs := bitsToBytes (d.perTile / 8) (es.flatMap (fun f => bitsLsb 1 f.1))
      let mans := bitsToBytes (d.perTile * d.manBits / 8) (es.flatMap (fun f => bitsLsb d.manBits f.2.2))
      some (signs ++ mans ++ sb, units)
    else some (sb, units)

/-- EXP_FLOOR forbids an EXP tile (R181). -/
def floorForbids (floor units : Nat) (d : DType) : Bool := floor != 0 && decide (floor * d.perTile < units * 512)

/-- Mode, body and stream units of a tile (R149). -/
def lehrTile (d : DType) (regionRaw : Bool) (table : Option Mem) (floor : Nat) (tile : List Byte) (poisoned : Bool) :
    LMode × List Byte × Nat :=
  if poisoned then (.zero, [], 0)
  else if tile.all (· = 0) then (.zero, [], 0)
  else
    match regionRaw, table with
    | false, some t =>
      match lehrBody d (tableLens t) tile with
      | none => (.raw, tile, 0)
      | some (body, units) =>
        if 1920 < body.length then (.raw, tile, 0)
        else if d.floating ∧ floorForbids floor units d then (.raw, tile, 0)
        else (d.lehrKind, body, units)
    | _, _ => (.raw, tile, 0)

/-- Tile index entries: mode and the running start (R148). -/
def indexOf : List (LMode × List Byte × Nat) → Nat → List Nat
  | [], _ => []
  | t :: ts, start => (t.1.code * 2 ^ 14 + start) :: indexOf ts (start + t.2.1.length / 16)

/-- The Lehr image of a pane (R147 to R153). -/
def lehrEncode (d : DType) (regionRaw : Bool) (table : Option (Nat × Mem)) (floor : Nat) (tiles : List (List Byte))
    (poison : List Bool) : List Byte :=
  let ts := (tiles.zip poison).map (fun p => lehrTile d regionRaw (table.map (fun t => t.2)) floor p.1 p.2)
  let coded := ts.any (fun t => t.1 = .exp || t.1 = .byte)
  let units := sumOf (ts.map (fun t => t.2.1.length / 16))
  let maxExp := (ts.map (fun t => if t.1 = .exp then t.2.2 else 0)).foldl max 0
  let gen := if coded then (match table with | some t => t.1 | none => 0) else 0
  let img := leBytes 1 1 ++ leBytes 1 d.code ++ leBytes 1 gen ++ leBytes 1 (b2n (!coded)) ++ leBytes 2 units ++
    leBytes 2 maxExp ++ leBytes 4 (packBits poison) ++ List.replicate 52 0 ++ (indexOf ts 0).flatMap (leBytes 2) ++
    ts.flatMap (fun t => t.2.1)
  let sectors := ceilDiv img.length 256
  (img ++ List.replicate 256 0).take (sectors * 256)

/-- Index entry of tile `t`: mode and START. -/
def lehrIndex (img : Mem) (t : Nat) : LMode × Nat :=
  let v := Mem.rdLE img (0x40 + 2 * t) 2
  (LMode.ofCode (bits v 14 2), bits v 0 12)

/-- Derived length of tile `t` in 16 B units, as a signed number (R148). -/
def lehrLen (img : Mem) (t : Nat) : Int :=
  if t < 31 then ((lehrIndex img (t + 1)).2 : Int) - (lehrIndex img t).2
  else (Mem.rdLE img 4 2 : Int) - (lehrIndex img t).2

/-- The derived length of tile `t` breaks R148. -/
def lenBreaks (img : Mem) (t : Nat) : Bool :=
  let n := lehrLen img t
  match (lehrIndex img t).1 with
  | .zero => n != 0
  | .raw => n != 128
  | _ => decide (n < 1) || decide (120 < n)

/-- Tile `t` is affected by an error of the index: its own length, the length before it that its START bounds, or a START(0)
that is not 0 (R157). -/
def indexAffects (img : Mem) (t : Nat) : Bool :=
  lenBreaks img t || (t != 0 && lenBreaks img (t - 1)) || (t = 0 && (lehrIndex img 0).2 != 0)

def lehrNoTable (img : Mem) : Bool := bit (Mem.rdLE img 3 1) 0
def lehrGen (img : Mem) : Nat := Mem.rdLE img 2 1 % 16
def lehrMaxExp (img : Mem) : Nat := Mem.rdLE img 6 2

/-- A format error of tile `t` that the header and the index show (R157, R663). `table` is the image of the generation
that GEN names, when it is live. -/
def headerError (img : Mem) (table : Option Mem) (t : Nat) : Bool :=
  indexAffects img t ||
  (match (lehrIndex img t).1 with
   | .exp => lehrNoTable img || !(imageDType img).floating ||
      (match table with | some x => Mem.rdLE x 0 1 != 1 | none => true)
   | .byte => lehrNoTable img || (match table with | some x => Mem.rdLE x 0 1 != 2 | none => true)
   | _ => false)

/-- The body of tile `t`. -/
def lehrBodyOf (img : Mem) (t : Nat) : List Byte :=
  Mem.block img (0x80 + 16 * (lehrIndex img t).2) (16 * (lehrLen img t).toNat)

/-- A tile body expanded to 2,048 bytes; none on a format error in its stream (R156, R157). -/
def lehrExpand (d : DType) (mode : LMode) (table : Mem) (body : List Byte) : Option (List Byte) :=
  let lens := tableLens table
  match mode with
  | .zero => some (List.replicate 2048 0)
  | .raw => some (body.take 2048)
  | .byte => (decodeSyms lens (canonical lens) 2048 (bytesToBits body)).map (fun l => l.map (BitVec.ofNat 8))
  | .exp =>
    if d.floating then
      let signs := bytesToBits (body.take (d.perTile / 8))
      let mans := pieces d.manBits d.perTile (bytesToBits ((body.drop (d.perTile / 8)).take (d.perTile * d.manBits / 8)))
      (decodeSyms lens (canonical lens) d.perTile (bytesToBits (body.drop d.planeBytes))).map (fun l =>
        ((signs.zip mans).zip l).flatMap (fun x => leBytes d.bytes (d.join (b2n x.1.1) x.2 (packBits x.1.2))))
    else none

/-- Tile `t` of a Lehr image: its bytes, or none when it is poisoned, and whether a format error was found. -/
def lehrTileDecode (img : Mem) (table : Option Mem) (t : Nat) : Option (List Byte) × Bool :=
  if bit (lehrPoison img) t then (none, false)
  else if headerError img table t then (none, true)
  else
    match lehrExpand (imageDType img) (lehrIndex img t).1 (table.getD []) (lehrBodyOf img t) with
    | some b => (some b, false)
    | none => (none, true)

/-- Tile `t` of a Frit image, or none when it is poisoned (R144, R145). -/
def fritDecode (img : Mem) (t : Nat) : Option (List Byte) :=
  if bit (fritPoison img) t then none else some (fritTileDecode (imageDType img) (fritHeaderCb img) (fritBody img t))

/-! ### Building tables (R172) -/

/-- A node of the Huffman forest: weight, lowest symbol, and the symbols with their depths. -/
abbrev HNode := Nat × Nat × List (Nat × Nat)

/-- Lighter first; equal weights by the smaller lowest symbol. -/
def hLe (a b : HNode) : Bool := decide (a.1 < b.1) || (a.1 = b.1 && decide (a.2.1 ≤ b.2.1))

/-- Join the two lightest nodes until one is left. -/
def huffman : Nat → List HNode → List (Nat × Nat)
  | 0, _ => []
  | _, [] => []
  | _, [n] => n.2.2
  | k + 1, a :: b :: rest =>
    let j : HNode := (a.1 + b.1, min a.2.1 b.2.1, (a.2.2 ++ b.2.2).map (fun p => (p.1, p.2 + 1)))
    huffman k (insertBy hLe j rest)

/-- Σ 2^(12 − len). -/
def kraft (l : List (Nat × Nat)) : Nat := sumOf (l.map (fun p => 2 ^ (12 - p.2)))

/-- The best element under an order. -/
def bestBy {α : Type} (better : α → α → Bool) : List α → Option α
  | [] => none
  | x :: l => match bestBy better l with
    | none => some x
    | some y => if better y x then some y else some x

/-- Lengthen codes until the sum is at most 4,096 (R172). -/
def lengthen (cnt : Tbl Nat) : Nat → List (Nat × Nat) → List (Nat × Nat)
  | 0, l => l
  | n + 1, l =>
    if kraft l ≤ 4096 then l
    else
      match bestBy (fun a b => decide (b.2 < a.2) || (a.2 = b.2 && (decide (Tbl.findD cnt a.1 0 < Tbl.findD cnt b.1 0) ||
          (Tbl.findD cnt a.1 0 = Tbl.findD cnt b.1 0 && decide (b.1 < a.1))))) (l.filter (fun p => decide (p.2 < 12))) with
      | none => l
      | some x => lengthen cnt n (l.map (fun p => if p.1 = x.1 then (p.1, p.2 + 1) else p))

/-- Shorten codes until the sum is 4,096 (R172). -/
def shorten (cnt : Tbl Nat) : Nat → List (Nat × Nat) → List (Nat × Nat)
  | 0, l => l
  | n + 1, l =>
    let k := kraft l
    if 4096 ≤ k then l
    else
      match bestBy (fun a b => decide (b.2 < a.2) || (a.2 = b.2 && (decide (Tbl.findD cnt b.1 0 < Tbl.findD cnt a.1 0) ||
          (Tbl.findD cnt a.1 0 = Tbl.findD cnt b.1 0 && decide (a.1 < b.1))))) (l.filter (fun p => decide (k + 2 ^ (12 - p.2) ≤ 4096))) with
      | none => l
      | some x => shorten cnt n (l.map (fun p => if p.1 = x.1 then (p.1, p.2 - 1) else p))

/-- Symbols with their code lengths, from symbol counts (R172). -/
def buildLens (d : DType) (counts : Tbl Nat) (coverAll : Bool) : List (Nat × Nat) :=
  let range := if d = .fp16 then 32 else 256
  let cnt := if coverAll then (List.range range).foldl (fun t s => Tbl.updD t s 0 (· + 1)) counts else counts
  let coded := cnt.filter (fun p => 0 < p.2)
  match coded with
  | [(s, _)] => [(s, 1)]
  | _ =>
    let nodes := sortBy hLe (coded.map (fun p => ((p.2, p.1, [(p.1, 0)]) : HNode)))
    let lens := (huffman 256 nodes).map (fun p => (p.1, min p.2 12))
    shorten cnt 4096 (lengthen cnt 4096 lens)

/-- The 144 B table image (R154). -/
def tableImage (d : DType) (gen : Nat) (lens : List (Nat × Nat)) : Mem :=
  let maxLen := (lens.map (fun p => p.2)).foldl max 0
  let lenOf := fun s => ((lens.find? (fun p => p.1 = s)).map (fun p => p.2)).getD 0
  Mem.pack 0 (leBytes 1 (if d.floating then 1 else 2) ++ leBytes 1 d.code ++ leBytes 1 gen ++ leBytes 1 maxLen ++
    leBytes 2 lens.length ++ List.replicate 10 0 ++
    (List.range 128).map (fun i => BitVec.ofNat 8 (lenOf (2 * i) + 16 * lenOf (2 * i + 1))))

end Sys2Proof.Machine
end

