-- ==== Sys2Proof/Machine/Panes.lean ====
section
/-! DEFINITION. Panes: how an address reaches a pane record, where panes are placed, what a read and a write of a pane do, and
the single-home move protocol (spec/03_tiers_and_panes.md, spec/06_extents_sharing_versions.md R202 to R211). -/
namespace Sys2Proof.Machine

/-! ### Versions and records -/

/-- The version map that a selector names (R204). -/
def Mod.vmap (m : Mod) (r : Nat) (sel : VerSel) : Tbl Nat :=
  match sel with
  | .late v _ _ => (match Tbl.find m.mem.regions r with
      | some g => (match Tbl.find g.vers v with | some x => x.map | none => [])
      | none => [])
  | .working n => (match Tbl.find m.ctxs n with
      | some c => (match c.obj with | .working _ _ map => map | _ => [])
      | none => [])
  | .part key => (match m.fm.regions.find? (fun f => !f.2.accessor && f.2.localRegion = r) with
      | some f => (match Tbl.find f.2.parts key with
          | some t => t
          | none => (match (Tbl.find f.2.bases key).bind (fun b => (Tbl.find m.mem.regions r).bind (fun g => Tbl.find g.vers b)) with
              | some x => x.map
              | none => []))
      | none => [])
  | .sealed v => (match Tbl.find m.mem.regions r with
      | some g => (match Tbl.find g.vers v with | some x => x.map | none => [])
      | none => [])
  | .head => (match Tbl.find m.mem.regions r with
      | some g => (match Tbl.find g.vers g.head with | some x => x.map | none => [])
      | none => [])

/-- Commit a new map for the version that a selector names. -/
def Mod.setVmap (m : Mod) (r : Nat) (sel : VerSel) (f : Tbl Nat → Tbl Nat) : Mod :=
  match sel with
  | .late v _ _ => m.setRegion r (fun g => { g with vers := Tbl.upd g.vers v (fun x => { x with map := f x.map }) })
  | .working n => m.setCtx n (fun c => match c.obj with
      | .working a b map => { c with obj := .working a b (f map) }
      | _ => c)
  | .part key => m.setFm (fun e => { e with regions := Tbl.mapV e.regions (fun _ x =>
      if !x.accessor && x.localRegion = r then { x with parts := Tbl.updD x.parts key [] f } else x) })
  | .sealed v => m.setRegion r (fun g => { g with vers := Tbl.upd g.vers v (fun x => { x with map := f x.map }) })
  | .head => m.setRegion r (fun g => { g with vers := Tbl.upd g.vers g.head (fun x => { x with map := f x.map }) })

/-- The pane record that a version names at a region pane index; none reads as UNBACKED (R204). -/
def Mod.recAt (m : Mod) (r : Nat) (sel : VerSel) (pane : Nat) : Option (Nat × PaneRec) :=
  match Tbl.find (m.vmap r sel) pane with
  | some k => (match Tbl.find m.mem.recs k with | some x => some (k, x) | none => none)
  | none => none

/-- Name a new record in the map of the version that a write belongs to (R205); a write that a seal has overtaken names it in
the sealed version and, where that still shares the pane, in the working version that goes on (R204, R210). -/
def Mod.nameNew (m : Mod) (r : Nat) (sel : VerSel) (pane k : Nat) : Mod :=
  match sel with
  | .late _ p c =>
    let w : VerSel := if p then .part c else .working c
    let same := Tbl.find (m.vmap r sel) pane == Tbl.find (m.vmap r w) pane
    let m1 := m.setVmap r sel (fun t => Tbl.put t pane k)
    if same then m1.setVmap r w (fun t => Tbl.put t pane k) else m1
  | _ => m.setVmap r sel (fun t => Tbl.put t pane k)

/-- The extent at a region pane index; none in an ordinal gap (R92). -/
def Region.extentAt (g : Region) (pane : Nat) : Option Nat := Tbl.find g.ordinals (pane / 4096)

/-- One past the last pane index of a region (R127). -/
def Region.endPane (g : Region) : Nat := 4096 * (g.ordinals.foldl (fun e o => max e (o.1 + 1)) 0)

/-- The working maps of a region: those of this module's contexts, and the parts of a fabric region's working versions. -/
def Mod.workings (m : Mod) (r : Nat) : List (VerSel × Tbl Nat) :=
  m.ctxs.filterMap (fun c => match c.2.obj with
    | .working r' _ map => if r' = r then some (.working c.1, map) else none
    | _ => none) ++
  m.fm.regions.flatMap (fun f => if !f.2.accessor && f.2.localRegion = r then f.2.parts.map (fun p => (.part p.1, p.2)) else [])

/-- A REGION_ID names the region itself, or a fabric region of which it is this module's local part (R330). -/
def Mod.reaches (m : Mod) (id r : Nat) : Bool :=
  r = id || (decide (0x8000 ≤ r) && (Tbl.find m.fm.regions (r - 0x8000)).elim false (fun f => !f.accessor && f.localRegion = id))

/-- A map names a record at the record's own index. -/
def mapNames (map : Tbl Nat) (pane k : Nat) : Bool := Tbl.find map pane = some k

/-- Sealed versions of the region that name a record. -/
def Mod.sealedNaming (m : Mod) (k : Nat) (x : PaneRec) : Nat :=
  match Tbl.find m.mem.regions x.region with
  | some g => (g.vers.filter (fun v => mapNames v.2.map x.pane k)).length
  | none => 0

/-- Working versions of the region that name a record. -/
def Mod.workingNaming (m : Mod) (k : Nat) (x : PaneRec) : Nat :=
  ((m.workings x.region).filter (fun w => mapNames w.2 x.pane k)).length

/-- A pane is immutable while any sealed version holds it; version 0 of a VERSIONING OFF region is never sealed (R121,
R203). -/
def Mod.immutable (m : Mod) (k : Nat) (x : PaneRec) : Bool :=
  match Tbl.find m.mem.regions x.region with
  | some g => g.versioning && m.sealedNaming k x != 0
  | none => false

/-- Delete every record of a region that no version names, once no old location of it is left to free (R123, R207), and free the
parked slots of panes that are no longer immutable (R121). -/
def Mod.gcRegion (m : Mod) (r : Nat) : Mod :=
  let m1 := m.setMem (fun e => { e with recs := e.recs.filter (fun p =>
    p.2.region != r || p.2.old.isSome || m.sealedNaming p.1 p.2 != 0 || m.workingNaming p.1 p.2 != 0) })
  m1.setMem (fun e => { e with recs := Tbl.mapV e.recs (fun k x =>
    if x.region = r && x.parked.isSome && !m1.immutable k x then { x with parked := none } else x) })

/-! ### Partitions -/

/-- A partition just created: ACTIVE with no LD, region or extent (R184, R355). -/
def Part.init (name quota leaseS : Nat) : Part :=
  { state := .active, name := name, quota := quota, leaseS := leaseS, t0Min := 0, t0Max := none, queueMin := 0, queueMax := 3072,
    exhausted := false, dropLogged := [], frozen := false, freezeFtc := 0, lost := [0, 0, 0, 0, 0] }

/-! ### Sizes (R130, R142, R143) -/

def RegForm.stored : RegForm → PForm
  | .raw => .lehr | .lehr => .lehr | .frit => .frit

/-- Worst-case stored size in sectors (R130). -/
def Region.worst (g : Region) : Nat := if g.form = .frit then g.dtype.fritSectors else 257

/-- Maximum FLOOR_PERMILLE of a form and type (R130). -/
def maxFloor (form : RegForm) (d : DType) : Nat :=
  match form, d with
  | .frit, .bf16 => 1450 | .frit, .fp16 => 1137 | .frit, .fp32 => 1179 | _, _ => 1000

/-- Bytes that a record takes in its present tier. -/
def PaneRec.bytesIn (x : PaneRec) (t : Tier) : Nat := if x.tier = t ∧ x.form ≠ .zero then x.sectors * 256 else 0

/-! ### T0 placement (R135, R387, R388, R396) -/

/-- Usable T0 in 256 B sectors: N × 992 MiB (R381). -/
def Mod.t0Total (m : Mod) : Nat := m.t0.channels.length * 992 * 4096

/-- Sectors of the T0 map cache: 2 GiB when T1 holds the map store (R105). -/
def Mod.mapCache (m : Mod) : Nat := if m.t1.any (fun p => p.holdsMap) then 2 * 1024 * 4096 else 0

/-- Extents for which a map store reservation is held (R105). -/
def Mod.reservedExtents (m : Mod) : Nat :=
  (m.mem.extents.filter (fun e => e.2.pendingLds != [] || e.2.heldLds != [] || e.2.kept != none || e.2.inCullet)).length

/-- A place in T0 as an interval. -/
def Place.t0Span (p : Place) : List (Nat × Nat) := if p.tier = .t0 then [(p.loc, p.sectors)] else []

/-- The frames of ingest staging (R371). -/
def Mod.stagingFrames (m : Mod) : List Nat := m.streams.flatMap (fun t => t.2.frames)

/-- The T0 intervals in use outside ingest staging, and those that lie in its frames. -/
def Mod.t0Taken (m : Mod) : List (Nat × Nat) :=
  (m.mem.recs.flatMap (fun x =>
    (if x.2.tier = .t0 ∧ x.2.form ≠ .zero ∧ x.2.sectors ≠ 0 then [(x.2.loc, x.2.sectors)] else []) ++
    (match x.2.dest with | some p => p.t0Span | none => []) ++ (match x.2.old with | some p => p.place.t0Span | none => []) ++
    (match x.2.unpacking with | some p => p.t0Span | none => []))) ++
  m.mem.cows.flatMap (fun c => c.dest.t0Span) ++ m.svc.heals.flatMap (fun h => h.frame.t0Span) ++
  m.mvs.flatMap (fun v => match v.2.imageAt with | some s => [(s, ceilDiv v.2.length 256)] | none => []) ++
  (if m.mapCache = 0 then [] else [(m.t0Total - m.mapCache, m.mapCache)]) ++ m.mem.mapCarve ++
  m.svc.trace.carve

/-- The T0 intervals in use: every frame of staging is. -/
def Mod.t0Used (m : Mod) : List (Nat × Nat) :=
  let st := m.stagingFrames
  if st = [] then m.t0Taken else m.t0Taken.filter (fun u => !st.contains u.1) ++ st.map (fun f => (f, 256))

/-- The interval of `n` sectors at `s` meets one of the list. -/
def meets (used : List (Nat × Nat)) (s n : Nat) : Bool := used.any (fun u => decide (u.1 < s + n) && decide (s < u.1 + u.2))

/-- The lowest aligned run of `n` free sectors below `total`. -/
def lowestRun (used : List (Nat × Nat)) (total n align : Nat) : Option Nat :=
  let cand := (0 :: used.map (fun u => ceilDiv (u.1 + u.2) align * align)).filter (fun s => decide (s + n ≤ total) && !meets used s n)
  match cand with
  | [] => none
  | c :: cs => some (cs.foldl min c)

/-- The highest aligned run of `n` free sectors below `total`. -/
def highestRun (used : List (Nat × Nat)) (total n align : Nat) : Option Nat :=
  let cand := ((total - n) / align * align :: (used.filter (fun u => decide (n ≤ u.1))).map (fun u => (u.1 - n) / align * align)).filter
    (fun s => decide (s + n ≤ total) && !meets used s n)
  match cand with
  | [] => none
  | c :: cs => some (cs.foldl max c)

/-- Bytes of T0 in use outside the carve-outs. -/
def Mod.t0Homes (m : Mod) : Nat := sumOf (m.mem.recs.map (fun x => x.2.bytesIn .t0))

/-- Bytes of the stripe map replicas that accessors hold in T0 (R329), of one partition or of all. -/
def Mod.replicas (m : Mod) (part : Option Nat) : Nat :=
  sumOf (m.fm.regions.map (fun f => if f.2.accessor && (part == none || part == some f.2.partition) then 8 * f.2.units else 0))

/-- Panes homed in T0. -/
def Mod.t0Panes (m : Mod) : Nat := (m.mem.recs.filter (fun x => x.2.tier = .t0)).length

/-- Bytes of the carve-outs that take T0 intervals: the map cache or the map store, the trace and ingest staging (R135). -/
def Mod.t0Carved (m : Mod) : Nat :=
  m.mapCache * 256 + sumOf (m.mem.mapCarve.map (fun u => u.2)) * 256 + m.svc.trace.carveMiB * 1048576 + m.stagingFrames.length * 65536

/-- Size of the T0 pool: usable T0 less its carve-outs and the 16 B residency record of each pane homed in T0 (R135). -/
def Mod.t0Pool (m : Mod) : Nat := m.t0Total * 256 - m.t0Carved - 16 * m.t0Panes

/-- T0 bytes free in the pool. -/
def Mod.t0Free (m : Mod) : Nat := m.t0Pool - (sumOf (m.t0Used.map (fun u => u.2)) * 256 - m.t0Carved) - m.replicas none

/-- Allocate T0: lowest address first for PIN_T0 panes and image areas, highest first for the rest (R396), within what the pool has free
beside one more residency record (R135); nothing while a part without valid metadata, which is all but the kept part, is being swept
(R388). -/
def Mod.t0Alloc (m : Mod) (low : Bool) (n align : Nat) : Option Nat :=
  let total := if m.t0.sweeping then min m.t0.kept m.t0Total else m.t0Total
  if m.t0Free < n * 256 + 16 then none
  else if low then lowestRun m.t0Used total n align else highestRun m.t0Used total n align

/-- Movement image areas of a partition, in bytes. -/
def Mod.imageAreas (m : Mod) (part : Nat) : Nat :=
  sumOf (m.mvs.map (fun v => if v.2.partition = part ∧ v.2.imageAt.isSome then ceilDiv v.2.length 256 * 256 else 0))

/-- T0 residency of a partition: its regions' T0 homes and destinations (R114) outside staging (R372), its image areas (R238), and the
stripe map replicas of the fabric regions that it has joined as an accessor (R329). -/
def Mod.partT0 (m : Mod) (part : Nat) : Nat :=
  let st := m.stagingFrames
  m.imageAreas part + m.replicas (some part) + sumOf (m.mem.recs.map (fun x =>
    match Tbl.find m.mem.regions x.2.region with
    | some g => if g.owner = part then (if st.contains x.2.loc then 0 else x.2.bytesIn .t0) +
        (match x.2.dest with | some p => sumOf ((p.t0Span.filter (fun u => !st.contains u.1)).map (fun u => u.2 * 256)) | none => 0) else 0
    | none => 0))

/-- A partition's maximum T0 share: the whole pool until REG_SET_SHARES sets it (R355). -/
def Mod.t0Max (m : Mod) (part : Nat) : Nat :=
  match Tbl.find m.mem.parts part with
  | some p => p.t0Max.getD m.t0Pool
  | none => m.t0Pool

/-- A partition's minimum T0 share as scaled, with which the victim selector works (R357). -/
def Mod.t0MinNow (m : Mod) (p : Part) : Nat := p.t0Min * Tbl.findD m.reg.scale (6 * 4096) 1000 / 1000

/-! ### T1 and T2 placement (R116, R121, R410, R416) -/

def Mod.t1Usable (m : Mod) : Bool := m.t1.any (fun p => p.state = .inService || p.state = .retraining)

def Mod.t2Usable (m : Mod) : Bool := m.t2.inService && !m.t2.readOnly

/-- T1 data area of a port, in sectors (R410). -/
def T1Port.dataSectors (p : T1Port) : Nat := if p.state = .inService ∨ p.state = .retraining then (p.capacity - p.mapShare) / 256 else 0

/-- LOCATION of a T1 place: port in [43:40] (R102). -/
def t1Loc (port off : Nat) : Nat := port * 2 ^ 40 + off

/-- Every place outside T0 that is in use. -/
def Mod.lowUsed (m : Mod) (t : Tier) : List (Nat × Nat) :=
  let sp := fun (p : Place) => if p.tier = t then [(p.loc, p.sectors)] else []
  m.mem.recs.flatMap (fun x =>
    (if x.2.tier = t ∧ x.2.form ≠ .zero ∧ x.2.sectors ≠ 0 then [(x.2.loc, x.2.sectors)] else []) ++
    (match x.2.dest with | some p => sp p | none => []) ++ (match x.2.old with | some p => sp p.place | none => []) ++
    (match x.2.parked with | some p => sp p.place | none => []))

/-- T1 data sectors in all, and free. -/
def Mod.t1Total (m : Mod) : Nat := sumOf (m.t1.map T1Port.dataSectors)
def Mod.t1Free (m : Mod) : Nat := m.t1Total - sumOf ((m.lowUsed .t1).map (fun u => u.2))

/-- Map store size: 64 KiB per extent added (R105). -/
def Mod.mapStore (m : Mod) : Nat := m.reservedExtents * 65536

/-- One copy of the map store lies in T2: a single T1 port holds the other, or has been lost (R105, R129, R412). -/
def Mod.mapInT2 (m : Mod) : Bool := decide ((m.t1.filter (fun p => p.holdsMap && p.state != .lost)).length ≤ 1) && !m.mem.mapInT0 && m.t2.inService

/-- Logical sectors of T2 for images (R129, R415), none while it is out of service. -/
def Mod.t2Total (m : Mod) : Nat :=
  if m.t2.inService then (if m.n128 then 437500000000 else 218750000000) - (if m.mapInT2 then m.mapStore / 256 else 0) else 0
def Mod.t2Free (m : Mod) : Nat := m.t2Total - sumOf ((m.lowUsed .t2).map (fun u => u.2))

/-- Dies of the array (R1): 256 or 512, 32 channels. -/
def Mod.t2Dies (m : Mod) : Nat := if m.n128 then 512 else 256

/-- A die that is in service; die `d` is on channel `d % 32`. -/
def Mod.dieOk (m : Mod) (d : Nat) : Bool := !m.t2.lostDies.contains d && !m.t2.lostChannels.contains (d % 32)

/-- Place `n` sectors in T1: a port by free choice among those with room, at the lowest free run of its data area. -/
def Mod.t1Alloc (m : Mod) (n : Nat) : Option Place × Mod :=
  let run := fun d => lowestRun (((m.lowUsed .t1).filter (fun u => u.1 / 2 ^ 40 = d)).map (fun u => (u.1 % 2 ^ 40, u.2)))
    ((m.t1.getD d T1Port.init).dataSectors) n 1
  match m.chooseFrom 8 (fun d => (run d).isSome) with
  | (some d, m1) => ((run d).map (fun s => { tier := .t1, loc := t1Loc d s, sectors := n }), m1)
  | (none, m1) => (none, m1)

/-- Place `n` sectors in T2: the lowest free run of logical sectors, on a die by free choice (R416). -/
def Mod.t2Alloc (m : Mod) (n : Nat) : Option Place × Mod :=
  if !m.t2Usable then (none, m)
  else
    match lowestRun (m.lowUsed .t2) m.t2Total n 1 with
    | none => (none, m)
    | some s =>
      match m.chooseFrom m.t2Dies m.dieOk with
      | (some d, m1) => (some { tier := .t2, loc := s, sectors := n, die := d }, m1)
      | (none, m1) => (none, m1)

/-- A parked slot that may be reclaimed: not one that R122 protects. -/
def Mod.reclaimable (m : Mod) (x : PaneRec) : Bool :=
  match x.parked, Tbl.find m.mem.regions x.region with
  | some p, some g => !(g.durable && p.place.tier = .t2)
  | some _, none => true
  | none, _ => false

/-- Reclaim the parked slot of the oldest parking in a tier (R121). -/
def Mod.reclaimOne (m : Mod) (t : Tier) : Option Mod :=
  let c := m.mem.recs.filter (fun x => m.reclaimable x.2 && (match x.2.parked with | some p => p.place.tier = t | none => false))
  match bestBy (fun (a b : Nat × Nat) => decide (a.2 < b.2)) (c.map (fun x => (x.1, match x.2.parked with | some p => p.age | none => 0))) with
  | some (k, _) => some (m.setRec k (fun x => { x with parked := none }))
  | none => none

/-- Allocate in a tier, reclaiming parked slots, the oldest first, while it would fail (R121). -/
def Mod.lowAlloc (m : Mod) (t : Tier) (n : Nat) : Nat → Option Place × Mod
  | 0 => (none, m)
  | fuel + 1 =>
    match if t = .t1 then m.t1Alloc n else m.t2Alloc n with
    | (some p, m1) => (some p, m1)
    | (none, m1) => (match m1.reclaimOne t with
        | some m2 => m2.lowAlloc t n fuel
        | none => (none, m1))

/-! ### The wear governor (R425, R426) -/

/-- One full-drive write, in the unit of the wear bucket: 64 or 128 TB. The bucket holds two (R425). -/
def Mod.driveWrite (m : Mod) : Nat := (if m.n128 then 128 else 64) * 10 ^ 16

/-- The level of the wear bucket, in ten-thousandths of a byte. -/
def Mod.wearLevel (m : Mod) : Nat := 2 * m.driveWrite - m.t2.wearSpent

/-- The state that a level calls for: 0 OPEN, 1 THROTTLED, 2 EXHAUSTED (R426). -/
def Mod.wearCalls (m : Mod) : Nat := if m.driveWrite ≤ m.wearLevel then 0 else if 0 < m.wearLevel then 1 else 2

/-- Each programmed byte takes one token; the level does not fall below 0 (R425). -/
def Mod.chargeWear (m : Mod) (bytes : Nat) : Mod :=
  { m with t2 := { m.t2 with wearSpent := min (2 * m.driveWrite) (m.t2.wearSpent + bytes * 10000) } }

/-- Programs of the flash translation on a channel, for relocation and the journal: the bytes are a free value, charged to FLASH
(R348, R425, R525). -/
def Mod.chargeFree (m : Mod) (channel : Nat) : Mod :=
  (m.freeVal.2.chargeWear m.freeVal.1).count 0x0008 (0x4000 + channel) 0x3007 none m.freeVal.1

/-- Reserve space in T1 or T2 for an eviction, a demotion or a sweep. While the governor has left OPEN such a program waits or takes its
turn at the refill rate, by a free choice (R426). -/
def Mod.turnAlloc (m : Mod) (t : Tier) (n : Nat) : Option Place × Mod :=
  let c := m.choose 2
  if t ≠ .t2 ∨ m.t2.wearState = 0 then m.lowAlloc t n (m.mem.recs.length + 1)
  else if c.1 = 0 then (none, c.2)
  else c.2.lowAlloc t n (m.mem.recs.length + 1)

/-- The tier to which an eviction goes: T1 when it is usable with more than 2% of its data area free, otherwise T2 (R116); T1 as well
where T2 takes no image (R421). -/
def Mod.evictTier (m : Mod) : Tier := if m.t1Usable ∧ (m.t1Total < m.t1Free * 50 ∨ !m.t2Usable) then .t1 else .t2

/-- Place an evicted image of `n` sectors; none where the eviction waits (R116, R163). A T1 whose free space lies in no run long enough
leaves the image to T2. -/
def Mod.evictPlace (m : Mod) (n : Nat) : Option Place × Mod :=
  match m.turnAlloc m.evictTier n with
  | (some p, m1) => (some p, m1)
  | (none, m1) => if m.evictTier = .t1 then m1.turnAlloc .t2 n else (none, m1)

/-! ### Capacity (R129 to R134) -/

/-- The lower capacity before the reserve. -/
def Mod.lowerRaw (m : Mod) : Nat :=
  sumOf (m.t1.map (fun p => p.dataSectors * 256)) + m.t2Bytes - (if m.mapInT2 then m.mapStore else 0)

/-- L (R129). -/
def Mod.capL (m : Mod) : Nat := m.lowerRaw * 99 / 100

/-- Neither T1 nor T2 is usable: every region is placed and accounted as PIN_T0 (R117). -/
def Mod.onlyT0 (m : Mod) : Bool := !m.t1Usable && !m.t2Usable

def Mod.residency (m : Mod) (g : Region) : Residency := if m.onlyT0 then .pinT0 else g.residency

/-- Charge of a FLOOR region with `n` extents (R131). -/
def Region.chargeFor (g : Region) (pinT0 : Bool) (n : Nat) : Nat :=
  if g.elastic then 0
  else
    let floor := if pinT0 ∧ !g.packed then 1000 else g.floor
    ceilDiv (n * 2 ^ 28 * 1000 * (100 + g.verReserve)) (floor * 100 * 256) * 256

def Mod.charge (m : Mod) (g : Region) : Nat := g.chargeFor (m.residency g = .pinT0) g.ordinals.length

/-- FLOOR charges against L, of one partition (or all with 64). -/
def Mod.chargesL (m : Mod) (part : Nat) : Nat :=
  sumOf (m.mem.regions.map (fun g => if (part = 64 ∨ g.2.owner = part) ∧ m.residency g.2 ≠ .pinT0 then m.charge g.2 else 0))

/-- T0 charges of a partition: PIN_T0 charges and movement image areas. -/
def Mod.chargesT0 (m : Mod) (part : Nat) : Nat :=
  sumOf (m.mem.regions.map (fun g => if g.2.owner = part ∧ m.residency g.2 = .pinT0 then m.charge g.2 else 0)) + m.imageAreas part

/-- A pane draws on elastic free space: a backed pane of an ELASTIC region, or a copy beyond its region's version reserve, of a region
that is not homed as PIN_T0 (R131). -/
def Mod.drawsElastic (m : Mod) (x : PaneRec) (g : Region) : Bool :=
  (x.elasticHeld || (g.elastic && x.tier != .unbacked && !(x.state == .poisoned && x.sectors == 0))) && m.residency g != .pinT0

/-- Space that a pane holds against elastic free space: its stored size once encoded and the worst case before (R132), the T2 parked image
of a DURABLE ELASTIC region included (R615). -/
def Mod.elasticBytes (m : Mod) (x : PaneRec) : Nat :=
  match Tbl.find m.mem.regions x.region with
  | none => 0
  | some g =>
    (match x.parked with
      | some p => if g.durable ∧ g.elastic ∧ x.tier = .t0 ∧ p.place.tier = .t2 then p.place.sectors * 256 else 0
      | none => 0) +
    (if m.drawsElastic x g then x.encoded.getD g.worst * 256 else 0)

def Mod.elasticUsed (m : Mod) (part : Nat) : Nat :=
  sumOf (m.mem.recs.map (fun x => match Tbl.find m.mem.regions x.2.region with
    | some g => if part = 64 ∨ g.owner = part then m.elasticBytes x.2 else 0
    | none => 0)) +
  sumOf (m.mem.cows.map (fun c => match Tbl.find m.mem.regions c.region with
    | some g => if c.elastic ∧ m.residency g ≠ .pinT0 ∧ (part = 64 ∨ g.owner = part) then g.worst * 256 else 0
    | none => 0))

/-- Elastic free space (R131). -/
def Mod.elasticFree (m : Mod) : Nat := m.capL - m.chargesL 64 - m.elasticUsed 64

/-- Parked-slot bytes (R136). -/
def Mod.parkedBytes (m : Mod) : Nat := sumOf (m.mem.recs.map (fun x => match x.2.parked with | some p => p.place.sectors * 256 | none => 0))

/-! ### Reading a pane (R103, R104, R108, R182, R385) -/

/-- The table image of a live generation of a region. -/
def Mod.tableOf (m : Mod) (r gen : Nat) : Option Mem :=
  match Tbl.find m.mem.regions r with
  | some g => (Tbl.find g.tables.gens gen).map (fun t => t.image)
  | none => none

/-- Tile `t` of a record's logical contents: its 2,048 bytes, or none when the tile is poisoned; and whether a Lehr format
error was found. A raw frame carries poison by the line, given as the third part. -/
def Mod.tileOf (m : Mod) (x : PaneRec) (t : Nat) : Option (List Byte) × Bool × List Nat :=
  if x.state = .poisoned then (none, false, [])
  else
    match x.tier, x.form with
    | .unbacked, _ => (some (List.replicate 2048 0), false, [])
    | _, .zero => (some (List.replicate 2048 0), false, [])
    | _, .raw => (some (Mem.block x.img (t * 2048) 2048), false, x.poison.filter (fun l => l / 32 = t))
    | _, .frit => (if x.poison.contains t then none else fritDecode x.img t, false, [])
    | _, .lehr =>
      if x.poison.contains t then (none, false, [])
      else
        let d := lehrTileDecode x.img (m.tableOf x.region (lehrGen x.img)) t
        (d.1, d.2, [])

/-- A line of a record: its 64 bytes, or none when it reads as poison; and whether a format error was found. -/
def Mod.lineOf (m : Mod) (x : PaneRec) (line : Nat) : Option (List Byte) × Bool :=
  let t := m.tileOf x (line / 32)
  if t.2.2.contains line then (none, t.2.1) else (t.1.map (fun b => (b.drop (line % 32 * 64)).take 64), t.2.1)

/-- Every tile of a record as bytes, and the lines that carry poison (a poisoned tile carries it in every line). -/
def Mod.contents (m : Mod) (x : PaneRec) : List (List Byte) × List Nat :=
  let ts := (List.range 32).map (fun t => (t, m.tileOf x t))
  (ts.map (fun p => p.2.1.getD (List.replicate 2048 0)),
   ts.flatMap (fun p => if p.2.1 = none then (List.range 32).map (fun l => p.1 * 32 + l) else p.2.2.2))

/-- A decode of the record meets a Lehr format error (R157). -/
def Mod.badImage (m : Mod) (x : PaneRec) : Bool := x.form = .lehr && (List.range 32).any (fun t => (m.tileOf x t).2.1)

/-- The lines given as poisoned, as tile poison. -/
def tilePoison (lines : List Nat) : List Bool := (List.range 32).map (fun t => lines.any (fun l => l / 32 = t))

/-! ### Encoding a pane (R149, R158, R165) -/

/-- The table that an encode latches: number and image of the current generation (R149). -/
def Region.latched (g : Region) : Option (Nat × Mem) :=
  match g.tables.current with
  | some n => (Tbl.find g.tables.gens n).map (fun t => (n, t.image))
  | none => none

/-- What an encode of a pane of the region latches when it starts (R149, R181). -/
def Region.latch (g : Region) : Latch := { table := g.latched.map (fun t => t.1), expFloor := g.expFloor }

/-- The stored form of a pane's contents in its region, encoded with what was latched: form, generation, image (R149, R150, R158). -/
def Region.encodeAs (g : Region) (l : Latch) (tiles : List (List Byte)) (poison : List Bool) : PForm × Nat × List Byte :=
  if tiles.all (fun t => t.all (· = 0)) ∧ poison.all (fun p => !p) then (.zero, 0, [])
  else
    match g.form with
    | .frit => (.frit, 0, fritEncode g.dtype tiles poison)
    | _ =>
      let table := l.table.bind (fun n => (Tbl.find g.tables.gens n).map (fun t => (n, t.image)))
      let img := lehrEncode g.dtype (g.form = .raw) table l.expFloor tiles poison
      (.lehr, (if lehrNoTable (Mem.pack 0 img) then 0 else lehrGen (Mem.pack 0 img)), img)

/-- The same with what the region latches now. -/
def Region.encode (g : Region) (tiles : List (List Byte)) (poison : List Bool) : PForm × Nat × List Byte := g.encodeAs g.latch tiles poison

/-- Symbols that a pane adds to the first-pass histogram (R165). -/
def sampleSymbols (d : DType) (tiles : List (List Byte)) (poison : List Bool) : List Nat :=
  ((tiles.zip poison).filter (fun p => !p.2 && !p.1.all (· = 0))).flatMap (fun p => tileSymbols d p.1)

/-- Sample a pane that an engine encodes into the first pass of a LEHR region that has no table (R165). -/
def Mod.sampleFirst (m : Mod) (r : Nat) (tiles : List (List Byte)) (poison : List Bool) : Mod :=
  m.setRegion r (fun g =>
    let syms := sampleSymbols g.dtype tiles poison
    if g.form = .lehr ∧ g.tables.current = none ∧ g.tables.sampled < 64 ∧ syms ≠ [] then
      { g with tables := { g.tables with sampled := g.tables.sampled + 1,
                                         histogram := syms.foldl (fun t s => Tbl.updD t s 0 (· + 1)) g.tables.histogram } }
    else g)

/-- MAX_EXP_UNITS of an image written for a region enters its statistic SLOWEST_EXP_UNITS (R180). -/
def Mod.noteSlowest (m : Mod) (r : Nat) (form : PForm) (img : Mem) : Mod :=
  if form = .lehr then m.setRegion r (fun g => { g with tables := { g.tables with slowest := max g.tables.slowest (lehrMaxExp img) } }) else m

end Sys2Proof.Machine
end

