-- ==== Sys2Proof/Machine/Places.lean ====
section
/-! DEFINITION. The places behind a pane: the T0 address map and its lost lines (spec/12_gddr7_controller.md R381, R401, R402),
and the requests that this module sends to other modules (spec/10_fabric_memory_space.md R332 to R345). -/
namespace Sys2Proof.Machine

/-- The walker of a record, as a unit ID (R106, R665). -/
def walkerOf (n : Nat) : Nat := 0x8000 + n % 4

/-- The partition that owns a region, 0xFF for none. -/
def Mod.ownerOf (m : Mod) (r : Nat) : Nat := match Tbl.find m.mem.regions r with | some g => g.owner | none => 0xFF

/-! ### The T0 address map (R381) -/

/-- XOR of the 7-bit fields of a number. -/
def xor7 : Nat → Nat → Nat
  | 0, _ => 0
  | n + 1, q => (q % 128) ^^^ xor7 n (q / 128)

/-- Where a T0 byte address lies: channel index, bank, row, data column (R381). -/
structure T0Line where
  chan : Nat
  bank : Nat
  row : Nat
  col : Nat
  deriving DecidableEq, Repr

def Mod.t0Decode (m : Mod) (a : Nat) : T0Line :=
  let n := m.t0.channels.length
  let g := 2 ^ (m.t0.layout % 16 + 8)
  let hash := bit m.t0.layout 4 && n = 128
  let c := a / g
  let q := c / n
  let ch := if hash then (c % n) ^^^ xor7 10 q else c % n
  let ll := (q * g + a % g) / 64
  let r := ll / 31
  { chan := ch, bank := if hash then (r % 16) ^^^ (r / 16 % 16) else r % 16, row := r / 16, col := ll % 31 }

/-- The module-wide channel number of a T0 byte address (R381, R404). -/
def Mod.t0Channel (m : Mod) (a : Nat) : Nat := m.t0.channels.getD (m.t0Decode a).chan 0

/-- The T0 address lies on a channel that is offline (R401). -/
def Mod.t0Lost (m : Mod) (a : Nat) : Bool := m.t0.offline != [] && m.t0.offline.contains (m.t0Channel a)

/-- T0 byte address of byte `off` of a record's T0 image or frame. -/
def PaneRec.t0Addr (x : PaneRec) (off : Nat) : Nat := x.loc * 256 + off

/-- The bytes of a stored image that tile `t` rests on, as start and length. -/
def PaneRec.tileSpan (x : PaneRec) (t : Nat) : Nat × Nat :=
  match x.form with
  | .raw => (t * 2048, 2048)
  | .frit => (64 + t * (imageDType x.img).fritTile, (imageDType x.img).fritTile)
  | .lehr => (128 + ((lehrIndex x.img t).2) * 16, (lehrLen x.img t).toNat * 16)
  | .zero => (0, 0)

/-- Bytes of the header and index that every tile rests on. -/
def PForm.headBytes : PForm → Nat
  | .frit => 64 | .lehr => 128 | _ => 0

/-- Some line that the byte range of a T0 image touches is on an offline channel. -/
def Mod.spanLost (m : Mod) (x : PaneRec) (start len : Nat) : Bool :=
  len != 0 && (List.range ((start + len - 1) / 64 - start / 64 + 1)).any (fun i => m.t0Lost (x.t0Addr ((start / 64 + i) * 64)))

/-- Tile `t` of a packed T0 image cannot be read because a line that it rests on is offline (R467, R473). -/
def Mod.tileLost (m : Mod) (x : PaneRec) (t : Nat) : Bool :=
  m.t0.offline != [] && x.tier = .t0 && (m.spanLost x 0 x.form.headBytes || m.spanLost x (x.tileSpan t).1 (x.tileSpan t).2)

/-- The lines of a raw T0 frame that are offline (R473). -/
def Mod.lostLines (m : Mod) (x : PaneRec) : List Nat :=
  if m.t0.offline = [] ∨ x.tier ≠ .t0 ∨ x.form ≠ .raw then [] else (List.range 1024).filter (fun l => m.t0Lost (x.t0Addr (l * 64)))

/-- The home of a record lies on a T1 port or a T2 die that is out of service: accesses are delivered as POISONED (R412,
R422). -/
def Mod.homeLost (m : Mod) (x : PaneRec) : Bool :=
  match x.tier with
  | .t1 =>
    let st := (m.t1.getD (x.loc / 2 ^ 40) T1Port.init).state
    x.form != .zero && st != T1State.inService && st != T1State.retraining
  | .t2 => x.form != .zero && !m.dieOk x.die
  | _ => false

/-- A read of the place found an uncorrectable error. -/
def badRead (c : Media) : Bool := c == Media.uncorrectable || c == Media.metaLost

/-- VALID of a line of a raw T0 frame: it has been written, or poisoned, since the frame was cleared (R383, R385). Other storage holds an
image in every sector. -/
def PaneRec.lineValid (x : PaneRec) (l : Nat) : Bool := x.tier != .t0 || x.form != .raw || x.written.elim true (fun w => w.contains l) || x.poison.contains l

/-- The lines of a range that a read transfers: a line with VALID 0 gives zeros without a data burst (R385). -/
def PaneRec.readLines (x : PaneRec) (first n : Nat) : List Nat := ((List.range n).map (fun i => first + i)).filter x.lineValid

/-- What the check of a whole home can report. -/
def PaneRec.checkHome (x : PaneRec) (check : Media) : Media :=
  if check ≠ .metaLost ∧ x.readLines 0 (x.sectors * 4) = [] then .good else check

/-- What the check of a line, or of a tile from its first line on, can report: with VALID 0 only the metadata line is checked (R385). -/
def PaneRec.checkOf (x : PaneRec) (line : Nat) (tile : Bool) (check : Media) : Media :=
  if check ≠ .metaLost ∧ (if tile then x.readLines (line / 32 * 32) 32 else x.readLines line 1) = [] then .good else check

/-- Steps taken by a channel or port (R509). -/
def Mod.unitStep (m : Mod) (unit : Nat) : Nat := (Tbl.findD m.test.units unit (0, [])).1

/-- The link of a T1 home is down and retrains: requests wait (R411). -/
def Mod.linkWaits (m : Mod) (x : PaneRec) : Bool :=
  x.tier = .t1 && x.form != .zero && (m.t1.getD (x.loc / 2 ^ 40) T1Port.init).state == T1State.retraining

/-- A place on a T1 port whose link is down and retrains. -/
def Mod.placeWaits (m : Mod) (p : Place) : Bool := p.tier = .t1 && (m.t1.getD (p.loc / 2 ^ 40) T1Port.init).state == T1State.retraining

/-- What the module finds when it reads a whole pane: its contents, with the lines and tiles of offline channels, and a home that is out
of service, as poison (R412, R422, R473). -/
def Mod.readAll (m : Mod) (x : PaneRec) : List (List Byte) × List Nat :=
  let c := m.contents x
  if m.homeLost x then (c.1, List.range 1024)
  else if m.t0.offline = [] ∨ x.tier ≠ .t0 ∨ x.form = .zero then c
  else if x.form = .raw then (c.1, c.2 ++ (m.lostLines x).filter (fun l => !c.2.contains l))
  else (c.1, (List.range 1024).filter (fun l => c.2.contains l || m.tileLost x (l / 32)))

/-- Count an error of a channel or port over the sliding hour; at `n` of them the unit becomes suspect, takes a step, and its count
starts again (R509). Whether it became suspect. -/
def Mod.unitError (m : Mod) (unit n : Nat) : Mod × Bool :=
  let u := Tbl.findD m.test.units unit (0, [])
  let ts := u.2.filter (fun t => decide (m.localTime < t + 3600000000000)) ++ [m.localTime]
  if n ≤ ts.length then (m.setTest (fun t => { t with units := Tbl.put t.units unit (u.1 + 1, []) }), true)
  else (m.setTest (fun t => { t with units := Tbl.put t.units unit (u.1, ts) }), false)

/-- The step of a unit that has gone out of service at its last step stays there (R509). -/
def Mod.capStep (m : Mod) (unit last : Nat) : Mod := m.setTest (fun t => { t with units := Tbl.upd t.units unit (fun u => (min last u.1, u.2)) })

/-- Close rows of a channel, all of them or that of one bank: the changed metadata buffer is written back, and the bank is precharged (R389). -/
def Mod.closeRows (m : Mod) (g : Nat) (bank : Option Nat) : Mod :=
  { m with t0 := { m.t0 with chans := Tbl.upd m.t0.chans g (fun c => { c with banks := c.banks.filter (fun b => bank.any (fun k => b.1 != k)) }) } }

/-- Every row of T0 is closed, as the devices enter self-refresh (R389, R395). -/
def Mod.closeT0 (m : Mod) : Mod := { m with t0 := { m.t0 with chans := [] } }

/-- A T0 channel goes offline until the next cold reset (R401). -/
def Mod.t0Offline (m : Mod) (g : Nat) : Mod :=
  if m.t0.offline.contains g ∨ !m.t0.channels.contains g then m
  else ({ m.closeRows g none with t0 := { (m.closeRows g none).t0 with offline := m.t0.offline ++ [g] } }).logErr { unit := 0x2000 + g, code := 0x0208, sev := .unit, space := .t0 }

/-- Count `n` errors short of a suspicion of a T0 channel; a suspect channel takes a data-rate step, which retrains it, or goes offline beyond the last
(R400, R509). -/
def Mod.t0Suspect (m : Mod) (g n : Nat) : Mod :=
  let e := m.unitError (0x2000 + g) n
  if !e.2 then e.1
  else if e.1.unitStep (0x2000 + g) ≤ 3 then (e.1.closeRows g none).logErr { unit := 0x2000 + g, code := 0x0207, sev := .unit, detail := 40 - 4 * e.1.unitStep (0x2000 + g) }
  else (e.1.capStep (0x2000 + g) 3).t0Offline g

/-- Count a T0 correction and log T0_CORRECTED at most once per channel per second, with the count since the last (R402). The
count is kept under the channel and the second of the last record under 1,000 + channel. -/
def Mod.t0Corrected (m : Mod) (a : Nat) : Mod :=
  let g := m.t0Channel a
  let m1 := (m.count 0x0021 (0x2000 + g) 0xFFFF none 1).t0Suspect g 1000
  let c := Tbl.findD m.t0.corrections g 0 + 1
  if Tbl.find m.t0.corrections (1000 + g) = some m.second then { m1 with t0 := { m1.t0 with corrections := Tbl.put m1.t0.corrections g c } }
  else
    ({ m1 with t0 := { m1.t0 with corrections := Tbl.put (Tbl.put m1.t0.corrections g 0) (1000 + g) m.second } }).logErr
      { unit := 0x2000 + g, code := 0x0201, sev := .corrected, address := a, space := .t0, count := c }

/-- The generation of a DURABLE region that the image of a record at a T2 sector uses, with its region: its table is journalled before the
first such image is written (R169). -/
def Mod.tableFor (m : Mod) (k loc : Nat) : Option (Nat × Nat) :=
  match Tbl.find m.mem.recs k with
  | none => none
  | some x =>
    let gen := fun (f : PForm) (img : Mem) =>
      if f = .lehr ∧ !lehrNoTable img ∧ (Tbl.find m.mem.regions x.region).elim false (fun g => g.durable) then some (x.region, lehrGen img) else none
    match x.parked.filter (fun p => p.place.tier == .t2 && p.place.loc == loc) with
    | some p => gen p.form p.img
    | none => if x.tier = .t2 ∧ x.loc = loc then gen x.form x.img else none

/-- An image enters the T2 write buffer, and its mapping entry awaits the journal (R418, R423), after that of a table that it is the first
of its region to use (R169). -/
def Mod.stageT2 (m : Mod) (k : Nat) (p : Place) (ms : Nat) : Mod :=
  let new := ((m.tableFor k p.loc).filter (fun t => !m.t2.tableJournal.contains t)).toList
  { m with t2 := { m.t2 with writeBuf := m.t2.writeBuf ++ [{ record := k, place := p, master := ms }], journalPending := m.t2.journalPending + 1 + new.length,
                             tableJournal := m.t2.tableJournal ++ new } }

/-! ### Encryption at rest (R194, R427, R428) -/

/-- The XTS key pair of an extent serial, data key and tweak key: for DURABLE regions under the device storage secret, otherwise under the
boot key (R194, R428). -/
def Mod.xtsKeys (m : Mod) (durable : Bool) (serial : Nat) : List Byte × List Byte :=
  let k := Config.hkdfSha384 (Config.atRestSecret durable (if durable then m.boot.storageEpoch else m.boot.bootKeyEpoch))
    ([0x5A, 0x50, 0x56, 0x2D, 0x58, 0x54, 0x53] ++ leBytes 8 serial) 64
  (k.take 32, k.drop 32)

/-- The tweak of a data unit: the tier in bits [63:56] and the sector address in bits [43:0] (R427). -/
def xtsTweak (t : Tier) (sector : Nat) : List Byte := leBytes 16 (sector % 2 ^ 44 + (if t = .t1 then 1 else 2) * 2 ^ 56)

/-- The image that a record holds at a place: its home's or its parked slot's. -/
def PaneRec.imageAt (x : PaneRec) (p : Place) : Mem :=
  match x.parked.filter (fun q => q.place.tier == p.tier && q.place.loc == p.loc) with
  | some q => q.img
  | none => x.img

/-- The data units of an image at a place as they are stored, one for each 256 B sector (R427). -/
def Mod.ciphertext (m : Mod) (x : PaneRec) (p : Place) : List (List Byte) :=
  let keys := m.xtsKeys ((Tbl.find m.mem.regions x.region).elim false (fun g => g.durable)) ((Tbl.find m.mem.extents x.extent).elim 0 (fun e => e.serial))
  (List.range p.sectors).map (fun i => Config.aes256Xts keys.1 keys.2 (xtsTweak p.tier (p.loc + i)) (Mem.block (x.imageAt p) (256 * i) 256))

/-- An image of a record goes to a place in T1 or T2: encrypted there anew, whatever its source (R427), and charged to a master (R348,
R349); programs of T2 are counted as they complete. -/
def Mod.storeImage (m : Mod) (k : Nat) (p : Place) (ms : Nat) : Mod :=
  match Tbl.find m.mem.recs k with
  | none => m
  | some x =>
    let m1 := m.send (.media p.tier p.loc (m.ciphertext x p))
    match p.tier with
    | .t1 => m1.count 0x0006 (0x3000 + p.loc / 2 ^ 40) ms (some (m.ownerOf x.region)) (p.sectors * 256)
    | .t2 => m1.stageT2 k p ms
    | _ => m

/-! ### Requests to other modules (R332, R333, R335, R345) -/

/-- The 32 B reference of R333. -/
def refBytes (index version wctx origin genLow flags : Nat) : List Byte :=
  leBytes 8 index ++ leBytes 4 version ++ leBytes 4 wctx ++ leBytes 2 origin ++ leBytes 2 genLow ++ leBytes 1 flags ++ List.replicate 11 0

/-- The partition that binds an LD. -/
def Mod.ldPart (m : Mod) (l : Nat) : Option Nat := (Tbl.find m.mem.lds l).map (fun b => b.partition)

/-- The movement that made an access (R354). -/
def Mod.movementOf (m : Mod) : WriteSrc → Option Nat
  | .core c _ => (Tbl.find m.cores c).bind (fun k => k.movement)
  | _ => none

/-- The master to which an access is charged (R347): a movement's is that of its partition, a stream's that of its holder LD. -/
def Mod.masterOf (m : Mod) : WriteSrc → Nat
  | .host l _ => l
  | .core c _ => 0x2000 + (((Tbl.find m.cores c).bind (fun k => k.movement)).bind (fun v => Tbl.find m.mvs v)).elim 0 (fun v => v.partition)
  | .remote _ _ _ part => 0x1000 + part % 64
  | .ingest t => ((Tbl.find m.ctxs t).bind (fun c => c.holder)).getD 0
  | .engine => 0x3000

/-! ### Requests that wait at their source (R351, R353, R355) -/

/-- The partition that an access counts under in the request queues; none for the common pool (R355). -/
def Mod.queuePart (m : Mod) : WriteSrc → Option Nat
  | .host l _ => m.ldPart l
  | .core c _ => ((m.movementOf (.core c 0)).bind (fun v => Tbl.find m.mvs v)).map (fun v => v.partition)
  | .ingest t => (Tbl.find m.streams t).map (fun t => t.partition)
  | _ => none

/-- The B-die in whose request queue an access to a pane waits: that of its record's walker, and that of the pane index where there is no
record (DESIGN CHOICE, R106, R355). -/
def Mod.queueDie (m : Mod) (r : Nat) (sel : VerSel) (pane : Nat) : Nat := ((m.recAt r sel pane).map (fun x => x.1)).getD pane % 4

def WaitFor.atSource : WaitFor → Bool
  | .credit => true | .window => true | _ => false

/-- Queue entries of a B-die in use, each by its partition. -/
def Mod.queued (m : Mod) (b : Nat) : List (Option Nat) :=
  ((m.mem.heldReads.filter (fun h => !h.wait.atSource && m.queueDie h.region h.sel h.pane = b)).map (fun h => m.queuePart h.src)) ++
  ((m.mem.heldWrites.filter (fun h => !h.wait.atSource && m.queueDie h.region h.sel h.pane = b)).map (fun h => m.queuePart h.src))

/-- No entry is free for a partition: it holds its QUEUE_MAX, or is at or above its QUEUE_MIN while the 3,072 entries are in use or kept
for the minimums of others; or the common pool of 1,024 is full (R355). -/
def Mod.queueFull (m : Mod) (b : Nat) (part : Option Nat) : Bool :=
  let q := m.queued b
  let used := fun (p : Nat) => (q.filter (fun x => x = some p)).length
  match part with
  | none => decide (1024 ≤ (q.filter (fun x => x.isNone)).length)
  | some p =>
    match Tbl.find m.mem.parts p with
    | none => false
    | some s => decide (s.queueMax ≤ used p) ||
        (decide (s.queueMin ≤ used p) && decide (3072 ≤ sumOf (m.mem.parts.map (fun y => max (used y.1) y.2.queueMin))))

/-- An access waits at its source: for an entry of the B-die's queue, or, unless it has waited past the age limit, because its master has
spent its MAX of a resource that it needs, as code and index (R351, R353, R355). -/
def Mod.sourceWait (m : Mod) (src : WriteSrc) (b : Nat) (needs : List (Nat × Nat)) (issued : Option Nat) : Option WaitFor :=
  if m.queueFull b (m.queuePart src) then some .credit
  else if m.pastAge (issued.getD m.localTime) then none
  else if needs.any (fun x => m.overMax x.1 x.2 (m.masterOf src) (m.movementOf src)) then some .window
  else none

/-- The resource that a tier is (R349). -/
def Tier.resource : Tier → List (Nat × Nat)
  | .t0 => [(1, 0)] | .t1 => [(2, 0)] | .t2 => [(3, 0)] | .unbacked => []

/-- What a read of a record waits for: its seal encode, its T1 link, or its turn (R211, R351, R355, R411). -/
def Mod.readWaits (m : Mod) (src : WriteSrc) (k : Nat) (x : PaneRec) (needs : List (Nat × Nat)) (issued : Option Nat) : Option WaitFor :=
  if x.sealEncode then some .encode
  else if m.linkWaits x then some .t1Link
  else m.sourceWait src (k % 4) (needs ++ (if x.form = .zero then [] else x.tier.resource)) issued

/-- The unit at which an access waits, for HELD_AT_MAX (R525): a host port, or a core. -/
def WriteSrc.unit : WriteSrc → Nat
  | .host l _ => 0x6000 + l / 16
  | .core c _ => 0x1000 + c
  | _ => 0x8000

/-- HELD_AT_MAX counts a request once, when it is first held (R351, R525). -/
def Mod.noteHeld (m : Mod) (src : WriteSrc) (why : WaitFor) (issued : Option Nat) : Mod :=
  if why = .window ∧ issued = none then m.count 0x0033 src.unit (m.masterOf src) (m.queuePart src) 1 else m

/-- A host request that has waited is answered: U3_REQUESTS, LATE_RESPONSES and AGE_PROMOTIONS count it (R353, R362, R525). -/
def Mod.noteLate (m : Mod) (l : Nat) (issued : Option Nat) : Mod :=
  let age := m.localTime - issued.getD m.localTime
  let t := (m.port (l / 16)).latencyTarget
  let up := fun (m : Mod) (c : Bool) (event : Nat) => if c then m.count event (0x6000 + l / 16) l (m.ldPart l) 1 else m
  up (up (up m (t ≠ 0 && t ≤ age) 0x0030) (t ≠ 0 && t < age) 0x0031) (m.pastAge (issued.getD m.localTime)) 0x0032

/-- A read waits from now on. -/
def Mod.holdRead (m : Mod) (h : HeldRead) : Mod :=
  (m.noteHeld h.src h.wait h.issued).setMem (fun e => { e with heldReads := e.heldReads ++ [{ h with issued := some (h.issued.getD m.localTime) }] })

/-- Send the requests that wait while fewer than 16,384 are outstanding (R345). -/
def Mod.sendWaiting (m : Mod) : Mod :=
  let out := (m.fm.requests.filter (fun q => q.sent)).length
  let go := (m.fm.requests.filter (fun q => !q.sent)).take (16384 - out)
  if go = [] then m
  else
    (m.setFm (fun e => { e with requests := e.requests.map (fun q => if go.any (fun y => y.tag = q.tag) then { q with sent := true } else q) })).each go
      (fun m q => m.sendPacket q.packet)

/-- Send a request and remember what awaits its answer. KIND: 0 host line read, 1 host line write, 2 core tile fetch, 3 core tile
store, 4 heal tile read, 5 indirect buffer read, 6 indirect buffer write, 7 REHOME_DATA, 8 COMPARE of a remote tile,
9 a line read for a partial write, whose merged line is then written, 10 a tile of a paced stream. -/
def Mod.request (m : Mod) (kind dest cls op tagExtra flow : Nat) (payload : List Byte) (address : Nat) (src : WriteSrc) (context part : Nat)
    (poison : Bool := false) (data : List Byte := []) (enable : List Bool := []) : Mod :=
  let tag := m.fm.nextTag
  let q : RemoteReq := { tag := tag, device := dest, kind := kind, address := address, src := src, context := context,
                         packet := (m.packetTo dest cls flow op tag payload part poison).chargedTo (if kind = 7 then 0x3008 else m.masterOf src) (m.movementOf src),
                         sent := false,
                         data := data, enable := enable }
  (m.setFm (fun e => { e with requests := e.requests ++ [q], nextTag := (tag + 1 + tagExtra) % 2 ^ 32 })).sendWaiting

/-- The request with a tag. -/
def Mod.requestOf (m : Mod) (tag : Nat) : Option RemoteReq := m.fm.requests.find? (fun q => q.tag = tag)

/-- A request is settled: it is forgotten, and the next that waits is sent. -/
def Mod.settleRequest (m : Mod) (tag : Nat) : Mod :=
  (m.setFm (fun e => { e with requests := e.requests.filter (fun q => q.tag != tag) })).sendWaiting

/-! ### Units at fault (R513) -/

/-- Work on a drained module's records needs a faulted unit: a faulted walker of one of them, or a faulted router. The spec does not say which
routers it crosses: with one at fault, that is a free choice (R513). -/
def Mod.needsFaulted (m : Mod) (walkers : List Nat) : Bool × Mod :=
  if m.boot.readiness ≠ .draining then (false, m)
  else if walkers.any m.test.privileged.contains then (true, m)
  else if m.test.privileged.any (fun u => u / 4096 = 10 || u / 4096 = 5) then let c := m.choose 2; (decide (c.1 = 1), c.2)
  else (false, m)

end Sys2Proof.Machine
end

