-- ==== Sys2Proof/Machine/T0Queues.lean ====
section
/-! DEFINITION. The GDDR7 channels: queues, open rows, drains of writes and in-order mode (spec/12_gddr7_controller.md R389 to R393). The
requests of a command enter the queues and are all issued within it, so that between commands the queues are empty and the rows stay open. -/
namespace Sys2Proof.Machine

/-- A bank that is precharged and has nothing to do. -/
def T0Bank.init : T0Bank := { row := none, changed := false, queue := [], passed := 0, inOrder := false }

/-- A channel with empty queues and no row open. -/
def T0Chan.init : T0Chan := { reads := [], writes := [], banks := [], drain := false, arrivals := 0 }

def T0Chan.bank (c : T0Chan) (b : Nat) : T0Bank := Tbl.findD c.banks b T0Bank.init
def T0Chan.setBank (c : T0Chan) (b : Nat) (f : T0Bank → T0Bank) : T0Chan := { c with banks := Tbl.updD c.banks b T0Bank.init f }

/-- Two requests for one line of which at least one is a write (R392). -/
def T0Req.clash (x y : T0Req) : Bool := x.bank = y.bank && x.row = y.row && x.col = y.col && (x.write || y.write)

/-- Every queued request of a bank. -/
def T0Chan.queued (c : T0Chan) (b : Nat) : List T0Req := (c.bank b).queue ++ (c.reads ++ c.writes).filter (fun x => x.bank = b)

/-- Some two queued requests of a bank name the same line. -/
def T0Chan.clashing (c : T0Chan) (b : Nat) : Bool :=
  let q := c.queued b
  q.any (fun x => q.any (fun y => x.seq != y.seq && x.clash y))

/-- A request enters its queue; one that names the line of a queued request puts the bank into in-order mode (R392). Whether the mode was
entered by it. -/
def T0Chan.arrive (c : T0Chan) (x : T0Req) : T0Chan × Bool :=
  let y := { x with seq := c.arrivals }
  let meets := (c.queued x.bank).any y.clash
  let c1 := if x.write then { c with writes := c.writes ++ [y], arrivals := c.arrivals + 1 } else { c with reads := c.reads ++ [y], arrivals := c.arrivals + 1 }
  (if meets then c1.setBank x.bank (fun k => { k with inOrder := true }) else c1, meets && !(c.bank x.bank).inOrder)

/-- The state of the drain (R391): it starts at 48 writes or when no read is waiting, and stops at 16 while a read waits. -/
def T0Chan.drainNow (c : T0Chan) : Bool :=
  if c.drain then !(decide (c.writes.length ≤ 16) && c.reads != []) else (decide (48 ≤ c.writes.length) || c.reads == [])

/-- The next request to move into a bank queue: one whose bank queue has room; a promoted or U3 request first, then a read, then, in a drain, a
write; for a bank in in-order mode only the oldest that is queued for it (R390 to R392). The order of R352 among the requests of one command is
that of their arrival. -/
def T0Chan.nextIn (c : T0Chan) : Option T0Req :=
  let room := fun (x : T0Req) => decide ((c.bank x.bank).queue.length < 4)
  let due := fun (x : T0Req) => if (c.bank x.bank).inOrder then
      ((c.reads ++ c.writes).filter (fun y => y.bank = x.bank)).all (fun y => decide (x.seq ≤ y.seq)) else !x.write || x.urgent || c.drain
  let can := fun (x : T0Req) => room x && due x
  match (c.reads ++ c.writes).find? (fun x => can x && x.urgent) with
  | some x => some x
  | none => (c.reads ++ c.writes).find? can

/-- Move requests into the bank queues while any can move. -/
def T0Chan.fill (c : T0Chan) : Nat → T0Chan
  | 0 => c
  | n + 1 =>
    let d := { c with drain := c.drainNow }
    match d.nextIn with
    | none => d
    | some x =>
      ({ d with reads := d.reads.filter (fun y => y.seq != x.seq), writes := d.writes.filter (fun y => y.seq != x.seq) }.setBank x.bank
        (fun k => { k with queue := k.queue ++ [x] })).fill n

/-- The place in its queue of the request that a bank issues next (R390): in in-order mode the first; otherwise the first if it hits the open
row, or else the first hit that at most 15 others have preceded past the waiting miss and that passes no promoted or U3 request, or else the
miss. -/
def T0Bank.pick (b : T0Bank) : Nat :=
  match b.queue.findIdx? (fun x => b.row = some x.row) with
  | some i => if i = 0 ∨ (!b.inOrder ∧ b.passed < 16 ∧ !(b.queue.take i).any (fun x => x.urgent)) then i else 0
  | none => 0

/-- A bank issues a request: a miss precharges the row, whose changed metadata buffer is written back first, and activates its own, which fills
the buffer; a write changes the buffer (R389). Whether a row was activated. -/
def T0Bank.issue (b : T0Bank) : T0Bank × Bool :=
  let i := b.pick
  match b.queue[i]? with
  | none => (b, false)
  | some x =>
    let hit := b.row == some x.row
    ({ b with queue := b.queue.eraseIdx i, row := some x.row, changed := (hit && b.changed) || x.write,
              passed := if !hit then 0 else if i = 0 then b.passed else b.passed + 1 }, !hit)

/-- Every bank with a request issues one. The rows activated. -/
def T0Chan.issueAll (c : T0Chan) : T0Chan × Nat :=
  c.banks.foldl (fun a e =>
    if e.2.queue = [] then a
    else
      let r := (a.1.bank e.1).issue
      let d := a.1.setBank e.1 (fun _ => r.1)
      (d.setBank e.1 (fun k => { k with inOrder := k.inOrder && d.clashing e.1 }), a.2 + b2n r.2)) (c, 0)

/-- Serve requests until none waits: those that find their queue full wait at their source. The channel, the rows activated and the entries into
in-order mode. -/
def T0Chan.serve (c : T0Chan) : Nat → List T0Req → Nat → Nat → T0Chan × Nat × Nat
  | 0, _, acts, ords => (c, acts, ords)
  | n + 1, waiting, acts, ords =>
    let take := fun (a : T0Chan × List T0Req × Nat) (x : T0Req) =>
      if (if x.write then a.1.writes.length else a.1.reads.length) < 64 then let r := a.1.arrive x; (r.1, a.2.1, a.2.2 + b2n r.2) else (a.1, a.2.1 ++ [x], a.2.2)
    let a := waiting.foldl take (c, [], ords)
    let f := a.1.fill 128
    if a.2.1 = [] ∧ f.reads = [] ∧ f.writes = [] ∧ f.banks.all (fun b => b.2.queue = []) then (f, acts, a.2.2)
    else let i := f.issueAll; i.1.serve n a.2.1 (acts + i.2) a.2.2

/-- The lines of a run of T0 bytes, each with its channel. -/
def Mod.t0Lines (m : Mod) (write urgent : Bool) (a n : Nat) : List (Nat × T0Req) :=
  (List.range ((a + n + 63) / 64 - a / 64)).map (fun i =>
    let d := m.t0Decode ((a / 64 + i) * 64)
    (m.t0Channel ((a / 64 + i) * 64), { write := write, bank := d.bank, row := d.row, col := d.col, seq := 0, urgent := urgent }))

/-- A read or a write of a run of T0 bytes at the channels (R389 to R392): the activates and the entries into in-order mode are counted (R404,
R525). An offline channel answers without its devices (R401). That no request of the run is promoted or at U3 is a free choice (log 9). -/
def Mod.t0Access (m : Mod) (write : Bool) (a n master : Nat) : Mod :=
  let u := m.choose 2
  let ls := (m.t0Lines write (u.1 = 1) a n).filter (fun x => !m.t0.offline.contains x.1)
  let gs := ls.foldl (fun l x => if l.contains x.1 then l else l ++ [x.1]) []
  u.2.each gs (fun m g =>
    let mine := (ls.filter (fun x => x.1 = g)).map (fun x => x.2)
    let r := (Tbl.findD m.t0.chans g T0Chan.init).serve (2 * mine.length + 2) mine 0 0
    (({ m with t0 := { m.t0 with chans := Tbl.put m.t0.chans g r.1 } }).count 0x0020 (0x2000 + g) master none r.2.1).count 0x0023 (0x2000 + g) master none r.2.2)

end Sys2Proof.Machine
end

