-- ==== Sys2Proof/Machine/Moves.lean ====
section
/-! DEFINITION. Writes to panes and the moves of panes between tiers (spec/03_tiers_and_panes.md R108 to R123,
spec/06_extents_sharing_versions.md R205, R211): what a write does at once, what it waits for, and each commit. -/
namespace Sys2Proof.Machine

/-! ### Access counters (R111) -/

/-- Add 1 to a record's COUNTER, saturating at 255. -/
def Mod.bump (m : Mod) (k : Nat) : Mod := m.setRec k (fun x => { x with counter := satInc 255 x.counter })

/-- A host line access that hits T0: every sixteenth of the port's hits counts (R111). -/
def Mod.lineHit (m : Mod) (h k : Nat) : Mod :=
  let n := (m.mem.lineHits.getD h 0 + 1) % 16
  let m1 := m.setMem (fun e => { e with lineHits := e.lineHits.set h n })
  if n = 0 then m1.bump k else m1

/-! ### Starting moves (R113 to R119) -/

/-- Sectors that a pane takes in T0, in the T0 form of R107. -/
def Region.t0Sectors (g : Region) (x : PaneRec) : Nat :=
  if x.form = .zero then 0 else if !g.packed then 256 else if x.form = .raw then g.worst else x.sectors

/-- A pane that the victim selector may choose (R115). -/
def Mod.evictable (m : Mod) (x : PaneRec) : Bool :=
  x.tier = .t0 && x.state = .stable && x.old.isNone && !x.sealEncode && x.unpacking.isNone &&
  (match Tbl.find m.mem.regions x.region with | some g => m.residency g != Residency.pinT0 | none => false)

/-- A move of the pane ends or is abandoned: what it had reserved and latched goes, and a pane that is not POISONED is STABLE. -/
def PaneRec.settled (x : PaneRec) : PaneRec :=
  { x with state := if x.state = .poisoned then .poisoned else .stable, dest := none, demand := false, mover := none, rawDest := false, latch := none }

/-- A move down meets a write or a promotion request before its commit: it is cancelled, and its destination is free (R123, R175). -/
def Mod.cancelDown (m : Mod) (k : Nat) : Mod := m.setRec k (fun x => if x.state = .movingDown then x.settled else x)

/-- The pane keeps a Lehr engine busy: an encode, or a decode into a raw frame, but not a copy of an image, a pointer swap or a ZERO pane
(R161, R162). -/
def PaneRec.engineJob (x : PaneRec) : Bool :=
  x.form != .zero && ((x.state == .movingUp && x.rawDest) || x.sealEncode || x.unpacking.isSome || (x.state == .movingDown && x.latch.isSome))

/-- Copies on write that decode their source, on the B-die of a record's walker (R162, R205). -/
def Mod.cowJobs (m : Mod) (k : Nat) : Nat :=
  (m.mem.cows.filter (fun c => c.source % 4 = k % 4 && (Tbl.find m.mem.recs c.source).elim false (fun x => x.form == .lehr || x.form == .frit))).length

/-- The queue of the Lehr engine that serves record `k` is full: 256 pane jobs on the B-die of its walker (R162, R163). Seal encodes beyond
the 256 wait outside the queue. -/
def Mod.engineFull (m : Mod) (k : Nat) : Bool :=
  decide (256 ≤ (m.mem.recs.filter (fun p => p.1 % 4 = k % 4 && p.2.engineJob)).length + m.cowJobs k)

/-- Reserve the place of an image that leaves T0: for PIN_LOW in T2, or in T1 when T2 is absent (R117), otherwise under R116. -/
def Mod.downPlace (m : Mod) (low : Bool) (n : Nat) : Option Place × Mod :=
  if low then m.turnAlloc (if m.t2Bytes ≠ 0 then .t2 else .t1) n else m.evictPlace n

/-- Step 1 of an eviction, as PIN_LOW or not: reserve the destination, or use the parked slot, and set MOVING_DOWN (R119, R121). An image
in the same form is copied; otherwise the encode latches its table and EXP_FLOOR (R149, R161, R181). A parked slot in T1 is not the home
that PIN_LOW asks for while T2 is present. -/
def Mod.evictAs (m : Mod) (k : Nat) (low : Bool) : Mod :=
  match Tbl.find m.mem.recs k with
  | none => m
  | some x =>
    match Tbl.find m.mem.regions x.region with
    | none => m
    | some g =>
      let down := fun (m : Mod) (p : Place) (l : Option Latch) => m.setRec k (fun x => { x with state := .movingDown, dest := some p, latch := l })
      if x.state ≠ .stable ∨ x.tier ≠ .t0 ∨ x.sealEncode ∨ x.unpacking ≠ none ∨ x.old ≠ none then m
      else
        match if m.immutable k x then x.parked.filter (fun p => !low || m.t2Bytes = 0 || p.place.tier == .t2) else none with
        | some p => down m p.place none
        | none =>
          if x.form = .zero then
            down m { tier := if low then (if m.t2Bytes ≠ 0 then .t2 else .t1) else m.evictTier, loc := 0, sectors := 0 } none
          else
            let copies := x.form ≠ .raw ∧ x.poison = []
            if !copies ∧ m.engineFull k then m
            else
              match m.downPlace low (if x.form = .raw then g.worst else max x.sectors g.worst) with
              | (some p, m1) => down m1 p (if copies then none else some g.latch)
              | (none, m1) => m1

/-- Step 1 of an eviction (R119). -/
def Mod.startEvict (m : Mod) (k : Nat) : Mod :=
  m.evictAs k ((Tbl.find m.mem.recs k).elim false (fun x => (Tbl.find m.mem.regions x.region).elim false (fun g => m.residency g == .pinLow)))

/-- The next victim among the panes that pass the test: COUNTER at or below EVICT_BELOW first, then the lowest COUNTER, then
the oldest promotion (R115). -/
def Mod.victim (m : Mod) (ok : PaneRec → Bool) : Option Nat :=
  let below := fun (x : PaneRec) => match Tbl.find m.mem.regions x.region with | some g => decide (x.counter ≤ g.evictBelow) | none => false
  let le := fun (a b : Nat × PaneRec) =>
    (below a.2 && !below b.2) ||
    (below a.2 == below b.2 && (decide (a.2.counter < b.2.counter) || (a.2.counter == b.2.counter && decide (a.2.promo < b.2.promo))))
  (bestBy le (m.mem.recs.filter (fun x => m.evictable x.2 && ok x.2))).map (fun x => x.1)

def Mod.ownedBy (m : Mod) (part : Nat) (x : PaneRec) : Bool :=
  match Tbl.find m.mem.regions x.region with | some g => g.owner = part | none => false

/-- T0 bytes of a partition, or of all, that evictions in progress will free. -/
def Mod.t0Leaving (m : Mod) (part : Option Nat) : Nat :=
  sumOf (m.mem.recs.map (fun x =>
    if x.2.tier = .t0 ∧ x.2.state = .movingDown ∧ x.2.dest.elim false (fun p => p.tier != .t0) ∧ part.elim true (fun p => m.ownedBy p x.2)
    then x.2.bytesIn .t0 else 0))

/-- T0 residency of a partition once its evictions in progress have committed. -/
def Mod.partStays (m : Mod) (part : Nat) : Nat := m.partT0 part - m.t0Leaving (some part)

/-- Excess of a partition above its minimum share. -/
def Mod.excess (m : Mod) (p : Nat × Part) : Nat := m.partStays p.1 - m.t0MinNow p.2

/-- The next victim of the selector: of the partitions above their maximum share, otherwise of those above their minimum share in order
of excess (R115). Among those above their maximum share, for which the rule gives no order, that order is taken as well (DESIGN
CHOICE). -/
def Mod.nextVictim (m : Mod) (onlyOver : Bool) : Option Nat :=
  let tooBig := m.mem.parts.filter (fun p => decide (m.t0Max p.1 < m.partStays p.1) && decide (m.t0MinNow p.2 < m.partStays p.1))
  let above := m.mem.parts.filter (fun p => decide (m.t0MinNow p.2 < m.partStays p.1))
  let order := sortBy (fun a b => decide (m.excess b ≤ m.excess a)) tooBig ++
    (if onlyOver then [] else sortBy (fun a b => decide (m.excess b ≤ m.excess a)) above)
  order.findSome? (fun p => m.victim (m.ownedBy p.1))

/-- A full T0 pool: the selector runs for a write that waits for a frame, unless an eviction in progress frees one (R114, R115). -/
def Mod.freeFrame (m : Mod) : Mod :=
  if m.t0Leaving none ≠ 0 then m else match m.nextVictim false with | some v => m.startEvict v | none => m

/-- Step 1 of a promotion to T0: reserve the destination and set MOVING_UP (R118). Nothing happens where the pane is not
STABLE or no space is free. -/
def Mod.startPromote (m : Mod) (k : Nat) (demand : Bool) (mover : Option Nat) : Mod × Bool :=
  match Tbl.find m.mem.recs k with
  | none => (m, false)
  | some x =>
    match Tbl.find m.mem.regions x.region with
    | none => (m, false)
    | some g =>
      let raw := !g.packed && x.form != .zero
      if x.state ≠ .stable ∨ x.tier = .t0 ∨ x.tier = .unbacked ∨ x.old ≠ none ∨ (raw ∧ m.engineFull k) then (m, false)
      else
        let n := g.t0Sectors x
        match if n = 0 then some 0 else m.t0Alloc (m.residency g = .pinT0) n (if g.packed then 1 else 256) with
        | some s =>
          (m.setRec k (fun x => { x with state := .movingUp, demand := demand, mover := mover, rawDest := raw, wish := none,
                                         dest := some { tier := .t0, loc := s, sectors := n } }), true)
        | none => (m, false)

/-- The partition's T0 residency with `bytes` more stays within its maximum share (R114). -/
def Mod.shareOk (m : Mod) (part bytes : Nat) : Bool := decide (m.partT0 part + bytes ≤ m.t0Max part)

/-- What a partition's maximum share says of a promotion (R114). -/
inductive Room where
  /-- It stays within the share. -/
  | now
  /-- An eviction of one of the partition's own panes makes room first. -/
  | later
  /-- None of the partition's panes is evictable. -/
  | never
  deriving DecidableEq, Repr

/-- Room in a partition's maximum share for `bytes` of T0, starting the eviction of one of its own panes where the evictions in progress
do not make it (R114). -/
def Mod.roomInShare (m : Mod) (part bytes : Nat) : Mod × Room :=
  if m.shareOk part bytes then (m, .now)
  else if m.partStays part + bytes ≤ m.t0Max part then (m, .later)
  else
    match m.victim (m.ownedBy part) with
    | none => (m, .never)
    | some v =>
      let m1 := m.startEvict v
      (m1, if (Tbl.find m1.mem.recs v).elim false (fun y => y.state == .movingDown) then .later else .never)

/-- A promotion request of a read or fetch, or one that has waited, for a pane below T0 (R114, R123): to T0 when the share allows;
otherwise one of the partition's own panes is evicted first and the request waits for it; when none is evictable a pane in T2 goes to T1
if T1 is usable, and otherwise it is served from the transit buffer and stays where it was. A demand promotion is of the accessing
master, a threshold promotion of an engine (R113), which a full engine queue drops to the next access (R163). -/
def Mod.promoteForRead (m0 : Mod) (k : Nat) (master : Option Nat) : Mod :=
  let m := if (Tbl.find m0.mem.recs k).elim false (fun x => x.tier != .t0) then m0.cancelDown k else m0
  match Tbl.find m.mem.recs k with
  | none => m
  | some x =>
    match Tbl.find m.mem.regions x.region with
    | none => m
    | some g =>
      let wait := fun (m : Mod) => m.setRec k (fun x => { x with wish := some master })
      if x.state ≠ .stable ∨ x.tier = .t0 ∨ x.tier = .unbacked ∨ x.wish ≠ none then m
      else if x.old ≠ none then wait m
      else if !g.packed ∧ x.form ≠ .zero ∧ m.engineFull k then (if master.isSome then wait m else m)
      else
        match m.roomInShare g.owner (g.t0Sectors x * 256) with
        | (m1, .now) =>
          let p := m1.startPromote k true master
          if p.2 then p.1 else wait p.1.freeFrame
        | (m1, .later) => wait m1
        | (m1, .never) =>
          if x.tier = .t2 ∧ m1.t1Usable then
            match m1.lowAlloc .t1 x.sectors (m1.mem.recs.length + 1) with
            | (some p, m2) => m2.setRec k (fun x => { x with state := .movingUp, demand := true, mover := master, dest := some p })
            | (none, m2) => m2
          else m1

/-- The promotion requests that wait are tried again (R114, R123, R163). -/
def Mod.runWishes (m : Mod) : Mod :=
  m.each (m.mem.recs.filter (fun x => x.2.wish.isSome && x.2.state == .stable && x.2.old.isNone)) (fun m x =>
    (m.setRec x.1 (fun y => { y with wish := none })).promoteForRead x.1 (x.2.wish.getD none))

/-! ### Applying writes to a frame (R386) -/

/-- The bytes of a write that are enabled, merged into a store. -/
def mergeBytes : Mem → Nat → List Byte → List Bool → Mem
  | m, _, [], _ => m
  | m, a, b :: bs, en => mergeBytes (if en.headD true then Mem.wr m a b else m) (a + 1) bs en.tail

/-- Apply a write to a raw frame: the bytes, and the poison of each line that it meets. A whole-line write sets or clears the
line's poison; a partial one keeps it or adds its own (R386). -/
def PaneRec.apply (x : PaneRec) (offset : Nat) (bytes : List Byte) (enable : List Bool) (poisoned : Bool) : PaneRec :=
  let whole := enable.all id && offset % 64 = 0 && bytes.length % 64 = 0
  let first := offset / 64
  let lines := (List.range (ceilDiv (offset % 64 + bytes.length) 64)).map (fun i => first + i)
  let kept := if whole then x.poison.filter (fun l => !lines.contains l) else x.poison
  { x with img := mergeBytes x.img offset bytes enable,
           written := x.written.map (fun w => w ++ lines.filter (fun l => !w.contains l)),
           poison := if poisoned then kept ++ lines.filter (fun l => !kept.contains l) else kept }

/-- OPERATION of a record about a write (R485). -/
def Mod.writeOpn (m : Mod) (src : WriteSrc) : Opn :=
  match src with
  | .core c t => .tileStore (((Tbl.find m.cores c).bind (fun k => k.stores.find? (fun s => s.ticket = t))).elim 0 (fun s => s.op))
  | .remote _ _ _ _ => .remote
  | .host _ _ | .ingest _ | .engine => .hostWrite

/-- DevLoad of a number of queue entries in use against QUEUE_MAX: Light below 25%, Optimal below 75%, Moderate Overload below 100%,
and Severe Overload at QUEUE_MAX (R436). -/
def loadClass (used most : Nat) : Nat :=
  if used * 4 < most then 0 else if used * 4 < most * 3 then 1 else if used < most then 2 else 3

/-- DevLoad of a response: in MLD mode from the entries that the LD's partition holds in the queue of the B-die that served the request;
Light Load in SLD mode (R436). Which B-die that is where nothing names one, and the DevLoad of an LD with no partition, are free
choices (DESIGN CHOICE, log 9). -/
def Mod.devLoad (m : Mod) (l : Nat) (die : Option Nat := none) : Nat × Mod :=
  if (m.port (l / 16)).mode ≠ .mld then (0, m)
  else
    match (m.ldPart l).bind (fun p => (Tbl.find m.mem.parts p).map (fun x => (p, x.queueMax))) with
    | none => m.choose 4
    | some (p, most) =>
      let b := match die with
        | some b => (b, m)
        | none => m.choose 4
      (loadClass ((b.2.queued b.1).countP (fun x => x = some p)) most, b.2)

/-- Complete a host write, served by a B-die. -/
def Mod.hostCmp (m : Mod) (l tag : Nat) (die : Option Nat := none) : Mod :=
  let d := m.devLoad l die
  d.2.send (.cxlCmp l tag d.1)

/-- The answer to the source of a completed write: a host gets its completion, a remote module WR_ACK (recorded by the
fabric files), a core store and an ingest write are marked by their own families. -/
def Mod.writeDone (m : Mod) (w : HeldWrite) : Mod :=
  match w.src with
  | .host l tag => (m.noteLate l w.issued).hostCmp l tag (some (m.queueDie w.region w.sel w.pane))
  | .core c ticket => { m with cores := Tbl.upd m.cores c (fun k => { k with stores := k.stores.filter (fun s => s.ticket != ticket || (s.image.isSome && w.image.isNone)) }) }
  | .remote flow dev tag _ => m.sendPacket (m.packetTo dev 1 flow 0x16 tag [])
  | .ingest _ => m
  | .engine => m

/-- A new record with a cleared raw frame at a T0 place (R103, R205, R387). -/
def PaneRec.fresh (r pane extent loc : Nat) (elastic : Bool) (promo now : Nat) : PaneRec :=
  { region := r, pane := pane, extent := extent, state := .stable, tier := .t0, form := .raw, gen := 0, counter := 0, loc := loc,
    sectors := 256, die := 0, img := [], poison := [], parked := none, dest := none, demand := false, old := none, promo := promo,
    lastWrite := now, encoded := none, elasticHeld := elastic, sealEncode := false, unpacking := none, written := some [] }

/-- Give a record a raw T0 frame at `loc` with these contents, STABLE (R103, R104). -/
def PaneRec.inFrame (x : PaneRec) (loc : Nat) (img : Mem) (poison : List Nat) (written : Option (List Nat) := none) : PaneRec :=
  { x with state := .stable, tier := .t0, form := .raw, gen := 0, loc := loc, sectors := 256, die := 0, img := img, poison := poison,
           parked := none, dest := none, old := none, oldParks := false, wish := none, latch := none, written := written }

/-- What trying a write gives. -/
inductive Tried where
  /-- The write took effect. -/
  | applied (m : Mod)
  /-- It waits, for the reason. -/
  | waits (m : Mod) (why : WaitFor)
  deriving Repr

/-- Reserve a raw T0 frame for a write under R114: within the share, after the eviction of one of the partition's own panes, or above the
share when none is evictable; with no free frame the write waits while the selector runs. -/
def Mod.frameForWrite (m : Mod) (g : Region) : Option Nat × Mod :=
  match m.roomInShare g.owner 65536 with
  | (m1, .later) => (none, m1)
  | (m1, _) =>
    match m1.t0Alloc (m1.residency g = .pinT0) 256 256 with
    | some s => (some s, m1)
    | none => (none, m1.freeFrame)

/-- A write through the context of an OPEN ingest stream by its holder LD (R372), to a pane homed on this module (R614). The stream of a
fabric region reaches the part of its working version. -/
def Mod.ingestOf (m : Mod) (w : HeldWrite) : Option (Nat × Stream) :=
  match w.src with
  | .host l _ =>
    m.streams.find? (fun t =>
      !t.2.paced && t.2.state == StreamState.open && ((Tbl.find m.ctxs t.1).bind (fun c => c.holder)) == some l &&
      (if t.2.region < 0x8000 then t.2.region = w.region && t.2.sel == w.sel
       else ((Tbl.find m.fm.regions (t.2.region - 0x8000)).elim false (fun f => !f.accessor && f.localRegion = w.region)) &&
         (match t.2.sel, w.sel with | .working n, .part key => key % 2 ^ 32 = (Tbl.find m.ctxs n).elim 0 (ctxId n) | a, b => a == b)))
  | _ => none

/-- The free frames of a stream's staging: those that nothing in T0 takes. -/
def Mod.freeStaging (m : Mod) (t : Stream) : List Nat := let used := m.t0Taken; t.frames.filter (fun f => !meets used f 256)

/-- A frame for a write that needs one: of staging where the write belongs to an ingest stream with a free frame (R372), otherwise under
R114. -/
def Mod.frameFor (m : Mod) (w : HeldWrite) (g : Region) : Option Nat × Mod :=
  match (m.ingestOf w).bind (fun t => (m.freeStaging t.2).head?) with
  | some f => (some f, m)
  | none => m.frameForWrite g

/-- Reserve space for an elastic write of a region (R131, R132, R134): PIN_T0 regions draw on the T0 share. -/
def Mod.elasticOk (m : Mod) (g : Region) : Bool := m.residency g == Residency.pinT0 || decide (g.worst * 256 ≤ m.elasticFree)

/-- Bytes of copy-on-write panes that a region's version reserve covers (R131, R133). -/
def Mod.reserveBytes (m : Mod) (g : Region) : Nat :=
  let pin := m.residency g == Residency.pinT0
  g.chargeFor pin g.ordinals.length - Region.chargeFor { g with verReserve := 0 } pin g.ordinals.length

/-- Copies that draw on the version reserve: records of the region beyond one for each pane index, and copies in progress. Each takes the
worst-case size of R130: R133 gives no size, and R132 gives the stored size only against elastic free space (DESIGN CHOICE). -/
def Mod.copyBytes (m : Mod) (r : Nat) (g : Region) : Nat :=
  let rs := m.mem.recs.filter (fun x => x.2.region = r && !x.2.elasticHeld)
  let base := (rs.filter (fun x => (rs.find? (fun y => y.2.pane = x.2.pane)).map (fun y => y.1) = some x.1)).length
  (rs.length - base + (m.mem.cows.filter (fun c => c.region = r && !c.elastic)).length) * (g.worst * 256)

/-- Begin an exhaustion episode of a partition: EXHAUSTED and CAPACITY_EXHAUSTED once (R134). -/
def Mod.exhaust (m : Mod) (r : Nat) (g : Region) : Mod :=
  let m1 := m.setRegion r (fun g => { g with exhaustedFlag := true })
  match Tbl.find m.mem.parts g.owner with
  | some p => if p.exhausted then m1 else (m1.setPart g.owner (fun p => { p with exhausted := true })).raise 0x0301 g.owner r 0 0
  | none => m1

/-- The bytes of a write that fall on lines in service: those on an offline channel are discarded (R401, R473). -/
def Mod.onService (m : Mod) (x : PaneRec) (w : HeldWrite) : List Bool :=
  (List.range w.bytes.length).map (fun i => w.enable.getD i true && !m.t0Lost (x.t0Addr ((w.offset + i) / 64 * 64)))

/-- Apply a write to the raw T0 frame of a record. What falls on an offline channel is discarded and logged as WRITE_DISCARDED,
once per pane (R473); a write that belongs to a version just sealed makes the pane due for its seal encode (R210, R211). -/
def Mod.putWrite (m : Mod) (k : Nat) (w : HeldWrite) : Mod :=
  match Tbl.find m.mem.recs k with
  | none => m
  | some x =>
    let late := match w.sel with | .late _ _ _ => true | _ => false
    let fin := fun (y : PaneRec) =>
      { y with lastWrite := m.localTime, parked := none, oldParks := false,
               sealEncode := y.sealEncode || (late && ((Tbl.find m.mem.regions x.region).map (fun g => g.form)) == some RegForm.frit) }
    let en := m.onService x w
    let m := ((m.count 0x0004 (0x2000 + m.t0Channel (x.t0Addr w.offset)) (m.masterOf w.src) (some (m.ownerOf x.region)) w.bytes.length).t0Access true
      (x.t0Addr w.offset) w.bytes.length (m.masterOf w.src)).spendMv (m.movementOf w.src) 1 0 w.bytes.length
    if m.t0.offline = [] ∨ en = w.enable ∨ (w.enable = [] ∧ en.all id) then m.setRec k (fun x => fin (x.apply w.offset w.bytes w.enable w.poisoned))
    else
      let lines := (List.range 1024).filter (fun l => w.offset / 64 ≤ l && decide (l * 64 < w.offset + w.bytes.length) && !m.t0Lost (x.t0Addr (l * 64)))
      let whole := w.enable.all id && w.offset % 64 = 0 && w.bytes.length % 64 = 0
      let kept := if whole then x.poison.filter (fun l => !lines.contains l) else x.poison
      let m1 := m.setRec k (fun x => fin { x with img := mergeBytes x.img w.offset w.bytes en, written := x.written.map (fun v => v ++ lines.filter (fun l => !v.contains l)),
                                                  poison := if w.poisoned then kept ++ lines.filter (fun l => !kept.contains l) else kept })
      if m1.t0.discardLogged.contains k then m1
      else
        ({ m1 with t0 := { m1.t0 with discardLogged := m1.t0.discardLogged ++ [k] } }).logErr
          { unit := walkerOf k, code := 0x0805, sev := .info, opn := m.writeOpn w.src,
            address := x.pane * 1024 + w.offset / 64, space := .regionPane,
            partition := m.ownerOf x.region, region := x.region }

/-- Try a write to a pane whose record the writing version alone names, or in place. -/
def Mod.tryOwn (m : Mod) (w : HeldWrite) (g : Region) (k : Nat) (x : PaneRec) : Tried :=
  let put := fun (m : Mod) => m.putWrite k w
  if x.sealEncode then .waits m .encode
  else if x.state = .poisoned then
    match m.frameFor w g with
    | (some s, m1) => .applied (put (m1.setRec k (fun x => x.inFrame s [] (List.range 1024))))
    | (none, m1) => .waits m1 .frame
  else if x.tier = .unbacked ∧ g.elastic ∧ !m.elasticOk g then .waits (m.exhaust w.region g) .space
  else if x.tier = .unbacked ∨ x.form = .zero then
    match m.frameFor w g with
    | (some s, m1) => .applied (put (m1.setRec k (fun x => x.inFrame s [] [] (some []))))
    | (none, m1) => .waits m1 .frame
  else if x.tier = .t0 ∧ x.form = .raw then
    match x.state with
    | .movingUp => .waits m .promotion
    | .movingDown => .applied (put (m.cancelDown k))
    | _ => .applied (put m)
  else if x.tier = .t0 then
    -- a packed pane is unpacked to a raw frame first (R108); a move down is cancelled
    let m0 := m.cancelDown k
    if x.unpacking ≠ none then .waits m0 .unpack
    else if m0.engineFull k then .waits m0 .frame
    else
      match m0.frameForWrite g with
      | (some s, m1) => .waits (m1.setRec k (fun x => { x with unpacking := some { tier := .t0, loc := s, sectors := 256 } })) .unpack
      | (none, m1) => .waits m1 .frame
  else
    match x.state with
    | .movingUp => .waits m .promotion
    | _ =>
      -- a sweep's re-encode in the lower tier is abandoned (R175), and the write is a demand promotion (R113, R117)
      let m0 := m.cancelDown k
      let master := some (m.masterOf w.src)
      if x.old ≠ none then .waits m0 .promotion
      else
        match (m0.ingestOf w).bind (fun t => (m0.freeStaging t.2).head?) with
        | some f =>
          .waits (m0.setRec k (fun x => { x with state := .movingUp, demand := true, mover := master, rawDest := true, wish := none,
                                                 dest := some { tier := .t0, loc := f, sectors := 256 } })) .promotion
        | none =>
          match m0.roomInShare g.owner (g.t0Sectors x * 256) with
          | (m1, .later) => .waits m1 .frame
          | (m1, _) =>
            match m1.startPromote k true master with
            | (m2, true) => .waits m2 .promotion
            | (m2, false) => .waits (if !g.packed ∧ m2.engineFull k then m2 else m2.freeFrame) .frame

/-- A record is named by a version other than the writing one (R205). A write that reached the walker before a seal belongs to
the sealed version, which shares its records with the working version that goes on (R204, R210). -/
def Mod.sharedFor (m : Mod) (sel : VerSel) (k : Nat) (x : PaneRec) : Bool :=
  let names := m.sealedNaming k x + m.workingNaming k x
  match sel with
  | .working _ => names != 1
  | .part _ => names != 1
  | .late _ p c => names != 1 + b2n (mapNames (m.vmap x.region (if p then .part c else .working c)) x.pane k)
  | _ => false

/-- The tiles of a whole image: their bytes and whether they are poisoned. -/
def Mod.imageTiles (m : Mod) (r : Nat) (im : PaneImage) : List (List Byte × Bool) :=
  let x := { PaneRec.fresh r 0 0 0 false 0 0 with form := im.form, gen := im.gen, img := im.img }
  (List.range 32).map (fun t => let b := m.tileOf x t; (b.1.getD (List.replicate 2048 0), b.1.isNone))

/-- The home of a record as an old location with what it holds. -/
def PaneRec.asOld (x : PaneRec) : Parked :=
  { place := { tier := x.tier, loc := x.loc, sectors := x.sectors, die := x.die }, form := x.form, gen := x.gen, img := x.img, age := 0 }

/-- Bytes of a move at T0: counted for each 256 B sector on its channel, or only charged with no counter set up (R349, R525), and read or
written at the channels. -/
def Mod.countT0 (m0 : Mod) (event master part a n : Nat) : Mod :=
  let m := m0.t0Access (event = 0x0004) a n master
  if m.svc.ctr.tbl = [] then m.chargeEvent event (0x2000 + m.t0Channel a) master n
  else m.each (List.range (ceilDiv n 256)) (fun m i => m.count event (0x2000 + m.t0Channel (a + 256 * i)) master (some part) 256)

/-- The home that a whole image takes under R114: itself in packed sectors of T0, or expanded in a raw frame; none where it waits (R272). The
record's present home becomes its old location. -/
def Mod.imageHome (m : Mod) (w : HeldWrite) (g : Region) (im : PaneImage) : Option (PaneRec → PaneRec) × Mod :=
  let n := ceilDiv im.len 256
  let base := fun (x : PaneRec) => { x.settled with
    old := if x.tier != Tier.unbacked && x.form != PForm.zero && x.state != PState.poisoned then some x.asOld else none,
    state := .stable, tier := .t0, die := 0, parked := none, oldParks := false, wish := none, unpacking := none, sealEncode := false, lastWrite := m.localTime }
  if g.packed then
    match m.roomInShare g.owner (n * 256) with
    | (m1, .later) => (none, m1)
    | (m1, _) =>
      match m1.t0Alloc (m1.residency g = .pinT0) n 1 with
      | some s => (some (fun x => { base x with form := im.form, gen := im.gen, loc := s, sectors := n, img := im.img, poison := [], encoded := some n }), m1)
      | none => (none, m1.freeFrame)
  else
    let ts := m.imageTiles w.region im
    match m.frameForWrite g with
    | (some s, m1) => (some (fun x => { base x with form := .raw, gen := 0, loc := s, sectors := 256, img := Mem.pack 0 (ts.flatMap (fun t => t.1)),
                                                    poison := (List.range 1024).filter (fun l => (ts.getD (l / 32) ([], false)).2) }), m1)
    | (none, m1) => (none, m1)

/-- Commit a whole image (R272): as the new home of a pane that the writing version alone names, or in a new record, without reading what it
replaces (R205). It meets moves as a core store does (R123). -/
def Mod.tryImage (m0 : Mod) (w : HeldWrite) (g : Region) (im : PaneImage) (ext : Nat) : Tried :=
  let own := (m0.recAt w.region w.sel w.pane).filter (fun p => !m0.sharedFor w.sel p.1 p.2)
  let m := own.elim m0 (fun p => m0.cancelDown p.1)
  let shared := own.isNone && (m.recAt w.region w.sel w.pane).isSome
  let beyond := shared && decide (m.reserveBytes g < m.copyBytes w.region g + g.worst * 256)
  let drawn := beyond || (g.elastic && own.elim (!shared) (fun p => p.2.tier == .unbacked))
  if (m.recAt w.region w.sel w.pane).elim false (fun p => p.2.sealEncode) then .waits m .encode
  else if own.elim false (fun p => p.2.state == .movingUp || p.2.old.isSome) then .waits m .promotion
  else if drawn ∧ !m.elasticOk g then .waits (m.exhaust w.region g) .space
  else if !g.packed ∧ m.engineFull (own.elim m.mem.nextRec (fun p => p.1)) then .waits m .frame
  else
    match m.imageHome w g im with
    | (none, m1) => .waits m1 .frame
    | (some put, m1) =>
      let sized := fun (m : Mod) (x : PaneRec) => m.countT0 0x0004 (m.masterOf w.src) g.owner (x.loc * 256) (x.sectors * 256)
      let m2 := m1.noteSlowest w.region im.form im.img
      match own with
      | some (k, x) => .applied ((sized m2 (put x)).setRec k put)
      | none =>
        let k := m2.mem.nextRec
        let x := put { PaneRec.fresh w.region w.pane ext 0 beyond m2.mem.promoSeq m2.localTime with tier := .unbacked }
        let m3 := if beyond ∧ !g.elastic then m2.setRegion w.region (fun g => { g with versionSpaceExceeded := true }) else m2
        .applied ((((sized m3 x).setMem (fun e => { e with recs := Tbl.put e.recs k x, nextRec := k + 1, promoSeq := e.promoSeq + 1 })).nameNew
          w.region w.sel w.pane k).gcRegion w.region)

/-- Try a write (R103, R104, R108, R113, R114, R123, R134, R205, R211). -/
def Mod.tryWrite (m : Mod) (w : HeldWrite) : Tried :=
  match Tbl.find m.mem.regions w.region with
  | none => .applied m
  | some g =>
    match g.extentAt w.pane with
    | none => .applied m
    | some ext =>
      match w.image with
      | some im => m.tryImage w g im ext
      | none =>
      match m.recAt w.region w.sel w.pane with
      | none =>
        if g.elastic ∧ !m.elasticOk g then .waits (m.exhaust w.region g) .space
        else
          match m.frameFor w g with
          | (none, m1) => .waits m1 .frame
          | (some s, m1) =>
            let k := m1.mem.nextRec
            let x := PaneRec.fresh w.region w.pane ext s false m1.mem.promoSeq m1.localTime
            let m2 := m1.setMem (fun e => { e with recs := Tbl.put e.recs k (x.apply w.offset w.bytes w.enable w.poisoned), nextRec := k + 1, promoSeq := e.promoSeq + 1 })
            .applied (m2.nameNew w.region w.sel w.pane k)
      | some (k, x) =>
        let shared := m.sharedFor w.sel k x
        if !shared then m.tryOwn w g k x
        else if x.sealEncode then .waits m .encode
        else
          if m.mem.cows.any (fun c => c.region = w.region && c.sel == w.sel && c.pane = w.pane) then .waits m (.copy k)
          else
              let beyond := decide (m.reserveBytes g < m.copyBytes w.region g + g.worst * 256)
              if beyond ∧ !m.elasticOk g then .waits (m.exhaust w.region g) .space
              else if (x.form = .lehr ∨ x.form = .frit) ∧ m.engineFull k then .waits m .frame
              else
                match m.frameFor w g with
                | (none, m1) => .waits m1 .frame
                | (some s, m1) =>
                  let m2 := if beyond ∧ !g.elastic then m1.setRegion w.region (fun g => { g with versionSpaceExceeded := true }) else m1
                  .waits (m2.setMem (fun e => { e with cows := e.cows ++ [CowJob.mk w.region w.sel w.pane k { tier := .t0, loc := s, sectors := 256 } beyond (m.masterOf w.src)] })) (.copy k)

/-- Two held accesses meet the same pane of the same version. -/
def HeldWrite.samePane (a b : HeldWrite) : Bool := a.region = b.region && a.sel = b.sel && a.pane = b.pane

/-- Count a write to a pane once, when it reaches the walker (R111): a host line that hits T0, or a miss. The source of a copy
on write is not counted (R205). -/
def Mod.countWrite (m : Mod) (w : HeldWrite) : Mod :=
  match m.recAt w.region w.sel w.pane with
  | none => m
  | some (k, x) =>
    if m.sharedFor w.sel k x then m
    else if x.tier = .t0 then (match w.src with | .host l _ => m.lineHit (l / 16) k | _ => m)
    else m.bump k

/-- The write needs a new T0 frame: for a new pane, a demand promotion or a copy on write (R372). -/
def Mod.needsFrame (m : Mod) (w : HeldWrite) : Bool :=
  match m.recAt w.region w.sel w.pane with
  | none => true
  | some (k, x) =>
    if m.sharedFor w.sel k x then !m.mem.cows.any (fun c => c.region = w.region && c.sel == w.sel && c.pane = w.pane)
    else x.state == PState.poisoned || x.form == PForm.zero || (x.tier != Tier.t0 && x.state != PState.movingUp)

/-- A bulk completion of a stream: KIND 2, its CONTEXT_ID and the TAG of its open, to the ring of the channel that opened it (R374). -/
def Mod.bulk (m : Mod) (slot code data detail : Nat) : Mod :=
  match Tbl.find m.ctxs slot with
  | none => m
  | some c =>
    if (Tbl.find m.chans c.chan).elim true (fun x => x.owner != c.chanOwner) then m
    else m.ringRecord c.chan { tag := c.tag, context := ctxId slot c, status := .ok, kind := 2, code := code, detail := detail, data := data }

/-- Count an overflow of staging, with a record at the start of each episode (R372, R374). -/
def Mod.noteStaging (m : Mod) (w : HeldWrite) : Mod :=
  match m.ingestOf w with
  | none => m
  | some (n, t) =>
    if !m.needsFrame w then m
    else if m.freeStaging t ≠ [] then m.setStream n (fun t => { t with inOverflow := false })
    else
      let m1 := m.setStream n (fun t => { t with overflow := t.overflow + 1, inOverflow := true })
      if t.inOverflow then m1 else m1.bulk n 0x0814 (t.overflow + 1) 0

/-- A write to the local part of a fabric region waits: a seal of its working version is prepared (R339), or its unit is moving to
another home (R342). -/
def Mod.heldBack (m : Mod) (w : HeldWrite) : Bool :=
  m.fm.regions.any (fun f => !f.2.accessor && f.2.localRegion = w.region &&
    ((match w.sel, f.2.prepared with | .part key, some p => p.2 = key | _, _ => false) ||
     f.2.stripe.any (fun e => e.2.home = m.fab.deviceId && e.2.moving && e.2.localUnit = w.pane / 2 ^ f.2.log2Stripe)))

/-- The 4 MiB hold buffer of the write's host port is full of writes that wait for space, and the port gives no credit for another
(R134). -/
def Mod.noCredit (m : Mod) (w : HeldWrite) : Bool :=
  match w.src with
  | .host l _ => decide (65536 ≤ (m.mem.heldWrites.filter (fun h => h.wait == .space && (match h.src with | .host k _ => k / 16 == l / 16 | _ => false))).length)
  | _ => false

/-- What a write waits for at its source: credit, an entry of the queue, or its master's next window of T0 (R134, R351, R355). -/
def Mod.writeWaits (m : Mod) (w : HeldWrite) : Option WaitFor :=
  if m.noCredit w then some .credit else m.sourceWait w.src (m.queueDie w.region w.sel w.pane) [(1, 0)] w.issued

/-- Submit a write: it takes effect at once, or waits behind the writes to the same pane that wait already. A write that waits at its source
has not reached the walker. -/
def Mod.submit (m0 : Mod) (w : HeldWrite) : Mod :=
  match m0.writeWaits w with
  | some why => (m0.noteHeld w.src why w.issued).setMem (fun e => { e with heldWrites := e.heldWrites ++ [{ w with wait := why, issued := some (w.issued.getD m0.localTime) }] })
  | none =>
  if m0.heldBack w then (m0.countWrite w).setMem (fun e => { e with heldWrites := e.heldWrites ++ [{ w with wait := .sealCommit }] })
  else
  let m := (m0.countWrite w).noteStaging w
  match m.mem.heldWrites.find? (fun h => h.samePane w) with
  | some h => m.setMem (fun e => { e with heldWrites := e.heldWrites ++ [{ w with wait := h.wait }] })
  | none =>
    match m.tryWrite w with
    | .applied m1 => m1.writeDone w
    | .waits m1 why => m1.setMem (fun e => { e with heldWrites := e.heldWrites ++ [{ w with wait := why }] })

/-- Whole-pane stores sent as tiles are complete once no tile of theirs waits (R272). -/
def Mod.settleImages (m : Mod) : Mod :=
  { m with cores := Tbl.mapV m.cores (fun c k => { k with stores := k.stores.filter (fun s =>
    !(s.image.isSome && s.waiting && !m.mem.heldWrites.any (fun h => h.src == WriteSrc.core c s.ticket) &&
      !m.fm.requests.any (fun q => q.src == WriteSrc.core c s.ticket))) }) }

/-- Try every held write again, in order; a write stays behind an earlier one to the same pane. -/
def Mod.retryWrites (m : Mod) : Mod :=
  let go := fun (m : Mod) (w : HeldWrite) =>
    if m.mem.heldWrites.any (fun h => h.samePane w) ∨ (w.wait = .sealCommit ∧ m.heldBack w) then
      m.setMem (fun e => { e with heldWrites := e.heldWrites ++ [w] })
    else if w.wait.atSource then m.submit w
    else
      match m.tryWrite w with
      | .applied m1 => m1.writeDone w
      | .waits m1 why => m1.setMem (fun e => { e with heldWrites := e.heldWrites ++ [{ w with wait := why }] })
  ((m.setMem (fun e => { e with heldWrites := [] })).each m.mem.heldWrites go).settleImages

/-! ### Heals (R475 to R478) -/

/-- The pane index under which a pane's mirror lies: the region pane index, or the fabric region pane index for the local part
of a fabric region (R475). -/
def Mod.mirrorIndex (m : Mod) (r pane : Nat) : Nat :=
  match m.fm.regions.find? (fun f => !f.2.accessor && f.2.localRegion = r) with
  | some (_, f) =>
    let s := 2 ^ f.log2Stripe
    (match f.stripe.find? (fun e => e.2.home = m.fab.deviceId && e.2.localUnit = pane / s) with
      | some (u, _) => u * s + pane % s
      | none => pane)
  | none => pane

/-- Reserve the frame of a heal that has none yet, set a STABLE entry MOVING_UP, and send its 32 tile reads (R477). -/
def Mod.runHeal (m : Mod) (h : Heal) : Mod :=
  match Tbl.find m.mem.recs h.record, Tbl.find m.mem.regions h.region with
  | some x, some g =>
    match m.frameForWrite g with
    | (some s, m1) =>
      let m2 := m1.setSvc (fun v => { v with heals := v.heals.map (fun y => if y.record = h.record then { y with frame := { tier := .t0, loc := s, sectors := 256 } } else y) })
      let m3 := if x.state = .stable then m2.setRec h.record (fun x => { x with state := .movingUp }) else m2
      m3.each (List.range 32) (fun m t =>
        m.request 4 (h.mirror / 2 ^ 50) 2 0x12 0 (32768) (refBytes (h.mirror + t * 2048) 0xFFFFFFFF 0 m.fab.deviceId 0 3) t .engine h.record g.owner)
    | (none, m1) => m1
  | _, _ => m

/-- A heal falls due: the region has a mirror, the pane is immutable, the module has a device ID, and no heal of it runs
(R477). -/
def Mod.startHeal (m : Mod) (k reads : Nat) : Mod :=
  match Tbl.find m.mem.recs k with
  | none => m
  | some x =>
    match (Tbl.find m.mem.regions x.region).bind (fun g => g.mirror) with
    | none => m
    | some base =>
      if !m.immutable k x ∨ m.fab.deviceId = 0xFFFF ∨ (x.state ≠ .poisoned ∧ x.state ≠ .stable) then m
      else if m.svc.heals.any (fun h => h.record = k) then m
      else
        let h : Heal := { record := k, region := x.region, pane := x.pane, mirror := base + m.mirrorIndex x.region x.pane * 65536,
                          frame := { tier := .t0, loc := 0, sectors := 0 }, tiles := [], poisonedReads := reads, wasPoisoned := x.state = .poisoned }
        (m.setSvc (fun v => { v with heals := v.heals ++ [h] })).runHeal h

/-- Heals that wait for a frame try again (R477). -/
def Mod.retryHeals (m : Mod) : Mod := m.each (m.svc.heals.filter (fun h => h.frame.sectors = 0)) (fun m h => m.runHeal h)

/-- Count an access that received poison from a pane under heal (R478). -/
def Mod.healPoisonRead (m : Mod) (k : Nat) : Mod :=
  m.setSvc (fun v => { v with heals := v.heals.map (fun h => if h.record = k then { h with poisonedReads := h.poisonedReads + 1 } else h) })

/-! ### Poisoning a pane (R104, R467, R474) -/

/-- Open contexts that can reach a record: views and working versions whose version names it, and movements and streams
bound to those (R474). -/
def Mod.reachers (m : Mod) (k : Nat) (x : PaneRec) : Nat :=
  let names := fun (c : Ctx) => match c.obj with
    | .view r v => r = x.region && mapNames (m.vmap r (.sealed v)) x.pane k
    | .working r _ map => r = x.region && mapNames map x.pane k
    | _ => false
  let slots := (m.ctxs.filter (fun c => c.2.state = .active && names c.2)).map (fun c => c.1)
  slots.length +
    (m.mvs.filter (fun v => v.2.bindings.any (fun b => slots.contains b.1))).length +
    (m.streams.filter (fun t => match t.2.sel with | .working n => slots.contains n | _ => t.2.region = x.region && mapNames (m.vmap x.region t.2.sel) x.pane k)).length

/-- Commit an entry POISONED at its home and log PANE_POISONED (R123, R467, R474). -/
def Mod.poisonPane (m : Mod) (k : Nat) (op : Opn) : Mod :=
  match Tbl.find m.mem.recs k with
  | none => m
  | some x =>
    if x.state = .poisoned then m
    else
      let part := match Tbl.find m.mem.regions x.region with | some g => g.owner | none => 0xFF
      ((m.setRec k (fun x => { x.settled with state := .poisoned, unpacking := none, sealEncode := false, wish := none })).logErr
        { unit := walkerOf k, code := 0x0801, sev := .contained, opn := op, address := x.pane * 1024, space := .regionPane,
          partition := part, region := x.region, count := m.reachers k x, detail := m.sealedNaming k x }).startHeal k 0

/-- A flash unit of an image cannot be read: T2_UNCORRECTABLE is logged against its channel, and every image that the unit holds is
lost, so the panes homed in it are POISONED and parked slots in it go (R416, R419, R430). Which unit of the image fails is a free choice. -/
def Mod.flashLost (m : Mod) (loc sectors die : Nat) (op : Opn) (region : Nat) : Mod :=
  let c := m.choose ((loc + sectors - 1) / 64 - loc / 64 + 1)
  let u := loc / 64 + c.1
  let hit := fun (l n : Nat) => decide (l / 64 ≤ u) && decide (u ≤ (l + n - 1) / 64) && n != 0
  let m1 := c.2.logErr { unit := 0x4000 + die % 32, code := 0x0402, sev := .contained, opn := op, address := u * 64, space := .t2,
                         partition := m.ownerOf region, region := region, detail := die / 32 }
  let ks := (m1.mem.recs.filter (fun x => x.2.tier = .t2 && x.2.form != .zero && hit x.2.loc x.2.sectors)).map (fun x => x.1)
  (m1.each ks (fun m k => m.poisonPane k op)).setMem (fun e => { e with recs := Tbl.mapV e.recs (fun _ x =>
    if x.parked.elim false (fun p => p.place.tier = .t2 && hit p.place.loc p.place.sectors) then { x with parked := none } else x) })

/-- The lines of a T0 record that lie in the same row as an address, which share a metadata line (R384). -/
def Mod.sameRow (m : Mod) (x : PaneRec) (a : Nat) : List Nat :=
  let d := m.t0Decode a
  if x.tier ≠ .t0 ∨ x.form = .zero then []
  else (List.range (x.sectors * 4)).filter (fun l =>
    let e := m.t0Decode (x.t0Addr (l * 64))
    e.chan = d.chan && e.bank = d.bank && e.row = d.row)

/-- Poison lines of a T0 record: lines of a raw frame, or every tile of an image that rests on one of them, and every tile where the
header or index is hit (R467). -/
def PaneRec.poisonLines (x : PaneRec) (lines : List Nat) : PaneRec :=
  let bad := if x.form = .raw then lines
    else if lines.any (fun l => l * 64 < x.form.headBytes) then List.range 32
    else (List.range 32).filter (fun t => lines.any (fun l =>
      decide ((x.tileSpan t).1 < l * 64 + 64) && decide (l * 64 < (x.tileSpan t).1 + (x.tileSpan t).2)))
  { x with poison := x.poison ++ bad.filter (fun b => !x.poison.contains b) }

/-- A metadata line is lost: the 31 lines of its row are poisoned, and T0_META_UNCORRECTABLE is logged once (R385). -/
def Mod.metaLost (m : Mod) (a : Nat) (op : Opn) (region : Nat) : Mod :=
  let m1 := m.logErr { unit := 0x2000 + m.t0Channel a, code := 0x0203, sev := .contained, opn := op, address := a, space := .t0,
                       partition := m.ownerOf region, region := region }
  m1.each (m1.mem.recs.filter (fun x => m.sameRow x.2 a != [])) (fun m x =>
    (m.setRec x.1 (fun y => y.poisonLines (m.sameRow y a))).startHeal x.1 0)

/-- A data line of a T0 record is uncorrectable (R403, R467). -/
def Mod.lineLost (m : Mod) (k : Nat) (x : PaneRec) (l : Nat) (op : Opn) : Mod :=
  let a := x.t0Addr (l * 64)
  ((m.setRec k (fun x => x.poisonLines [l])).logErr { unit := 0x2000 + m.t0Channel a, code := 0x0202, sev := .contained, opn := op, address := a, space := .t0, partition := m.ownerOf x.region, region := x.region }).startHeal k 1

/-- An uncorrectable error reading a record at its home: the place logs it and keeps what poison it can (R403, R411, R419). Which line of a
T0 home is hit is a free choice. -/
def Mod.placeError (m : Mod) (k : Nat) (x : PaneRec) (check : Media) (op : Opn) : Mod :=
  if x.form = .zero ∨ x.state = .poisoned ∨ !badRead (x.checkHome check) then m
  else match x.tier with
    | .t0 =>
      let ls := if check = .metaLost then List.range (x.sectors * 4) else x.readLines 0 (x.sectors * 4)
      let c := m.choose ls.length
      if check = .metaLost then c.2.metaLost (x.t0Addr (c.1 * 64)) op x.region else c.2.lineLost k x (ls.getD c.1 0) op
    | .t1 => m.logErr { unit := 0x3000 + x.loc / 2 ^ 40, code := 0x0301, sev := .contained, opn := op, address := x.loc, space := .t1,
                        partition := m.ownerOf x.region, region := x.region }
    | .t2 => m.flashLost x.loc x.sectors x.die op x.region
    | .unbacked => m

/-- A move or an encode meets an uncorrectable error at the old home: the entry becomes POISONED there (R123). -/
def Mod.homeError (m : Mod) (k : Nat) (check : Media) (op : Opn) : Mod :=
  match Tbl.find m.mem.recs k with
  | none => m
  | some x => (m.placeError k x check op).poisonPane k op

/-! ### Commits -/

/-- MOVE_COMMIT of the trace (R536). -/
def Mod.traceMove (m : Mod) (k : Nat) (x : PaneRec) (old new : Tier) (swap : Bool) : Mod :=
  let code := fun (t : Tier) => match t with | .t0 => 0 | .t1 => 1 | .t2 => 2 | .unbacked => 3
  let part := match Tbl.find m.mem.regions x.region with | some g => g.owner | none => 0xFF
  m.traceEv (walkerOf k) 0x08 part (code old + 4 * code new + 16 * b2n swap) x.region 0 x.pane

/-- Count an event of a walker for the partition that owns the pane's region (R524, R525). -/
def Mod.countWalker (m : Mod) (event k : Nat) (x : PaneRec) : Mod :=
  m.count event (walkerOf k) 0xFFFF ((Tbl.find m.mem.regions x.region).map (fun g => g.owner)) 1

/-- The master that the moves of a region are charged to: an engine by its QOS_CLASS (R348). -/
def Mod.moveMaster (m : Mod) (r : Nat) : Nat := if (Tbl.find m.mem.regions r).elim true (fun g => g.qos = 2) then 0x3000 else 0x3001

/-- A pane under its repack: MOVING_DOWN from a raw frame to T0. -/
def PaneRec.repacking (x : PaneRec) : Bool := x.tier == .t0 && x.form == .raw && x.state == .movingDown && x.dest.elim false (fun p => p.tier == .t0)

/-- The master of a move of a record to a place: the drain of a staging that holds it, the sweeps for a re-encode in its tier, and otherwise
the mover of its QOS_CLASS (R348). -/
def Mod.moverOf (m : Mod) (x : PaneRec) (d : Place) : Nat :=
  if x.tier = .t0 ∧ x.form = .raw ∧ m.streams.any (fun t => t.2.frames.contains x.loc) then 0x300A
  else if x.tier = d.tier ∧ !x.repacking then 0x3003
  else m.moveMaster x.region

/-- Count the media bytes that an image or frame is read with at a place (R525). -/
def Mod.countSource (m : Mod) (x : PaneRec) (ms : Nat) : Mod :=
  let part := m.ownerOf x.region
  let n := if x.form = .zero then 0 else if x.form = .raw then 64 * (x.readLines 0 1024).length else x.sectors * 256
  match x.tier with
  | .t0 => m.countT0 0x0003 ms part (x.t0Addr 0) n
  | .t1 => m.count 0x0005 (0x3000 + x.loc / 2 ^ 40) ms (some part) n
  | .t2 => m.count 0x0007 (0x4000 + x.die % 32) ms (some part) n
  | .unbacked => m

/-- Count the media bytes of a move: what it reads at the pane's place and, in T0, what it writes at its new one (R525). A demand promotion
and a copy on write are charged to the accessing master, every other move to an engine (R113, R348). -/
def Mod.countMove (m : Mod) (x : PaneRec) (d : Place) (written : Nat) (ms : Nat) : Mod :=
  let m1 := m.countSource x ms
  if d.tier = .t0 then m1.countT0 0x0004 ms (m.ownerOf x.region) (d.loc * 256) written else m1

/-- The master of a move has spent its MAX of the resource that it reads or writes, and the move goes on in the next window (R351). -/
def Mod.moveHeld (m : Mod) (x : PaneRec) (d : Place) (ms : Nat) : Bool :=
  (x.tier.resource ++ d.tier.resource).any (fun v => m.overMax v.1 v.2 ms none)

/-- A Lehr engine decodes the image of record `k`: a format error that it meets is logged against it (R157). -/
def Mod.decodeLog (m : Mod) (k : Nat) (x : PaneRec) (op : Opn) : Mod :=
  if m.badImage x then
    m.logErr { unit := 0x7000 + k % 4, code := 0x0701, sev := .contained, opn := op, address := x.pane * 1024, space := .regionPane,
               partition := m.ownerOf x.region, region := x.region }
  else m

/-- Panes homed in a stream's staging. -/
def Mod.stagedIn (m : Mod) (t : Stream) : List (Nat × PaneRec) :=
  m.mem.recs.filter (fun x => x.2.tier == Tier.t0 && x.2.form == PForm.raw && t.frames.contains x.2.loc)

/-- A stopping ingest stream whose staging has emptied is STOPPED, and the DRAINED record follows (R373, R374). -/
def Mod.drainCheck (m : Mod) (slot : Nat) : Mod :=
  match Tbl.find m.streams slot with
  | none => m
  | some t =>
    if t.paced ∨ t.state ≠ .stopping ∨ m.stagedIn t ≠ [] then m
    else (m.setStream slot (fun t => { t with state := .stopped })).bulk slot 0x0815 t.drained 0

/-- A pane has left the place `x` describes: one of staging has been drained (R373). -/
def Mod.noteDrain (m : Mod) (x : PaneRec) : Mod :=
  if x.tier ≠ .t0 ∨ x.form ≠ .raw then m
  else
    match m.streams.find? (fun t => t.2.frames.contains x.loc) with
    | none => m
    | some (n, _) => (m.setStream n (fun t => { t with drained := t.drained + 65536 })).drainCheck n

/-- The record once its promotion to `d` has committed, with the contents read where they are decoded into a raw frame; the image is copied
otherwise (R107, R118, R161). A fill of T0 that no access has counted adds to COUNTER (R111). -/
def PaneRec.promotedTo (x : PaneRec) (d : Place) (c : List (List Byte) × List Nat) (promo : Nat) (parks : Bool) : PaneRec :=
  let y := { x.settled with
    tier := d.tier, loc := d.loc, sectors := d.sectors, die := d.die, old := some x.asOld, promo := promo, wish := none,
    counter := if x.demand ∨ d.tier ≠ .t0 then x.counter else satInc 255 x.counter, oldParks := parks }
  if x.rawDest then { y with form := .raw, gen := 0, img := Mem.pack 0 (c.1.flatMap id), poison := c.2, written := none } else y

/-- The promotion of a pane to `d` parks its old location (R121): of an immutable pane that goes to T0 and, since a durable version is
restored with its T2 images (R216), of one of a DURABLE region that goes from T2 to T1 (DEDUCED). -/
def Mod.parksOld (m : Mod) (k : Nat) (x : PaneRec) (d : Place) : Bool :=
  m.immutable k x && x.form != .zero && x.parked.isNone &&
    ((d.tier == .t0 && (x.tier == .t1 || x.tier == .t2)) ||
     (d.tier == .t1 && x.tier == .t2 && (Tbl.find m.mem.regions x.region).elim false (fun g => g.durable)))

/-- The promotion of a pane has succeeded: its new home, and what the move counts. -/
def Mod.promoted (m : Mod) (k : Nat) (x : PaneRec) (d : Place) : Mod :=
  let y := x.promotedTo d (m.readAll x) m.mem.promoSeq (m.parksOld k x d)
  let m0 := ((if x.rawDest then m.decodeLog k x .promotion else m).setRec k (fun _ => y)).setMem (fun e => { e with promoSeq := e.promoSeq + 1 })
  let m1 := (if d.tier = .t1 ∧ y.sectors ≠ 0 then m0.storeImage k { d with sectors := y.sectors } (x.mover.getD (m.moveMaster x.region)) else m0).countMove x d (if x.form = .zero then 0 else y.sectors * 256) (x.mover.getD (m.moveMaster x.region))
  (((m1.countWalker 0x0040 k x).traceMove k x x.tier d.tier false).noteDrain x).retryWrites

/-- Commit of a promotion (R118 step 3): the pane takes the T0 form of R107, or its place in T1, and the old location waits
to be freed or parked. An uncorrectable error reading the old home poisons the pane there (R123). -/
def Mod.promoteCommit (m : Mod) (k : Nat) (read : Media) : Mod :=
  match Tbl.find m.mem.recs k with
  | none => m
  | some x =>
    match x.dest with
    | some d =>
      if x.state ≠ .movingUp ∨ m.svc.heals.any (fun h => h.record = k) ∨ m.linkWaits x ∨ m.placeWaits d ∨
          m.moveHeld x d (x.mover.getD (m.moveMaster x.region)) then m
      else if badRead (x.checkHome read) ∨ m.homeLost x then (m.homeError k read .promotion).retryWrites
      else m.promoted k x d
    | none => m

/-- The pointer swap of an eviction: the parked image becomes the home. -/
def Mod.evictedToSlot (m : Mod) (k : Nat) (x : PaneRec) (p : Parked) : Mod :=
  let x1 := { x.settled with tier := p.place.tier, form := p.form, gen := p.gen, loc := p.place.loc, sectors := p.place.sectors, die := p.place.die, img := p.img, poison := [], parked := none, sealEncode := false, old := some x.asOld }
  let m1 := (m.setRec k (fun _ => x1)).countWalker 0x0041 k x
  (((m1.countWalker 0x0042 k x).traceMove k x x.tier p.place.tier true).noteDrain x).retryWrites

/-- A move down copies the image as it stands: no encode was latched, and every line of it can be read (R161). -/
def Mod.copiesImage (m : Mod) (x : PaneRec) : Bool :=
  x.latch.isNone && x.form != .raw && (x.tier != .t0 || x.form == .zero || (x.poison == [] && m.t0.offline == []))

/-- The image that a move down brings to its destination, and the panes that its encode samples (R149, R161, R165). -/
def Mod.imageDown (m : Mod) (k : Nat) (x : PaneRec) (g : Region) : (PForm × Nat × List Byte) × Mod :=
  if m.copiesImage x then ((x.form, x.gen, if x.form = .zero then [] else Mem.block x.img 0 (x.sectors * 256)), m)
  else
    let c := m.readAll x
    let tp := tilePoison c.2
    (g.encodeAs (x.latch.getD g.latch) c.1 tp, (m.decodeLog k x .eviction).sampleFirst x.region c.1 tp)

/-- The encode, or the copy, of an eviction: the pane in its region's form at the new place. It is the seal encode, too, of a pane sealed on its
way (R123, R211). -/
def Mod.evictedEncoded (m : Mod) (k : Nat) (x : PaneRec) (g : Region) (d : Place) : Mod :=
  let r := m.imageDown k x g
  let e := r.1
  let n := e.2.2.length / 256
  let x1 := { x.settled with tier := d.tier, form := e.1, gen := e.2.1, loc := if e.1 = .zero then 0 else d.loc, sectors := n, die := d.die, img := Mem.pack 0 e.2.2, poison := [], parked := if x.tier = .t0 ∧ d.tier ≠ .t0 then none else x.parked, sealEncode := false, old := some x.asOld, encoded := some n }
  let m1 := ((r.2.setRec k (fun _ => x1)).noteSlowest x.region e.1 x1.img).countMove x d (n * 256) (m.moverOf x d)
  let m2 := if n ≠ 0 then m1.storeImage k { d with sectors := n } (m.moverOf x d) else m1
  (((m2.countWalker 0x0041 k x).traceMove k x x.tier d.tier false).noteDrain x).retryWrites

/-- Commit of an eviction (R119 step 3): a pointer swap to the parked slot, or an encode in the region's form. An
uncorrectable error reading T0 poisons the pane in T0 (R123). A sweep's re-encode in the same tier commits the same way. -/
def Mod.evictCommit (m : Mod) (k : Nat) (read : Media) : Mod :=
  match Tbl.find m.mem.recs k with
  | none => m
  | some x =>
    match Tbl.find m.mem.regions x.region, x.dest with
    | some g, some d =>
      if x.state ≠ .movingDown ∨ m.linkWaits x ∨ m.placeWaits d ∨ m.moveHeld x d (m.moverOf x d) then m
      else
        match x.parked.filter (fun p => p.place == d) with
        | some p => m.evictedToSlot k x p
        | none => if badRead (x.checkHome read) then (m.homeError k read .eviction).retryWrites else m.evictedEncoded k x g d
    | _, _ => m

/-- Copy the image of a parked slot in T1 into a new parked slot in T2 without decoding it, and free the T1 slot (R122, R161). Whether T2
could take it. -/
def Mod.slotToT2 (m : Mod) (k : Nat) (p : Parked) : Mod × Bool :=
  match m.lowAlloc .t2 p.place.sectors (m.mem.recs.length + 1) with
  | (some q, m1) => ((m1.setRec k (fun y => { y with parked := some { p with place := q } })).storeImage k q 0x3002, true)
  | (none, m1) => (m1, false)

/-- The old location of a pane leaves the record: parked where the pane was immutable at its commit and still is, in T2 for a DURABLE
region, or freed (R121, R122, R123). -/
def Mod.oldFreed (m : Mod) (k : Nat) (x : PaneRec) (p : Parked) : Mod :=
  let park := x.oldParks ∧ (x.tier = .t0 ∨ x.tier = .t1) ∧ m.immutable k x
  let slot := { p with age := m.mem.parkAge }
  let m1 := (m.setRec k (fun x => { x with old := none, oldParks := false, parked := if park then some slot else x.parked })).setMem
    (fun e => { e with parkAge := e.parkAge + 1 })
  let durable := (Tbl.find m.mem.regions x.region).elim false (fun g => g.durable)
  let m2 := if park ∧ durable ∧ p.place.tier = .t1 then (m1.slotToT2 k slot).1 else m1
  (m2.gcRegion x.region).retryWrites

/-- Step 4 of a move: the old location is freed, or parked when the pane is immutable and the old home lay in a lower tier
(R118, R119, R121). In a DURABLE region an old place in T2 that is not parked stays until the journal has committed the new one (R173). -/
def Mod.freeOld (m : Mod) (k : Nat) : Mod :=
  match Tbl.find m.mem.recs k with
  | none => m
  | some x =>
    match x.old with
    | none => m
    | some p =>
      if p.place.tier = .t2 ∧ p.form ≠ .zero ∧ !x.oldParks ∧ m.t2.journalPending ≠ 0 ∧ (Tbl.find m.mem.regions x.region).elim false (fun g => g.durable) then m
      else m.oldFreed k x p

/-- The pane raw in its frame. -/
def Mod.unpacked (m : Mod) (k : Nat) (x : PaneRec) (d : Place) (read : Media) : Mod :=
  let m0 := (m.placeError k x read .encode).decodeLog k x .encode
  let c := m0.readAll ((Tbl.find m0.mem.recs k).getD x)
  ((m0.setRec k (fun x => { x with form := .raw, gen := 0, loc := d.loc, sectors := 256, img := Mem.pack 0 (c.1.flatMap id), poison := c.2, unpacking := none, parked := x.parked, written := none })).countMove x d 65536 (m.moveMaster x.region)).retryWrites

/-- Commit of an unpack to a raw frame in T0 (R108). -/
def Mod.unpackCommit (m : Mod) (k : Nat) (read : Media) : Mod :=
  match Tbl.find m.mem.recs k with
  | none => m
  | some x =>
    match x.unpacking with
    | none => m
    | some d =>
        m.unpacked k x d read

/-- A pane due for its repack: an unpacked pane of a PIN_T0 PACKED region whose COUNTER is at or below EVICT_BELOW (R110). -/
def Mod.repackOk (m : Mod) (x : PaneRec) : Bool :=
  match Tbl.find m.mem.regions x.region with
  | some g => g.packed && m.residency g == Residency.pinT0 && x.tier = .t0 && x.form = .raw && x.state = .stable && decide (x.counter ≤ g.evictBelow) &&
      x.unpacking.isNone && x.old.isNone && !x.sealEncode
  | none => false

/-- Encode a pane homed raw in T0 into packed sectors of T0 (R110, R211). With no room it stays as it is. -/
def Mod.packInT0 (m : Mod) (k : Nat) (x : PaneRec) (g : Region) : Mod × Bool :=
  let c := m.readAll x
  let e := g.encode c.1 (tilePoison c.2)
  let n := e.2.2.length / 256
  let ms := m.sampleFirst x.region c.1 (tilePoison c.2)
  match m.t0Alloc (m.residency g = .pinT0) n 1 with
  | none => (m, false)
  | some s => ((ms.setRec k (fun x => { x with form := e.1, gen := e.2.1, loc := if e.1 = .zero then 0 else s, sectors := n, img := Mem.pack 0 e.2.2, poison := [],
                                                encoded := some n, old := some x.asOld })).noteSlowest x.region e.1 (Mem.pack 0 e.2.2), true)

/-- Step 1 of a repack: the worst-case size reserved in T0, and MOVING_DOWN (R110, R119). With no room, or a full engine queue, the pane
stays as it is. -/
def Mod.startRepack (m : Mod) (k : Nat) (g : Region) : Mod :=
  if m.engineFull k then m
  else
    match m.t0Alloc true g.worst 1 with
    | none => m
    | some s => m.setRec k (fun x => { x with state := .movingDown, dest := some { tier := .t0, loc := s, sectors := g.worst }, latch := some g.latch })

/-- REPACK of a pane: it begins where it is due, and commits as an eviction with a T0 destination where it is under way (R110). -/
def Mod.repack (m : Mod) (k : Nat) (read : Media) : Mod :=
  match Tbl.find m.mem.recs k with
  | none => m
  | some x =>
    match Tbl.find m.mem.regions x.region with
    | none => m
    | some g => if x.repacking then m.evictCommit k read else if m.repackOk x then m.startRepack k g else m

/-- The copy of a pane has its frame and its name in the working version. -/
def Mod.copied (m : Mod) (i : Nat) (job : CowJob) (x : PaneRec) (read : Media) : Mod :=
  let pane := job.pane
  let e := (m.placeError job.source x read .hostWrite).decodeLog job.source x .hostWrite
  let m0 := if badRead read ∧ x.tier ≠ .t0 ∧ x.form ≠ .zero then e.poisonPane job.source .hostWrite else e
  let c := m0.readAll ((Tbl.find m0.mem.recs job.source).getD x)
  let k := m0.mem.nextRec
  let y := { PaneRec.fresh job.region pane x.extent job.dest.loc job.elastic m0.mem.promoSeq m0.localTime with
               img := Mem.pack 0 (c.1.flatMap id), poison := c.2, written := none }
  let m1 := m0.setMem (fun e => { e with recs := Tbl.put e.recs k y, nextRec := k + 1, promoSeq := e.promoSeq + 1,
                                          cows := e.cows.eraseIdx i })
  let m2 := (m1.nameNew job.region job.sel pane k).countMove x job.dest 65536 job.master
  let part := (Tbl.find m.mem.regions job.region).map (fun g => g.owner)
  let m3 := (m2.count 0x0043 (walkerOf k) 0xFFFF part 1).traceEv (walkerOf k) 0x09 (part.getD 0xFF) 0 job.region (match job.sel with | .working n => m.idOf n | .part key => key % 2 ^ 32 | _ => 0) pane
  (m3.gcRegion job.region).retryWrites

/-- Commit of a copy on write (R205): the source's contents and poison in a new frame, the working map entry, then the
waiting writes. -/
def Mod.cowCommit (m : Mod) (i : Nat) (read : Media) : Mod :=
  match m.mem.cows[i]? with
  | none => m
  | some job =>
    match Tbl.find m.mem.recs job.source with
    | none => (m.setMem (fun e => { e with cows := e.cows.eraseIdx i })).retryWrites
    | some x =>
      m.copied i job x read

/-- End exhaustion episodes when elastic free space exceeds 0.5% of L: CAPACITY_RESTORED, EXHAUSTED clear (R134). -/
def Mod.restoreCapacity (m : Mod) : Mod :=
  if m.capL < m.elasticFree * 200 then
    m.each (m.mem.parts.filter (fun p => p.2.exhausted)) (fun m p =>
      let m1 := m.setPart p.1 (fun p => { p with exhausted := false, dropLogged := [] })
      let m2 := m1.setMem (fun e => { e with regions := Tbl.mapV e.regions (fun _ g => if g.owner = p.1 then { g with exhaustedFlag := false } else g) })
      m2.raise 0x0302 p.1 0 0 0)
  else m

/-- What giving up a heal does. -/
def Mod.healGivenUp (m : Mod) (k : Nat) (h : Heal) (detail : Nat) : Mod :=
  let m1 := m.setSvc (fun v => { v with heals := v.heals.filter (fun y => y.record != k) })
  let m2 := m1.setFm (fun e => { e with requests := e.requests.filter (fun q => !(q.kind = 4 && q.context = k)) })
  let m3 := if h.wasPoisoned then m2 else m2.setRec k (fun x => if x.state = .movingUp then { x with state := .stable } else x)
  (m3.logErr { unit := walkerOf k, code := 0x0803, sev := .contained, opn := .heal, address := h.pane * 1024, space := .regionPane,
               partition := m.ownerOf h.region, region := h.region, detail := detail }).retryWrites

/-- A heal is abandoned (R478): its frame and its reads go, and a STABLE entry returns to STABLE. DETAIL 1 NACK, 2 poison, 3
unreachable, 4 time, 5 released. -/
def Mod.healFail (m : Mod) (k detail : Nat) : Mod :=
  match m.svc.heals.find? (fun h => h.record = k) with
  | none => m
  | some h =>
    m.healGivenUp k h detail

/-- Heals of records that no version names any longer are abandoned (R478). -/
def Mod.lostHeals (m : Mod) : Mod := m.each (m.svc.heals.filter (fun h => !Tbl.has m.mem.recs h.record)) (fun m h => m.healFail h.record 5)

/-! ### The map store (R105, R412) -/

def Mod.setT1 (m : Mod) (d : Nat) (f : T1Port → T1Port) : Mod := { m with t1 := m.t1.modify d f }

/-- The ports in service that hold a share of the map store. -/
def Mod.mapPorts (m : Mod) : List Nat :=
  (List.range 8).filter (fun d => let p := m.t1.getD d T1Port.init; p.holdsMap && (p.state == T1State.inService || p.state == T1State.retraining))

/-- Move the image of a record out of T1, as an eviction to other T1 space or to T2 (R105, R116). -/
def Mod.moveOut (m : Mod) (k : Nat) : Option Mod :=
  match Tbl.find m.mem.recs k with
  | none => some m
  | some x =>
    match m.evictPlace x.sectors with
    | (none, _) => none
    | (some p, m1) =>
      let m2 := (m1.setRec k (fun x => { x.settled with tier := p.tier, loc := p.loc, die := p.die })).countWalker 0x0041 k x
      some ((m2.countSource x (m.moveMaster x.region)).storeImage k p (m.moveMaster x.region))

/-- A record loses what it holds in the T1 sectors that a test marks, but for the image of a pane at home there: parked and old places, the
destination of a move, and the sectors of a POISONED pane, which has no image and keeps its TIER (R104, R105). -/
def PaneRec.yields (x : PaneRec) (gone : Place → Bool) : PaneRec :=
  let x1 := if x.dest.elim false gone then x.settled else x
  { x1 with parked := x1.parked.filter (fun q => !gone q.place), old := x1.old.filter (fun q => !gone q.place),
            oldParks := x1.oldParks && !x1.old.elim false (fun q => gone q.place),
            sectors := if x1.state = .poisoned ∧ x1.form ≠ .zero ∧ gone { tier := x1.tier, loc := x1.loc, sectors := x1.sectors } then 0 else x1.sectors }

/-- Grow a port's share of the map store to `bytes`, moving out the panes that lie in the sectors that it takes; none where they find no
room (R105). -/
def Mod.growShare (m : Mod) (d bytes : Nat) : Option Mod :=
  let p := m.t1.getD d T1Port.init
  if bytes ≤ p.mapShare then some m
  else if p.capacity < bytes then none
  else
    let m1 := m.setT1 d (fun p => { p with mapShare := bytes })
    let top := (p.capacity - bytes) / 256
    let gone := fun (q : Place) => q.tier == .t1 && q.loc / 2 ^ 40 == d && decide (top < q.loc % 2 ^ 40 + q.sectors)
    let m2 := m1.setMem (fun e => { e with recs := Tbl.mapV e.recs (fun _ x => x.yields gone) })
    let ks := (m2.mem.recs.filter (fun x => x.2.form != .zero && x.2.sectors != 0 && gone { tier := x.2.tier, loc := x.2.loc, sectors := x.2.sectors })).map (fun x => x.1)
    ks.foldl (fun (o : Option Mod) k => o.bind (fun m => m.moveOut k)) (some m2)

/-- Take `n` more frames of T0 for the map store; none where the pool cannot hold them (R105). -/
def Mod.carveMap (m : Mod) : Nat → Option Mod
  | 0 => some m
  | n + 1 => (m.t0Alloc true 256 256).bind (fun s => (m.setMem (fun e => { e with mapCarve := e.mapCarve ++ [(s, 256)] })).carveMap n)

/-- Room for the map store reservations of the extents that the module has added: shares in T1, in T2 beside a single port, or in T0;
none where it cannot be held (R105). What has been taken in T0 is not given back before a cold reset. -/
def Mod.reserveMap (m : Mod) : Option Mod :=
  let n := m.reservedExtents
  if m.mem.mapInT0 then (if n ≤ 524288 then m.carveMap (n - m.mem.mapCarve.length) else none)
  else
    match m.mapPorts with
    | [] => some m
    | [d] => if m.t2.inService ∧ m.t2Free * 256 < n * 65536 then none else m.growShare d (n * 65536)
    | ds => ds.foldl (fun (o : Option Mod) d => o.bind (fun m => m.growShare d (ceilDiv (2 * n * 65536) (ds.length * 256) * 256))) (some m)

/-- Copy again the map pages that are left in one copy, where there is room for it: two ports, or one port and T2, hold them (R412). -/
def Mod.secondCopies (m : Mod) : Option Mod :=
  if m.mapPorts = [] ∨ (m.mapPorts.length = 1 ∧ !m.t2.inService) then none
  else m.reserveMap.map (fun m1 => { m1 with t1 := m1.t1.map (fun p => { p with mapSingle := false }) })

/-- The same, tried again as soon as room appears. -/
def Mod.retryCopies (m : Mod) : Mod := if m.t1.any (fun p => p.mapSingle) then m.secondCopies.getD m else m

/-- After space has been freed: waiting writes, promotion requests and heals are tried again, and episodes may end. -/
def Mod.spaceFreed (m : Mod) : Mod := m.retryCopies.lostHeals.retryWrites.runWishes.retryHeals.restoreCapacity

/-- A held write completes as dropped. -/
def Mod.writeDropped (m : Mod) (i : Nat) (w : HeldWrite) (g : Region) : Mod :=
  let m1 := (m.setMem (fun e => { e with heldWrites := e.heldWrites.eraseIdx i })).setRegion w.region (fun g => { g with dropsLogged := true })
  let seen := match Tbl.find m.mem.parts g.owner with | some p => p.dropLogged.contains (w.region, w.pane) | none => true
  let unit := match m.recAt w.region w.sel w.pane with | some (k, _) => walkerOf k | none => walkerOf w.pane
  let m2 := if seen then m1 else
    (m1.setPart g.owner (fun p => { p with dropLogged := p.dropLogged ++ [(w.region, w.pane)] })).logErr
      { unit := unit, code := 0x0804, sev := .contained, opn := m.writeOpn w.src,
        address := w.pane * 1024 + w.offset / 64, space := .regionPane, partition := g.owner, region := w.region }
  let m3 := match w.src with
    | .core c _ => (match (Tbl.find m.cores c).bind (fun k => k.movement) with
        | some v => m2.setMv v (fun x => { x with droppedTiles := satInc (2 ^ 32 - 1) x.droppedTiles, dropCore := some (x.dropCore.getD c) })
        | none => m2)
    | _ => m2
  match w.src with
  | .remote flow dev tag _ => m3.sendPacket (m3.packetTo dev 1 flow 0x1F tag (leBytes 1 5))
  | _ => m3.writeDone w

/-- EXHAUST_HOLD_MS without space: a held elastic write completes as dropped, with one record per pane per episode (R134). -/
def Mod.dropHeld (m : Mod) (i : Nat) : Mod :=
  match m.mem.heldWrites[i]? with
  | none => m
  | some w =>
    if w.wait ≠ .space then m
    else
      match Tbl.find m.mem.regions w.region with
      | none => m
      | some g =>
        m.writeDropped i w g

end Sys2Proof.Machine
end

