-- ==== Sys2Proof/Machine/Access.lean ====
section
/-! DEFINITION. How an address reaches a version of a region, what a read of a line or tile gives, and the CXL.mem requests of
the hosts (spec/03_tiers_and_panes.md R91 to R93, R111 to R114; spec/06 R197 to R199; spec/14_host_ports.md R446 to R448;
spec/15_integrity_poison.md R467 to R469). -/
namespace Sys2Proof.Machine

/-! ### What a read finds (R385, R403, R411, R419, R467) -/

/-- The place of a record as an error address. -/
def PaneRec.place (x : PaneRec) (off : Nat) : Nat × ASpace × Nat :=
  match x.tier with
  | .t0 => (x.t0Addr off, .t0, 0)
  | .t1 => (x.loc, .t1, 0x3000 + x.loc / 2 ^ 40)
  | .t2 => (x.loc, .t2, 0x4000 + x.die % 32)
  | .unbacked => (0, .none, 0)

/-- What the protection of a place reports when a line (or a whole tile) of a record is read. A raw T0 frame poisons the line, a
packed T0 image the tile or, where the header was hit, every tile; an image in T1 or T2 poisons the pane (R403, R467). -/
def Mod.mediaRead (m : Mod) (k : Nat) (x : PaneRec) (line : Nat) (tile : Bool) (check : Media) (op : Opn) : Mod :=
  if x.tier = .unbacked ∨ x.form = .zero ∨ x.state = .poisoned then m
  else
    match x.checkOf line tile check with
    | .good => m
    | .corrected => if x.tier = .t0 then m.t0Corrected (x.t0Addr (line * 64)) else m
    | bad =>
      match x.tier with
      | .t0 =>
        let ls := if tile then x.readLines (line / 32 * 32) 32 else [line]
        let c := m.choose (max 32 ls.length)
        let l := ls.getD (c.1 % max 1 ls.length) line
        let span := (x.tileSpan (line / 32)).1 / 64 * 64
        let at_ := if x.form = .raw then l else if c.1 % 2 = 0 then span / 64 else 0
        if bad = .metaLost then c.2.metaLost (x.t0Addr (at_ * 64)) op x.region else c.2.lineLost k x at_ op
      | _ => (m.placeError k x bad op).poisonPane k op

/-- A line of a record as a reader receives it: none is poison. Lines on an offline T0 channel, tiles that rest on one, and homes
on a lost port or die read as poison (R412, R422, R467, R473). -/
def Mod.lineAt (m : Mod) (x : PaneRec) (line : Nat) : Option (List Byte) × Bool :=
  if m.homeLost x then (none, false)
  else if x.tier = .t0 ∧ x.form = .raw ∧ m.t0Lost (x.t0Addr (line * 64)) then (none, false)
  else if x.form ≠ .raw ∧ x.form ≠ .zero ∧ m.tileLost x (line / 32) then (none, false)
  else m.lineOf x line

/-- Count a media read of a record at its place (R525): a line of a raw frame, or the header and the tile of an image. -/
def Mod.countRead (m : Mod) (x : PaneRec) (line master : Nat) (tile : Bool) : Mod :=
  let part := some (m.ownerOf x.region)
  let n := if x.form = .raw then (if tile then 2048 else 64) else x.form.headBytes + (x.tileSpan (line / 32)).2
  match x.tier with
  | .t0 =>
    let data := if x.form = .raw then 64 * (if tile then x.readLines (line / 32 * 32) 32 else x.readLines line 1).length else n
    let m1 := m.count 0x0003 (0x2000 + m.t0Channel (x.t0Addr (line * 64))) master part data
    if x.form = .raw then m1.t0Access false (x.t0Addr (line * 64)) n master
    else (m1.t0Access false (x.t0Addr 0) x.form.headBytes master).t0Access false (x.t0Addr (x.tileSpan (line / 32)).1) (x.tileSpan (line / 32)).2 master
  | .t1 => m.count 0x0005 (0x3000 + x.loc / 2 ^ 40) master part n
  | .t2 => m.count 0x0007 (0x4000 + x.die % 32) master part n
  | .unbacked => m

/-- The bytes of a tile read, charged to the movement that reads it (R354). -/
def Mod.spendTile (m : Mod) (v : Option Nat) (x : PaneRec) (t : Nat) : Mod :=
  x.tier.resource.foldl (fun m r => m.spendMv v r.1 r.2 (if x.form = .raw then 2048 else x.form.headBytes + (x.tileSpan t).2)) m

/-- An access of a master that reads a pane outside T0 counts as a miss and may promote it: from T2 on demand, from T1 at PROMOTE_AT; a
PIN_LOW pane is served in place (R111, R113, R117). A ZERO pane holds nothing to promote. -/
def Mod.readMiss (m : Mod) (k : Nat) (x : PaneRec) (master : Nat) : Mod :=
  let m1 := m.bump k
  match Tbl.find m.mem.regions x.region with
  | some g =>
    if m.residency g ≠ .float ∨ x.form = .zero then m1
    else if x.tier = .t2 then m1.promoteForRead k (some master)
    else if g.promoteAt ≤ satInc 255 x.counter then m1.promoteForRead k none
    else m1
  | none => m1

/-! ### Answers to hosts (R436, R448, R469) -/

/-- Send a line to a host, with poison where it has none; log HOST_POISON_READ once per LD per region per second (R469). -/
def Mod.hostData (m : Mod) (l tag region addr : Nat) (data : Option (List Byte)) (die : Option Nat := none) : Mod :=
  let d := m.devLoad l die
  let m1 := (d.2.send (.cxlData l tag (data.getD (List.replicate 64 0)) data.isNone d.1)).count 0x000A (0x6000 + l / 16) l (m.ldPart l) 64
  if data.isSome then m1
  else
    let key := l * 65536 + region
    if Tbl.find m1.svc.err.poisonReadSecond key = some m1.second then m1
    else
      (m1.setErr (fun e => { e with poisonReadSecond := Tbl.put e.poisonReadSecond key m1.second })).logErr
        { unit := 0x6000 + l / 16, code := 0x060A, sev := .contained, opn := .hostRead, address := addr, space := .regionPane,
          partition := m.ownerOf region, region := region, context := 0x8000 + l }

/-- A line read of a local pane by a host. -/
def Mod.hostLine (m : Mod) (l tag r : Nat) (sel : VerSel) (pane line : Nat) (check : Media) (issued : Option Nat := none) : Mod :=
  let addr := pane * 1024 + line
  match m.recAt r sel pane with
  | none => m.hostData l tag r addr (some (List.replicate 64 0)) (some (m.queueDie r sel pane))
  | some (k, x) =>
    match m.readWaits (.host l tag) k x [(5, l / 16)] issued with
    | some w => m.holdRead { src := .host l tag, region := r, sel := sel, pane := pane, offset := line * 64, tile := false, raw := false, wait := w, issued := issued }
    | none =>
      let m1 := if x.tier = .t0 then m.lineHit (l / 16) k else if x.tier = .unbacked then m else m.readMiss k x l
      let m2 := (m1.mediaRead k x line false (if m.homeLost x then .good else check) .hostRead).countRead x line l false
      let y := (Tbl.find m2.mem.recs k).getD x
      let now := if badRead (x.checkOf line false check) ∧ x.tier ≠ .unbacked ∧ x.form ≠ .zero then (none, false) else m2.lineAt { x with state := y.state } line
      let m3 := if now.2 then m2.logErr { unit := 0x6000 + l / 16, code := 0x060B, sev := .contained, opn := .hostRead, address := addr, space := .regionPane,
                                           partition := m.ownerOf r, region := r, context := 0x8000 + l } else m2
      let m4 := if now.1.isNone then m3.healPoisonRead k else m3
      (m4.noteLate l issued).hostData l tag r addr now.1 (some (k % 4))

/-! ### From DPA to pane (R91 to R93, R197, R198, R329, R331) -/

/-- The window of an LD over an extent: context slot, context, window. -/
def Mod.windowAt (m : Mod) (l ext : Nat) : Option (Nat × Ctx × Window) :=
  m.ctxs.findSome? (fun c => match c.2.window with
    | some w => if w.ld = l ∧ w.extent ≤ ext ∧ ext < w.extent + w.count ∧ c.2.state ≠ .free then some (c.1, c.2, w) else none
    | none => none)

/-- The partition of an LD owns or shares a region. -/
def Mod.mayReach (m : Mod) (part r : Nat) : Bool :=
  match Tbl.find m.mem.regions r with
  | some g => g.owner = part || (g.shared && g.sharers.contains part)
  | none => false

/-- The stripe map entry of a fabric pane (R329). -/
def FabRegion.entry (f : FabRegion) (pane : Nat) : Option StripeEntry :=
  let u := pane / 2 ^ f.log2Stripe
  if u < f.units then Tbl.find f.stripe u else none

/-- The pane index in the local part of a fabric pane that is homed here (R329). -/
def FabRegion.localPane (f : FabRegion) (e : StripeEntry) (pane : Nat) : Nat := e.localUnit * 2 ^ f.log2Stripe + pane % 2 ^ f.log2Stripe

/-- A pane index of a region, or of a fabric region as far as this module knows its stripe map, lies at no ordinal gap and not beyond the
region: an access to one that does is handled under R93 (R198, R329). -/
def Mod.hasPane (m : Mod) (r pane : Nat) : Bool :=
  if r < 0x8000 then (Tbl.find m.mem.regions r).elim false (fun g => (g.extentAt pane).isSome)
  else
    (Tbl.find m.fm.regions (r - 0x8000)).elim false (fun f => (f.entry pane).elim false (fun e =>
      e.home != m.fab.deviceId || (Tbl.find m.mem.regions f.localRegion).elim false (fun g => (g.extentAt (f.localPane e pane)).isSome)))

/-- What an access of an LD at a DPA reaches: the region (0x8000 + FREGION_ID for a fabric region), the version, the pane
index, and the window's context. None is an access under R93. -/
def Mod.reachOf (m : Mod) (l dpa : Nat) : Option (Nat × VerSel × Nat × Option Nat) :=
  let ext := dpa / 2 ^ 28
  let p := dpa / 65536 % 4096
  match Tbl.find m.mem.lds l with
  | none => none
  | some b =>
    match m.windowAt l ext with
    | some (n, c, w) =>
      let pane := (w.firstOrdinal + (ext - w.extent)) * 4096 + p
      (match c.obj with
        | .view r v => if m.hasPane r pane then some (r, .sealed v, pane, some n) else none
        | .working r _ _ => if m.hasPane r pane then some (r, .working n, pane, some n) else none
        | _ => none)
    | none =>
      match (Tbl.find m.mem.extents ext).bind (fun e => e.region) with
      | some (r, o) =>
        (match Tbl.find m.mem.regions r with
          | some g => if m.mayReach b.partition r ∧ !g.striped then some (r, .head, o * 4096 + p, none) else none
          | none => none)
      | none => none

/-- The base of a fabric working version as this member knows it: the origin's context, the holder that the registrar recorded,
or, where the spec brings it to this member by no message, a free choice among the sealed versions that it holds (R333). -/
def Mod.partBase (m : Mod) (f : FabRegion) (key : Nat) : Nat × Mod :=
  let own := if key / 2 ^ 32 = m.fab.deviceId then
      (match Tbl.find m.ctxs (key % 65536) with
        | some c => (match c.obj with | .working _ b _ => some b | _ => none)
        | none => none)
    else none
  match own, f.holders.find? (fun h => h.working && h.device = key / 2 ^ 32 && h.token = key % 2 ^ 32) with
  | some b, _ => (b, m)
  | none, some h => (h.version, m)
  | none, none =>
    let vs := (Tbl.find m.mem.regions f.localRegion).elim [] (fun g => Tbl.keys g.vers)
    let c := m.choose vs.length
    (vs.getD c.1 0, c.2)

/-- This member notes the base of a fabric working version at the first access that reaches it. -/
def Mod.knowBase (m : Mod) (fr key : Nat) : Mod :=
  match Tbl.find m.fm.regions fr with
  | none => m
  | some f =>
    if Tbl.has f.parts key || Tbl.has f.bases key then m
    else
      let b := m.partBase f key
      b.2.setFm (fun e => { e with regions := Tbl.upd e.regions fr (fun f => { f with bases := Tbl.put f.bases key b.1 }) })

/-- Create this member's part of a fabric working version, with the base's contents, where it has none: at its first write (R333). -/
def Mod.ensurePart (m : Mod) (fr key : Nat) : Mod :=
  let m1 := m.knowBase fr key
  match Tbl.find m1.fm.regions fr with
  | none => m1
  | some f =>
    if Tbl.has f.parts key then m1
    else m1.setFm (fun e => { e with regions := Tbl.upd e.regions fr (fun x => { x with parts := Tbl.put x.parts key (m1.vmap f.localRegion (.part key)) }) })

/-- An access reaches this member's part of a version of a fabric region: a write makes the part, a read of one that has none is one of the
base (R333). -/
def Mod.reachPart (m : Mod) (fr : Nat) (sel : VerSel) (write : Bool) : Mod :=
  match sel with
  | .part key => if write then m.ensurePart fr key else m.knowBase fr key
  | _ => m

/-- The key of a fabric working version whose origin is this module. -/
def Mod.ownKey (m : Mod) (slot : Nat) : Nat := m.fab.deviceId * 2 ^ 32 + m.idOf slot

/-- VERSION and WCTX of a reference to the version that a selector names on a fabric region (R333). -/
def Mod.refVersion (m : Mod) : VerSel → Nat × Nat
  | .head => (0xFFFFFFFF, 0)
  | .sealed v => (v, 0)
  | .working n => (0xFFFFFFFE, m.idOf n)
  | .part k => (0xFFFFFFFE, k % 2 ^ 32)
  | .late v _ _ => (v, 0)

/-- FLOW_KEY of the packets of a fabric region (R332): kind 0. -/
def regionFlow (fr : Nat) : Nat := fr % 16384

/-- The selector in the local part of a fabric region for a version of it. -/
def Mod.partSel (m : Mod) (sel : VerSel) : VerSel :=
  match sel with
  | .working n => .part (m.ownKey n)
  | s => s

/-- A host line read of a fabric pane: served here when the unit is homed here, otherwise requested from its home (R335). -/
def Mod.hostFabricRead (m : Mod) (l tag fr : Nat) (sel : VerSel) (pane line : Nat) (check : Media) : Mod :=
  match Tbl.find m.fm.regions fr with
  | none => m.hostData l tag (0x8000 + fr) (pane * 1024 + line) none
  | some f =>
    match f.entry pane with
    | none => m.hostData l tag (0x8000 + fr) (pane * 1024 + line) none
    | some e =>
      if e.home = m.fab.deviceId ∧ !f.accessor then
        (m.reachPart fr (m.partSel sel) false).hostLine l tag f.localRegion (m.partSel sel) (f.localPane e pane) line check
      else
        let v := m.refVersion sel
        m.request 0 e.home 0 0x10 0 (regionFlow fr)
          (refBytes (pane * 1024 + line) v.1 v.2 m.fab.deviceId (f.stripeGen % 65536) 0) (pane * 1024 + line) (.host l tag) (0x8000 + fr)
          ((m.ldPart l).getD 0)

/-! ### A module that drains or has failed (R513, R514) -/

/-- An access that ends because the module has failed: every one in FAILED_REPLACE; while DRAINING, one that needs a faulted walker, or a
faulted router. -/
def Mod.accessLost (m : Mod) (r : Nat) (sel : VerSel) (pane : Nat) : Bool × Mod :=
  match m.boot.readiness with
  | .failedReplace => (true, m)
  | _ => m.needsFaulted [match (if r < 0x8000 then m.recAt r sel pane else none) with | some (k, _) => walkerOf k | none => walkerOf pane]

/-- A write that comes while the module drains or has failed is discarded; while it drains, WRITE_DISCARDED is logged once per LD per region
per second (R513). Writes of other modules share one mark per region. -/
def Mod.drainDiscard (m : Mod) (ld : Option Nat) (r pane line : Nat) : Mod :=
  let key := ld.getD 64 * 65536 + r
  if m.boot.readiness ≠ .draining ∨ Tbl.find m.test.discardSecond key = some m.second then m
  else
    (m.setTest (fun t => { t with discardSecond := Tbl.put t.discardSecond key m.second })).logErr
      { unit := walkerOf (((if r < 0x8000 then m.recAt r .head pane else none).map (fun x => x.1)).getD pane), code := 0x0805, sev := .info,
        opn := if ld.isSome then .hostWrite else .remote, address := pane * 1024 + line, space := .regionPane, partition := m.ownerOf r,
        region := r % 65536, context := (ld.map (fun l => 0x8000 + l)).getD 0 }

/-- Writes are discarded (R513, R514). -/
def Mod.writesStopped (m : Mod) : Bool := m.boot.readiness == .draining || m.boot.readiness == .failedReplace

/-! ### Writes from hosts (R93, R197, R198, R219, R448) -/

/-- Log WRITE_DISCARDED for a host write to a pane (R197, R198, R219). -/
def Mod.discarded (m : Mod) (l r pane line : Nat) (known : Option Nat) : Mod :=
  m.logErr { unit := walkerOf (known.getD pane), code := 0x0805, sev := .info, opn := .hostWrite, address := pane * 1024 + line, space := .regionPane,
             partition := m.ownerOf r, region := r % 65536, context := 0x8000 + l }

/-- A host write that an access under R93 or a missing decoder discards: HOST_OUTSIDE_DECODER once per LD per second. -/
def Mod.outsideLog (m : Mod) (l hpa : Nat) (op : Opn) : Mod :=
  if (m.ld l).outsideSecond = some m.second ∨ !(m.ld l).memoryActive then m
  else (m.setLd l (fun d => { d with outsideSecond := some m.second })).logErr
    { unit := 0x6000 + l / 16, code := 0x0602, sev := .info, opn := op, address := hpa, space := .hostPhys, context := 0x8000 + l }

/-- A host line write of a fabric pane (R335). -/
def Mod.hostFabricWrite (m : Mod) (l tag fr : Nat) (sel : VerSel) (pane line : Nat) (data : List Byte) (enable : List Bool) (poison : Bool) : Mod :=
  match Tbl.find m.fm.regions fr with
  | none => m.hostCmp l tag
  | some f =>
    match f.entry pane with
    | none => m.hostCmp l tag
    | some e =>
      if e.home = m.fab.deviceId ∧ !f.accessor then
        let m1 := (m.reachPart fr (m.partSel sel) true)
        m1.submit { src := .host l tag, region := f.localRegion, sel := m.partSel sel, pane := f.localPane e pane, offset := line * 64, bytes := data,
                    enable := enable, poisoned := poison, wait := .frame }
      else
        let v := m.refVersion sel
        if !enable.all id then
          m.request 9 e.home 0 0x10 0 (regionFlow fr) (refBytes (pane * 1024 + line) v.1 v.2 m.fab.deviceId (f.stripeGen % 65536) 0)
            (pane * 1024 + line) (.host l tag) (0x8000 + fr) ((m.ldPart l).getD 0) poison data enable
        else
        m.request 1 e.home 0 0x11 0 (regionFlow fr)
          (refBytes (pane * 1024 + line) v.1 v.2 m.fab.deviceId (f.stripeGen % 65536) 0 ++ data) (pane * 1024 + line) (.host l tag) (0x8000 + fr)
          ((m.ldPart l).getD 0) poison

/-- A host line write at a DPA that a decoder gives. -/
def Mod.hostWriteAt (m : Mod) (l tag dpa hpa : Nat) (data : List Byte) (enable : List Bool) (poison : Bool) : Mod :=
  let line := dpa / 64 % 1024
  match m.reachOf l dpa with
  | none => (m.outsideLog l hpa .hostWrite).hostCmp l tag
  | some (r, sel, pane, win) =>
    let kn := if r < 0x8000 then (m.recAt r sel pane).map (fun x => x.1) else none
    match Tbl.find m.mem.lds l with
    | none => m.hostCmp l tag
    | some b =>
      if b.lease = .cleanup then
        let m1 := if b.cleanupLogged then m else
          (m.setMem (fun e => { e with lds := Tbl.upd e.lds l (fun b => { b with cleanupLogged := true }) })).discarded l r pane line kn
        m1.hostCmp l tag
      else if m.writesStopped then (m.drainDiscard (some l) r pane line).hostCmp l tag
      else
        match win, sel with
        | some n, .sealed _ =>
          let seen := match Tbl.find m.ctxs n with | some c => c.viewWriteLogged | none => true
          let m1 := if seen then m else (m.setCtx n (fun c => { c with viewWriteLogged := true })).discarded l r pane line kn
          m1.hostCmp l tag
        | _, _ =>
          if 0x8000 ≤ r then m.hostFabricWrite l tag (r - 0x8000) sel pane line data enable poison
          else
            match Tbl.find m.mem.regions r with
            | none => m.hostCmp l tag
            | some g =>
              if win = none ∧ g.versioning then
                let mark := m.second * 64 + l
                let m1 := if g.plainWriteLogged.contains mark then m else
                  (m.setRegion r (fun g => { g with plainWriteLogged := mark :: g.plainWriteLogged.filter (fun x => x / 64 = m.second) })).discarded l r pane line kn
                m1.hostCmp l tag
              else
                m.submit { src := .host l tag, region := r, sel := sel, pane := pane, offset := line * 64, bytes := data, enable := enable,
                           poisoned := poison, wait := .frame }

/-! ### HDM decoders (R446, R447) -/

/-- The DPA that a committed decoder gives for an HPA in its range (R447). -/
def HdmDecoder.map (d : HdmDecoder) (hpa : Nat) : Option Nat :=
  if d.committed ∧ d.base ≤ hpa ∧ hpa < d.base + d.size then
    let off := hpa - d.base
    some (d.dpaBase + off / 2 ^ (d.granLog2 + d.waysLog2) * 2 ^ d.granLog2 + off % 2 ^ d.granLog2)
  else none

/-- The DPA of a CXL.mem request of an LD; none before Memory_Active or in no committed decoder (R448). -/
def Mod.decodeHpa (m : Mod) (l hpa : Nat) : Option Nat :=
  if (m.ld l).memoryActive then (m.ld l).decoders.findSome? (fun d => d.map hpa) else none

/-- The LD's port carries CXL.mem: in SLD mode for LD 0 alone, in MLD mode for every LD (R434, R435). -/
def Mod.cxlUp (m : Mod) (l : Nat) : Bool :=
  m.pow.phase = .on && !m.pow.modReset &&
    (match (m.port (l / 16)).mode with | .sld => l % 16 = 0 | .mld => true | _ => false) && !(m.port (l / 16)).ideInsecure

/-- A 64 B read at a DPA. -/
def Mod.hostReadAt (m : Mod) (l tag dpa hpa : Nat) (check : Media) : Mod :=
  let line := dpa / 64 % 1024
  match m.reachOf l dpa with
  | none => let m1 := m.outsideLog l hpa .hostRead; let d := m1.devLoad l; d.2.send (.cxlData l tag (List.replicate 64 0) true d.1)
  | some (r, sel, pane, _) =>
    let g := m.accessLost r sel pane
    if g.1 then g.2.hostData l tag r (pane * 1024 + line) none
    else if 0x8000 ≤ r then g.2.hostFabricRead l tag (r - 0x8000) sel pane line check
    else g.2.hostLine l tag r sel pane line check

end Sys2Proof.Machine
end

