-- ==== Sys2Proof/Machine/Tiles.lean ====
section
/-! DEFINITION. A tile as a tile mover takes it (spec/05_compression_engines.md R176, R663), and what this module answers, as a
home, to reads of other modules (spec/10_fabric_memory_space.md R335, R336, R343). -/
namespace Sys2Proof.Machine

/-- A tile in stored form with the fields of its tag (R176, R663). -/
structure StoredTile where
  format : Nat
  dtype : DType
  mode : Nat
  streamUnits : Nat
  body : List Byte
  codebook : List Nat
  cbCount : Nat
  poisoned : Bool
  formatError : Bool
  gen : Nat
  table : Mem
  deriving DecidableEq, Repr

def LMode.isTable (n : Nat) : Bool := n = 2 || n = 3

/-- The 16 B tag with a table store slot (R176). -/
def StoredTile.tag (t : StoredTile) (slot : Nat) : List Byte :=
  leBytes 1 t.format ++ leBytes 1 t.dtype.code ++ leBytes 1 (t.mode + 4 * b2n t.poisoned) ++ leBytes 1 t.streamUnits ++
    leBytes 2 (if t.format = 1 ∧ LMode.isTable t.mode then slot else 0) ++ leBytes 2 (ceilDiv t.body.length 16) ++
    ((t.codebook ++ List.replicate 7 0).take 7).flatMap (leBytes 1) ++ leBytes 1 t.cbCount

/-- A tile with no stored bytes: ZERO, poisoned or not. -/
def StoredTile.zero (d : DType) (poisoned : Bool) : StoredTile :=
  { format := 0, dtype := d, mode := 0, streamUnits := 0, body := [], codebook := [], cbCount := 0, poisoned := poisoned, formatError := false,
    gen := 0, table := [] }

/-- Tile `t` of a record as its home gives it (R663): the checks of the header and the index entry are those of the tile mover. A tile that they
find affected keeps its body, but for one whose own derived length breaks R148: it has no body (DESIGN CHOICE: the spec states none). -/
def Mod.storedTile (m : Mod) (x : PaneRec) (t : Nat) : StoredTile :=
  let d := match Tbl.find m.mem.regions x.region with | some g => g.dtype | none => .opaque
  if x.state = .poisoned ∨ m.homeLost x then StoredTile.zero d true
  else
    match x.tier, x.form with
    | .unbacked, _ => StoredTile.zero d false
    | _, .zero => StoredTile.zero d false
    | _, .raw =>
      let bad := x.poison.any (fun l => l / 32 = t) || (m.t0.offline != [] && (List.range 32).any (fun i => m.t0Lost (x.t0Addr ((t * 32 + i) * 64))))
      { StoredTile.zero d bad with mode := 1, body := Mem.block x.img (t * 2048) 2048 }
    | _, .frit =>
      { StoredTile.zero (imageDType x.img) (bit (fritPoison x.img) t || x.poison.contains t || m.tileLost x t) with
        format := 2, body := fritBody x.img t, codebook := fritHeaderCb x.img, cbCount := Mem.rdLE x.img 2 1 }
    | _, .lehr =>
      let tab := m.tableOf x.region (lehrGen x.img)
      let err := headerError x.img tab t
      let mode := (lehrIndex x.img t).1.code
      let body := if lenBreaks x.img t then [] else lehrBodyOf x.img t
      let di := imageDType x.img
      { StoredTile.zero di (bit (lehrPoison x.img) t || x.poison.contains t || m.tileLost x t || err) with
        format := 1, mode := mode, body := body, formatError := err && !bit (lehrPoison x.img) t, gen := lehrGen x.img, table := tab.getD [],
        streamUnits := if mode = 2 then ceilDiv (body.length - di.planeBytes) 16 else 0 }

/-- A tile expanded and sent raw (R336, R663). -/
def Mod.rawTile (m : Mod) (x : PaneRec) (t : Nat) : StoredTile :=
  let s := m.storedTile x t
  let d := match Tbl.find m.mem.regions x.region with | some g => g.dtype | none => .opaque
  let b := m.tileOf x t
  { StoredTile.zero d (s.poisoned || b.1.isNone) with mode := 1, body := b.1.getD (List.replicate 2048 0), formatError := b.2.1 }

/-! ### Answers of a home to reads (R335, R336, R343) -/

/-- NACK with a reason (R332). -/
def Mod.nack (m : Mod) (flow dev tag reason : Nat) : Mod := m.sendPacket (m.packetTo dev 1 flow 0x1F tag (leBytes 1 reason))

/-- LINE_DATA (R332). -/
def Mod.lineData (m : Mod) (flow dev tag : Nat) (data : Option (List Byte)) : Mod :=
  m.sendPacket (m.packetTo dev 1 flow 0x14 tag (data.getD (List.replicate 64 0)) 0 data.isNone)

/-- The table store slot of a region's generation. -/
def Mod.slotOf (m : Mod) (r gen : Nat) : Nat :=
  match (Tbl.find m.mem.regions r).bind (fun g => Tbl.find g.tables.gens gen) with | some t => t.slot | none => 0

/-- TILE_DATA: tag and body, behind a 144 B table image when FLAGS [3] asked for it (R332, R336): zeros for a tile that needs none. -/
def Mod.tileData (m : Mod) (flow dev tag : Nat) (r : Nat) (t : StoredTile) (attach : Bool) : Mod :=
  let table := if attach then (if t.format = 1 ∧ LMode.isTable t.mode then Mem.block t.table 0 144 else List.replicate 144 0) else []
  m.sendPacket (m.packetTo dev 2 flow 0x15 tag (table ++ t.tag (m.slotOf r t.gen) ++ t.body) 0 t.poisoned)

/-- A line read of a local pane for another module (R335). The pane is counted and promoted as for a host. -/
def Mod.remoteLine (m : Mod) (flow dev tag part r : Nat) (sel : VerSel) (pane line : Nat) (check : Media) (issued : Option Nat := none) : Mod :=
  let g := m.accessLost r sel pane
  let m := g.2
  if g.1 then m.nack flow dev tag 6 else
  match m.recAt r sel pane with
  | none => m.lineData flow dev tag (some (List.replicate 64 0))
  | some (k, x) =>
    match m.readWaits (.remote flow dev tag part) k x [] issued with
    | some w => m.holdRead (HeldRead.mk (.remote flow dev tag part) r sel pane (line * 64) false false w issued)
    | none =>
      let m1 := if x.tier = .t0 ∨ x.tier = .unbacked then m else m.readMiss k x (0x1000 + part)
      let m2 := (m1.mediaRead k x line false (if m.homeLost x then .good else check) .remote).countRead x line (0x1000 + part) false
      let y := (Tbl.find m2.mem.recs k).getD x
      let now := if badRead (x.checkOf line false check) ∧ x.tier ≠ .unbacked ∧ x.form ≠ .zero then (none, false) else m2.lineAt { x with state := y.state } line
      let m3 := if now.1.isNone then m2.healPoisonRead k else m2
      if y.state = .poisoned ∨ m.homeLost x then m3.nack flow dev tag 6 else m3.lineData flow dev tag now.1

/-- A tile read of a local pane for another module (R336). A tile fetch of a core counts a pane that it finds in T0 (R111). -/
def Mod.remoteTile (m : Mod) (flow dev tag part r : Nat) (sel : VerSel) (pane t : Nat) (raw core attach : Bool) (check : Media) (issued : Option Nat := none) : Mod :=
  let g := m.accessLost r sel pane
  let m := g.2
  if g.1 then m.nack flow dev tag 6 else
  match m.recAt r sel pane with
  | none =>
    let d := match Tbl.find m.mem.regions r with | some g => g.dtype | none => .opaque
    m.tileData flow dev tag r (if raw then { StoredTile.zero d false with mode := 1, body := List.replicate 2048 0 } else StoredTile.zero d false) attach
  | some (k, x) =>
    match m.readWaits (.remote flow dev tag part) k x [] issued with
    | some w => m.holdRead (HeldRead.mk (.remote flow dev tag part) r sel pane (t * 2048 + b2n core + 2 * b2n attach) true raw w issued)
    | none =>
      let m1 := if x.tier = .t0 then (if core then m.bump k else m) else if x.tier = .unbacked then m else m.readMiss k x (0x1000 + part)
      let m2 := (m1.mediaRead k x (t * 32) true (if m.homeLost x then .good else check) .remote).countRead x (t * 32) (0x1000 + part) true
      let y := (Tbl.find m2.mem.recs k).getD x
      let z := { x with state := y.state, poison := y.poison }
      let s := if raw then m2.rawTile z t else m2.storedTile z t
      let bad := badRead (x.checkOf (t * 32) true check) && x.tier != .unbacked && x.form != .zero
      let m3 := if s.poisoned ∨ bad then m2.healPoisonRead k else m2
      if y.state = .poisoned ∨ m.homeLost x then m3.nack flow dev tag 6 else m3.tileData flow dev tag r { s with poisoned := s.poisoned || bad } attach

/-- Serve a read that has waited. -/
def Mod.serveRead (m : Mod) (h : HeldRead) : Mod :=
  match h.src with
  | .host l tag => m.hostLine l tag h.region h.sel h.pane (h.offset / 64) .good h.issued
  | .remote flow dev tag part =>
    if h.tile then m.remoteTile flow dev tag part h.region h.sel h.pane (h.offset / 2048) h.raw (bit h.offset 0) (bit h.offset 1) .good h.issued
    else m.remoteLine flow dev tag part h.region h.sel h.pane (h.offset / 64) .good h.issued
  | _ => m

/-- Serve the reads that wait for a reason, in order, and then those that wait for an entry of a queue; those that must wait again wait
again. -/
def Mod.serveReads (m : Mod) (why : WaitFor) : Mod :=
  let go := fun (m : Mod) (why : WaitFor) =>
    (m.setMem (fun e => { e with heldReads := e.heldReads.filter (fun h => h.wait != why) })).each (m.mem.heldReads.filter (fun h => h.wait = why)) Mod.serveRead
  go (go m why) .credit

end Sys2Proof.Machine
end

