-- ==== Sys2Proof/Machine/Versions.lean ====
section
/-! DEFINITION. Versions of regions: retention, seals, their encodes and persistence, and the freeing of versions
(spec/06_extents_sharing_versions.md R202 to R215), and the rows that move panes on (spec/03_tiers_and_panes.md). -/
namespace Sys2Proof.Machine

/-! ### Retention (R207) -/

/-- Open views of this module on a version. -/
def Mod.viewsOf (m : Mod) (r v : Nat) : Nat :=
  (m.ctxs.filter (fun c => c.2.state != .free && c.2.obj == Obj.view r v)).length

/-- A fabric region keeps a version of its local part: at the registrar while a holder of some module views it; at another
member until the registrar sends VERSION_FREE (R338). -/
def Mod.fabHolds (m : Mod) (r v : Nat) : Bool :=
  m.fm.regions.any (fun f => !f.2.accessor && f.2.localRegion = r &&
    (f.2.registrar != m.fab.deviceId || f.2.holders.any (fun h => !h.working && h.version = v)))

/-- A sealed version is retained (R207). -/
def Mod.retained (m : Mod) (r : Nat) (g : Region) (v : Nat) (x : Ver) : Bool :=
  g.head = v || m.viewsOf r v != 0 || x.checkpoint || x.orphan || (g.durable && g.newestDurable == some v) || m.fabHolds r v

/-- The retained versions of a region, ascending. -/
def Mod.retainedOf (m : Mod) (r : Nat) (g : Region) : List (Nat × Ver) := g.vers.filter (fun v => m.retained r g v.1 v.2)

/-- Retained versions across all regions. -/
def Mod.retainedAll (m : Mod) : Nat := sumOf (m.mem.regions.map (fun g => (m.retainedOf g.1 g.2).length))

/-- Free a version that is no longer retained, with every record that no other version names (R207). -/
def Mod.freeVersion (m : Mod) (r v : Nat) : Mod :=
  ((m.setRegion r (fun g => { g with vers := Tbl.del g.vers v, persisting := g.persisting.filter (fun x => x != v) })).gcRegion r).spaceFreed

/-! ### Seals (R202, R204, R209 to R211, R214, R215) -/

/-- Versions of the region that stay retained beside the one that a seal makes: under PUBLISH the old head is the head no longer. -/
def Mod.stayRetained (m : Mod) (r : Nat) (g : Region) (publish : Bool) : Nat :=
  (m.retainedOf r (if publish then { g with head := g.nextVersion } else g)).length

/-- A seal of the region would exceed a limit: 64 retained versions, 65,536 on the module, or the last number (R202, R207). -/
def Mod.sealRefused (m : Mod) (r : Nat) (g : Region) (publish : Bool) : Bool :=
  decide (64 ≤ m.stayRetained r g publish) ||
    decide (65536 ≤ m.retainedAll - (m.retainedOf r g).length + m.stayRetained r g publish) || decide (0xFFFFFFFE < g.nextVersion)

/-- The panes of a FRIT region that a seal makes due for their encode: RAW panes of the new version that no sealed version held
before (R211). For a frame on its way down that encode is the one of the move, which continues (R123). -/
def Mod.sealEncodes (m : Mod) (r : Nat) (g : Region) (map : Tbl Nat) : Mod :=
  if g.form = .frit then
    m.setMem (fun e => { e with recs := Tbl.mapV e.recs (fun k x =>
      if x.region = r && x.tier == Tier.t0 && x.form == PForm.raw && x.state != PState.poisoned && mapNames map x.pane k && m.sealedNaming k x = 0
      then { x with sealEncode := true } else x) })
  else m

/-- Seal a map as version `n` of a region. In a DURABLE region its persistence begins (R215). -/
def Mod.sealMap (m : Mod) (r : Nat) (g : Region) (n : Nat) (map : Tbl Nat) (ckpt orphan publish : Bool) : Mod :=
  (m.sealEncodes r g map).setRegion r (fun g => { g with
    vers := Tbl.put g.vers n { map := map, checkpoint := ckpt, orphan := orphan, durableDone := false, published := publish },
    nextVersion := max g.nextVersion (n + 1), head := if publish then n else g.head,
    persisting := if g.durable then g.persisting ++ [n] else g.persisting })

/-- Writes and copies that reached the walker before a seal belong to the sealed version (R210). -/
def Mod.lateWrites (m : Mod) (r n : Nat) (sel : VerSel) (isPart : Bool) (key : Nat) : Mod :=
  let sealedAs := VerSel.late n isPart key
  m.setMem (fun e => { e with
    heldWrites := e.heldWrites.map (fun w => if w.region = r ∧ w.sel = sel ∧ w.wait ≠ .sealCommit ∧ !w.wait.atSource then { w with sel := sealedAs } else w),
    cows := e.cows.map (fun c => if c.region = r ∧ c.sel = sel then { c with sel := sealedAs } else c) })

/-- Seal a local working version with the next number, or nothing where R207 forbids it. Under PUBLISH the version becomes the
head. The context goes on as a working version whose base is the new head (R209), or, for CHECKPOINT and orphans, the base
that it had. -/
def Mod.sealWorking (m : Mod) (slot : Nat) (ckpt orphan publish : Bool) : Option Nat × Mod :=
  match Tbl.find m.ctxs slot with
  | none => (none, m)
  | some c =>
    match c.obj with
    | .working r base map =>
      (match Tbl.find m.mem.regions r with
        | none => (none, m)
        | some g =>
          if m.sealRefused r g publish then (none, m)
          else
            let n := g.nextVersion
            let m1 := (m.sealMap r g n map ckpt orphan publish).lateWrites r n (.working slot) false slot
            (some n, m1.setCtx slot (fun c => { c with obj := .working r (if publish then n else base) map })))
    | _ => (none, m)

/-- The contents of a frame written to a parked slot: the encoded image with its place (R121, R211, R214). `forceT2` for DURABLE
regions. The pane's record with the slot, or none where no slot can be reserved; a ZERO image needs none. The encode is charged to a
master: CHECKPOINT, or the mover for a seal encode (R348). -/
def Mod.parkImage (m : Mod) (k : Nat) (x : PaneRec) (g : Region) (forceT2 : Bool) (ms : Nat := 0x3002) : Mod × Bool × Bool :=
  let c := m.readAll x
  let e := if x.form = .raw then g.encode c.1 (tilePoison c.2) else (x.form, x.gen, Mem.block x.img 0 (x.sectors * 256))
  let n := e.2.2.length / 256
  if e.1 = .zero then (m, true, false)
  else
    let fuel := m.mem.recs.length + 1
    let first := if !forceT2 && m.t1Usable && decide (m.t1Total < m.t1Free * 50) then m.lowAlloc .t1 n fuel else (none, m)
    match (match first with | (some p, m1) => (some p, m1) | (none, m1) => m1.lowAlloc .t2 n fuel) with
    | (none, m1) => (m1, false, false)
    | (some p, m1) =>
      let img := Mem.pack 0 e.2.2
      let m2 := (m1.setRec k (fun y => { y with parked := some { place := p, form := e.1, gen := e.2.1, img := img, age := m1.mem.parkAge }, encoded := some n })).noteSlowest x.region e.1 img
      let m3 := m2.setMem (fun e => { e with parkAge := e.parkAge + 1 })
      let m4 := (m3.countSource x ms).storeImage k p ms
      ((if x.form = .raw then m4.sampleFirst x.region c.1 (tilePoison c.2) else m4), true, true)

/-- Give a T0 pane its image without moving its home (R122, R214): nothing where it has one in the right tier, a copy of a T1
slot's image to T2 for a DURABLE region, or an encode. Whether it could, and whether the pane counts as encoded. -/
def Mod.imageFor (m : Mod) (k : Nat) (g : Region) : Mod × Bool × Bool :=
  match Tbl.find m.mem.recs k with
  | none => (m, true, false)
  | some x =>
    if x.tier ≠ .t0 ∨ x.state = .poisoned ∨ x.form = .zero then (m, true, false)
    else if x.parked.isNone ∧ (x.state = .movingDown ∨ m.engineFull k) then (m, false, false)
    else
      match x.parked with
      | some p =>
        if !g.durable ∨ p.place.tier = .t2 then (m, true, false)
        else
          let r := m.slotToT2 k p
          (r.1, r.2, r.2)
      | none => m.parkImage k x g g.durable

/-- A pane of versions that CHECKPOINT commands are encoding has been given its image (R214). -/
def Mod.countEncoded (m : Mod) (k : Nat) (x : PaneRec) : Mod :=
  { m with ctxs := Tbl.mapV m.ctxs (fun _ c => match c.work with
    | .checkpoint r v n => if r = x.region ∧ mapNames (m.vmap r (.sealed v)) x.pane k then { c with work := .checkpoint r v (n + 1) } else c
    | _ => c) }

/-- Complete the seal encode of a pane: packed again in T0 where the region is PACKED and there is room, otherwise the frame
rewritten with the decoded values, and for an UNPACKED home the image parked where a slot can be reserved (R211). A frame on its way
down is encoded by its move. -/
def Mod.sealEncodeDone (m : Mod) (k : Nat) : Mod :=
  match Tbl.find m.mem.recs k with
  | none => m
  | some x =>
    if !x.sealEncode ∨ x.state = .movingDown then m
    else
      let m0 := m.setRec k (fun x => { x with sealEncode := false })
      match Tbl.find m.mem.regions x.region with
      | none => m0
      | some g =>
        let x0 := { x with sealEncode := false }
        match if g.packed then m0.packInT0 k x0 g else (m0, false) with
        | (m1, true) => m1
        | (m1, false) =>
          let m2 := if g.packed then m1 else (let p := m1.parkImage k x0 g g.durable (m.moveMaster x0.region); if p.2.2 then p.1.countEncoded k x0 else p.1)
          let c := m1.readAll x0
          let e := g.encode c.1 (tilePoison c.2)
          let img := Mem.pack 0 e.2.2
          let frame := if e.1 = .zero then [] else Mem.pack 0 ((List.range 32).flatMap (fun t => (fritDecode img t).getD (List.replicate 2048 0)))
          let bad := if e.1 = .zero then [] else (List.range 1024).filter (fun l => (tilePoison c.2).getD (l / 32) false)
          m2.setRec k (fun x => { x with img := frame, poison := bad })

/-- SEAL_ENCODE_COMPLETE (R211): the reads and writes that waited for the encode go on. -/
def execSealEncodeComplete (record : Nat) (read : Media) (s : State) : Out :=
  s.act (fun m => match Tbl.find m.mem.recs record with
    | some x => if x.sealEncode ∧ x.state ≠ .movingDown then (((m.mediaRead record x 0 true read .encode).sealEncodeDone record).retryWrites).serveReads .encode else m
    | none => m)

/-! ### CHECKPOINT and durability (R214, R215) -/

/-- The records of a version. -/
def Mod.recsOf (m : Mod) (r v : Nat) : List Nat := (m.vmap r (.sealed v)).map (fun p => p.2)

/-- One pane of a version under CHECKPOINT gets its image (R214): its seal encode is done, and a new image counts for the commands that encode it. -/
def Mod.checkpointPane (g : Region) (a : Mod × Bool) (k : Nat) : Mod × Bool :=
  let x := (a.1.sealEncodeDone k).imageFor k g
  (if x.2.2 then (Tbl.find x.1.mem.recs k).elim x.1 (fun y => x.1.countEncoded k y) else x.1, a.2 && x.2.1)

/-- CHECKPOINT_ENCODE_COMPLETE: every pane of the version homed in T0 has its image (R214). Outside DURABLE regions the command
completes; in a DURABLE region it completes after CHECKPOINT_DURABLE. Panes under a seal encode are encoded with it. While a
slot is missing in a module that has a lower tier, it has not completed (R623). -/
def execCheckpointEncodeComplete (slot : SlotNo) (s : State) : Out :=
  s.act (fun m => match Tbl.find m.ctxs slot.toNat with
    | none => m
    | some c =>
      match c.work with
      | .checkpoint r v n =>
        (match Tbl.find m.mem.regions r with
          | none => m
          | some g =>
            let a := (m.recsOf r v).foldl (Mod.checkpointPane g) (m, true)
            if !m.onlyT0 ∧ !a.2 then m else
            let m1 := a.1.retryWrites.serveReads .encode
            let total := (Tbl.find m1.ctxs slot.toNat).elim n (fun c => match c.work with | .checkpoint _ _ n => n | _ => n)
            let ver := Tbl.find g.vers v
            if !g.durable ∨ ver.elim true (fun x => x.durableDone) then m1.finish slot.toNat .ok 0 (v + total * 2 ^ 32) else m1)
      | _ => m)

/-- Move a pane homed in T1 to T2 without decoding it (R161, R215). -/
def Mod.t1ToT2 (m : Mod) (k : Nat) (x : PaneRec) : Mod × Bool :=
  if x.tier ≠ .t1 ∨ x.state = .poisoned then (m, true)
  else if x.parked.isSome then (x.parked.elim m (fun p => m.evictedToSlot k x p), true)
  else if x.form = .zero then (m.setRec k (fun x => { x with tier := .t2 }), true)
  else
    match m.lowAlloc .t2 x.sectors (m.mem.recs.length + 1) with
    | (some q, m1) =>
      ((((m1.countSource x 0x3002).setRec k (fun x => { x with tier := .t2, loc := q.loc, die := q.die })).storeImage k q 0x3002).countWalker 0x0041 k x, true)
    | (none, m1) => (m1, false)

/-- A record as its journalled version map restores it: with its T2 image, in the ZERO form, or POISONED without storage (R216). -/
def PaneRec.restored (x : PaneRec) : PaneRec :=
  let y := { x.settled with state := PState.stable, counter := 0, poison := [], parked := none, old := none, oldParks := false, wish := none, promo := 0,
                            lastWrite := 0, elasticHeld := false, sealEncode := false, unpacking := none }
  let lost := { y with state := .poisoned, tier := .t2, form := .zero, loc := 0, sectors := 0, die := 0, img := [] }
  if x.state = .poisoned then lost
  else if x.form = .zero ∨ (x.form = .raw ∧ x.img = [] ∧ x.poison = []) then { y with tier := .t2, form := .zero, loc := 0, sectors := 0, img := [] }
  else if x.tier = .t2 then y
  else
    match x.parked with
    | some p => if p.place.tier = .t2 then { y with tier := .t2, form := p.form, gen := p.gen, loc := p.place.loc, sectors := p.place.sectors, die := p.place.die, img := p.img }
                else lost
    | none => lost

/-- A DURABLE region as it is restored: the versions whose CHECKPOINT_DURABLE has been raised, none with VERSIONING OFF, and as head the
newest that was published (R216). -/
def Region.restored (g : Region) : Region :=
  let empty : Ver := { map := [], checkpoint := false, orphan := false, durableDone := false, published := true }
  let vs := if g.versioning then g.vers.filter (fun v => v.2.durableDone) else []
  let head := (vs.filter (fun v => v.2.published)).foldl (fun h v => max h v.1) 0
  { g with vers := if Tbl.has vs head then vs else Tbl.put vs head empty, head := head, persisting := [], sharers := [], versionSpaceExceeded := false,
           dropsLogged := false, exhaustedFlag := false, mirror := none, plainWriteLogged := [], lastScrub := [],
           tables := { g.tables with sampled := 0, histogram := [], storeWait := false } }

/-- The generations of a restored region: those journalled whose images its restored records hold (R169). Where the current one is not among
them the region has none (DESIGN CHOICE). -/
def Region.restoredTables (g : Region) (r : Nat) (journalled : List (Nat × Nat)) (recs : Tbl PaneRec) : Region :=
  let used := fun (n : Nat) => journalled.contains (r, n) &&
    recs.any (fun x => x.2.region = r && x.2.form == .lehr && !lehrNoTable x.2.img && lehrGen x.2.img = n)
  { g with tables := { g.tables with gens := g.tables.gens.filter (fun t => used t.1), current := g.tables.current.filter used } }

/-- What the journal stands for once it has committed every entry made so far (R194, R216, R423). -/
def Mod.durable (m : Mod) : Saved :=
  let regs0 := Tbl.mapV (m.mem.regions.filter (fun g => g.2.durable)) (fun _ g => g.restored)
  let named := regs0.flatMap (fun g => g.2.vers.flatMap (fun v => v.2.map.map (fun p => p.2)))
  let recs := Tbl.mapV (m.mem.recs.filter (fun x => named.contains x.1)) (fun _ x => x.restored)
  let regs := Tbl.mapV regs0 (fun r g => g.restoredTables r m.t2.tableJournal recs)
  { parts := Tbl.mapV (m.mem.parts.filter (fun p => p.2.state = .active)) (fun _ p => Part.init p.name p.quota p.leaseS)
    lds := Tbl.mapV (m.mem.lds.filter (fun b => (Tbl.find m.mem.parts b.2.partition).elim false (fun p => p.state = .active))) (fun _ b =>
      { partition := b.partition, lease := .idle, periodS := (Tbl.find m.mem.parts b.partition).elim 30 (fun p => p.leaseS), renewals := 0, since := 0, cleanupLogged := false })
    regions := regs
    recs := recs
    extents := Tbl.mapV (m.mem.extents.filter (fun e => e.2.region.elim false (fun r => Tbl.has regs r.1))) (fun _ e =>
      { e with pendingLds := [], heldLds := [], inCullet := false, kept := e.region.bind (fun r => (Tbl.find regs r.1).map (fun g => g.owner)) })
    serial := m.mem.serial / 2 ^ 20 * 2 ^ 20, wearSpent := m.t2.wearSpent, failed := m.boot.readiness = .failedReplace
    policy := (m.test.enabled, m.test.roundHours, m.test.deferMinutes, m.test.drainPeriodS, m.test.kernelMask) }

/-- A commit record covers every entry made so far (R423); its programs on two channels, and those of the entries and table images before
it, count as wear by a free amount (R425). -/
def Mod.commitJournal (m : Mod) : Mod :=
  let a := m.choose 32
  let b := a.2.choose 32
  let m1 := (b.2.chargeFree a.1).chargeFree b.1
  { m1 with t2 := { m1.t2 with journalPending := 0, saved := m1.durable } }

/-- Images of these records in the write buffer whose programs have not completed (R418). -/
def Mod.unprogrammed (m : Mod) (ks : List Nat) : Bool := m.t2.writeBuf.any (fun w => ks.contains w.record)

/-- The effect of the row of `execDurablePersistenceComplete` where it acts. -/
def Mod.persist (m : Mod) (region version : Nat) (g : Region) (ks : List Nat) : Mod :=
  let go := fun (a : Mod × Bool × Nat) (k : Nat) =>
    match Tbl.find a.1.mem.recs k with
    | none => a
    | some x =>
      let y := a.1.t1ToT2 k x
      let z := y.1.imageFor k g
      (z.1, a.2.1 && y.2 && z.2.1, a.2.2 + b2n z.2.2)
  let a := ks.foldl go (m, true, 0)
  let need := sumOf (ks.map (fun k => match Tbl.find m.mem.recs k with
    | some x => if x.tier = .t0 ∧ x.parked = none ∧ x.form ≠ .zero ∧ x.state ≠ .poisoned then g.worst * 256 else 0
    | none => 0))
  if g.elastic ∧ m.elasticFree < need then m.exhaust region g
  else if !a.2.1 then m
  else
    -- the images encoded for a CHECKPOINT count in its completion
    let mc := a.1.each a.1.ctxs (fun m c => match c.2.work with
      | .checkpoint r v n => if r = region ∧ v = version then m.setCtx c.1 (fun c => { c with work := .checkpoint r v (n + a.2.2) }) else m
      | _ => m)
    if mc.unprogrammed ks then mc else
    let m1 := mc.setRegion region (fun g => { g with
      vers := Tbl.upd g.vers version (fun x => { x with durableDone := true }), persisting := g.persisting.filter (fun x => x != version),
      newestDurable := match g.newestDurable with | some n => some (max n version) | none => some version })
    let m2 := m1.commitJournal.raise 0x0401 g.owner (region + version * 2 ^ 32) 0 0
    m2.each m2.ctxs (fun m c => match c.2.work with
      | .checkpoint r v n => if r = region ∧ v = version ∧ c.2.state ≠ .free then m.finish c.1 .ok 0 (v + n * 2 ^ 32) else m
      | _ => m)

/-- DURABLE_PERSISTENCE_COMPLETE: the four steps of R215; it waits until the version's images have been programmed (R418). While a pane of the
version is in a moving state or under its seal encode, or T2 cannot take an image, it has not completed; an ELASTIC region also waits for elastic
free space (R615). While the module drains, persistence that needs a faulted unit stops (R513). -/
def execDurablePersistenceComplete (region : Nat) (version : Nat) (s : State) : Out :=
  s.act (fun m => match Tbl.find m.mem.regions region with
    | none => m
    | some g =>
      let ks := m.recsOf region version
      let busy := ks.any (fun k => match Tbl.find m.mem.recs k with
        | some x => x.state == PState.movingUp || x.state == PState.movingDown || x.sealEncode
        | none => false)
      let lost := m.needsFaulted (ks.map walkerOf)
      if !g.persisting.contains version ∨ busy ∨ !m.t2Usable then m
      else if lost.1 then lost.2
      else lost.2.persist region version g ks)

/-! ### The rows of the moves (R108, R110, R112, R115 to R119, R134, R205) -/

/-- The selector evicts until 2% of the T0 pool is free and no partition is above its maximum share (R115). -/
def Mod.selectVictims (m : Mod) (low : Bool) : Nat → Mod
  | 0 => m
  | n + 1 =>
    let need := low && decide ((m.t0Free + m.t0Leaving none) * 100 ≤ m.t0Pool * 2)
    match m.nextVictim (!need) with
    | some k =>
      let m1 := m.startEvict k
      -- a victim with no destination ends the run
      if (Tbl.find m1.mem.recs k).elim true (fun x => x.state != .movingDown) then m1 else m1.selectVictims low n
    | none => m

/-- Demote the T1 panes with the lowest counters to T2 until 4% of the T1 data area is free (R116). An image is copied (R161), or an entry
written where the pane has its image in T2. -/
def Mod.demoteT1 (m : Mod) : Nat → Mod
  | 0 => m
  | n + 1 =>
    let leaving := sumOf (m.mem.recs.map (fun x => if x.2.tier = .t1 ∧ x.2.state = .movingDown then x.2.sectors else 0))
    if m.t1Total * 4 ≤ (m.t1Free + leaving) * 100 then m
    else
      let c := m.mem.recs.filter (fun x => x.2.tier == Tier.t1 && x.2.state == PState.stable && x.2.old.isNone && x.2.form != PForm.zero)
      match bestBy (fun (a b : Nat × PaneRec) => decide (a.2.counter < b.2.counter)) c with
      | none => m
      | some (k, x) =>
        match (match x.parked with | some p => (some p.place, m) | none => m.turnAlloc .t2 (max x.sectors 257)) with
        | (some p, m1) => (m1.setRec k (fun x => { x with state := .movingDown, dest := some p })).demoteT1 n
        | (none, m1) => m1

/-- VICTIM_SELECTOR_RUN (R115, R116): it runs when free T0 pool space is below 1% or a partition is above its maximum share; the
T1 demotion runs when T1 data space is below 2% free. -/
def execVictimSelectorRun (s : State) : Out :=
  s.act (fun m =>
    let low := decide (m.t0Free * 100 < m.t0Pool)
    let m1 := m.selectVictims low (m.mem.recs.length + 1)
    if m1.t1Usable ∧ m1.t1Free * 50 < m1.t1Total ∧ m1.t2Usable then m1.demoteT1 (m1.mem.recs.length + 1) else m1)

/-- PROMOTION_COMMIT (R118). -/
def execPromotionCommit (record : Nat) (read : Media) (s : State) : Out := s.act (fun m => m.promoteCommit record read)

/-- EVICTION_COMMIT (R119). -/
def execEvictionCommit (record : Nat) (read : Media) (s : State) : Out := s.act (fun m => (m.evictCommit record read).serveReads .encode)

/-- OLD_LOCATION_FREED (R118 and R119, step 4; R121). -/
def execOldLocationFreed (record : Nat) (s : State) : Out := s.act (fun m => (m.freeOld record).spaceFreed)

/-- UNPACK_COMMIT (R108). -/
def execUnpackCommit (record : Nat) (read : Media) (s : State) : Out := s.act (fun m => m.unpackCommit record read)

/-- REPACK (R110): its start, and its commit. -/
def execRepack (record : Nat) (read : Media) (s : State) : Out := s.act (fun m => m.repack record read)

/-- COPY_ON_WRITE_COMMIT of the copy at an index of the copies in progress (R205). -/
def execCopyOnWriteCommit (index : Nat) (read : Media) (s : State) : Out := s.act (fun m => m.cowCommit index read)

/-- EXHAUST_HOLD_EXPIRY of the held write at an index (R134). -/
def execExhaustHoldExpiry (index : Nat) (s : State) : Out := s.act (fun m => m.dropHeld index)

/-- PIN_LOW_EVICTION: a pane of a PIN_LOW region in T0 is evicted again when its COUNTER has fallen to EVICT_BELOW, or 100 ms
after its last write (R117). -/
def execPinLowEviction (record : Nat) (s : State) : Out :=
  s.act (fun m => match Tbl.find m.mem.recs record with
    | none => m
    | some x =>
      match Tbl.find m.mem.regions x.region with
      | some g => if m.residency g = .pinLow ∧ (x.counter ≤ g.evictBelow ∨ x.lastWrite + 100000000 ≤ m.localTime) then m.startEvict record else m
      | none => m)

end Sys2Proof.Machine
end

