-- ==== Sys2Proof/Machine/Regions.lean ====
section
/-! DEFINITION. The commands of partitions, leases, regions and residency that close nothing (spec/06_extents_sharing_versions.md
R184 to R188, R217, R218; spec/03_tiers_and_panes.md R94 to R100, R126 to R128, R136), the mirrors and poison queries of
spec/15_integrity_poison.md, and the tables of spec/05_compression_engines.md R165 to R175. -/
namespace Sys2Proof.Machine

/-! ### Partitions (R184, R186, R188) -/

/-- PARTITION_CREATE (R184). -/
def cmdPartitionCreate : Cmd := fun r m =>
  let p := slotPart r.slot
  if 63 < p ∨ Tbl.has m.mem.parts p then fail m .badArgument 0x06
  else if 64512 < r.arg 8 4 then badArg m 8
  else if 3600 < r.arg 0xC 2 then badArg m 0xC
  else if r.arg 0xE 2 ≠ 0 then badArg m 0xE
  else if 64512 < sumOf (m.mem.parts.map (fun x => x.2.quota)) + r.arg 8 4 then fail m .noResource
  else
    let x := Part.init (r.arg 0 8) (r.arg 8 4) (if r.arg 0xC 2 = 0 then 30 else r.arg 0xC 2)
    done (m.setMem (fun e => { e with parts := Tbl.put e.parts p x }))

/-- The LD that PORT and LD name at ARGS offset 0. -/
def Req.ldArg (r : Req) : Nat := r.arg 0 1 * 16 + r.arg 1 1

/-- PARTITION_BIND_LD (R186). -/
def cmdPartitionBindLd : Cmd := fun r m =>
  if 3 < r.arg 0 1 then badArg m 0
  else if 15 < r.arg 1 1 then badArg m 1
  else
    let l := r.ldArg
    if Tbl.has m.mem.lds l then badArg m 1
    else if m.mem.lds.any (fun b => b.2.partition = r.partD && b.1 / 16 = l / 16) then badArg m 0
    else
      let b : LdBind :=
        { partition := r.partD, lease := .idle, periodS := (Tbl.find m.mem.parts r.partD).elim 30 (fun p => p.leaseS), renewals := 0,
          since := m.localTime, cleanupLogged := false }
      done (m.setMem (fun e => { e with lds := Tbl.put e.lds l b }))

/-- An LD holds or has pending some extent. -/
def Mod.holdsExtent (m : Mod) (l : Nat) : Bool := m.mem.extents.any (fun e => e.2.heldLds.contains l)

/-- PARTITION_UNBIND_LD (R186): an LD that is not bound to the target partition is left as it is, with OK, since R186 names no error for it
(DEDUCED). -/
def cmdPartitionUnbindLd : Cmd := fun r m =>
  if 3 < r.arg 0 1 then badArg m 0
  else if 15 < r.arg 1 1 then badArg m 1
  else
    let l := r.ldArg
    if m.holdsExtent l ∨ 0 < m.ctxsHeld l then fail m .busy
    else if m.ldPart l = some r.partD then done (m.setMem (fun e => { e with lds := Tbl.del e.lds l }))
    else done m

/-- PARTITION_QUERY (R188). -/
def cmdPartitionQuery : Cmd := noArgs fun r m =>
  let p := r.partD
  let part := Tbl.find m.mem.parts p
  let lds := (List.range 4).map (fun h => match m.mem.lds.find? (fun b => b.2.partition = p && b.1 / 16 = h) with | some b => b.1 % 16 | none => 0xFF)
  let st := match part with | some x => (if x.state = .active then 1 else 2) | none => 0
  done m (le 1 st ++ lds.flatMap (le 1) ++ le 3 0 ++ le 4 (part.elim 0 (fun x => x.quota)) ++ le 4 (m.ctxsUsed p) ++
    le 4 (m.mem.extents.filter (fun e => e.2.heldLds.any (fun l => m.ldPart l = some p))).length ++
    le 4 (m.mem.extents.filter (fun e => e.2.kept = some p && e.2.heldLds = [])).length ++
    le 2 (m.mem.regions.filter (fun g => g.2.owner = p)).length ++ le 2 (part.elim 0 (fun x => x.leaseS)))

/-! ### Leases (R217, R218) -/

/-- LEASE_SET and LEASE_QUERY: the LD that PORT and LD name; PORT 0xFF is the requester's own. It must be bound to the target
partition. -/
def Mod.leaseLd (m : Mod) (r : Req) : Nat ⊕ Nat :=
  let l := if r.arg 0 1 = 0xFF then r.ld else if 3 < r.arg 0 1 then none else some r.ldArg
  match l with
  | none => .inl 0
  | some l =>
    if r.arg 0 1 ≠ 0xFF ∧ 15 < r.arg 1 1 then .inl 1
    else if m.ldPart l = some r.partD then .inr l else .inl (if r.arg 0 1 = 0xFF then 0 else 1)

/-- The nanoseconds of a lease period. -/
def LdBind.ns (b : LdBind) : Nat := b.periodS * 1000000000

/-- A lease whose PERIOD has passed since the last renewal enters GRACE, with LEASE_GRACE of the LD's status (R217, R454). -/
def Mod.enterGrace (m : Mod) (l : Nat) : Mod :=
  match Tbl.find m.mem.lds l with
  | some b =>
    if b.lease = .live then
      (m.setMem (fun e => { e with lds := Tbl.put e.lds l { b with lease := .grace, since := m.localTime } })).setIntx l 1 3
    else m
  | none => m

/-- LEASE_SET (R218): the new period applies at once from the last renewal. -/
def cmdLeaseSet : Cmd := fun r m =>
  match m.leaseLd r with
  | .inl o => badArg m o
  | .inr l =>
    if 3600 < r.arg 2 2 then badArg m 2
    else
      let per := if r.arg 2 2 = 0 then (Tbl.find m.mem.parts r.partD).elim 30 (fun p => p.leaseS) else r.arg 2 2
      let m1 := m.setMem (fun e => { e with lds := Tbl.upd e.lds l (fun b => { b with periodS := per }) })
      match Tbl.find m1.mem.lds l with
      | some b => done (if b.lease = .live ∧ b.since + b.ns ≤ m1.localTime then m1.enterGrace l else m1)
      | none => done m1

def LeaseState.code : LeaseState → Nat
  | .idle => 0 | .live => 1 | .grace => 2 | .cleanup => 3

/-- LEASE_QUERY (R218). The time to the next state change in CLEANUP is not stated: a free value. -/
def cmdLeaseQuery : Cmd := fun r m =>
  match m.leaseLd r with
  | .inl o => badArg m o
  | .inr l =>
    match Tbl.find m.mem.lds l with
    | none => badArg m 1
    | some b =>
      let fv := m.freeVal
      let left := match b.lease with
        | .idle => 0xFFFFFFFF
        | .cleanup => fv.1 % 2 ^ 32
        | _ => (b.since + b.ns - m.localTime) / 1000000
      done (if b.lease = .cleanup then fv.2 else m)
        (le 1 b.lease.code ++ le 1 0 ++ le 2 b.periodS ++ le 4 left ++ le 8 b.renewals ++ le 4 (m.ctxsHeld l))

/-- A renewal: a write of 1 to LSE_RENEW; no effect in IDLE or CLEANUP (R217). -/
def Mod.renew (m : Mod) (l : Nat) : Mod :=
  m.setMem (fun e => { e with lds := Tbl.upd e.lds l (fun b =>
    if b.lease = .live ∨ b.lease = .grace then { b with lease := .live, since := m.localTime, renewals := b.renewals + 1 } else b) })

/-- LSE_RENEW (R217, R638). -/
def execLseRenew (ld : LdId) (s : State) : Out := s.act (fun m => m.viaBar2 (.ld ld) (fun m => m.renew ld.toNat))

/-- LEASE_GRACE: PERIOD has passed since the last renewal of the LD (R217). -/
def execLeaseGrace (ld : LdId) (s : State) : Out := s.act (fun m => m.enterGrace ld.toNat)

/-! ### Owning a region (R662) -/

/-- A region that the target partition owns: otherwise NOT_PERMITTED with 0x0301 for a sharer, and BAD_ARGUMENT for an unknown
region. `off` is the ARGS offset of REGION_ID. -/
def Mod.ownRegion (m : Mod) (r : Req) (id off : Nat) : Region ⊕ Reply :=
  match Tbl.find m.mem.regions id with
  | some g => if g.owner = r.partD then .inl g else if m.mayReach r.partD id then .inr { status := .notPermitted, detail := 0x0301 } else .inr { status := .badArgument, detail := 0x10 + off }
  | none => .inr { status := .badArgument, detail := 0x10 + off }

/-- A region that the target partition owns or shares. -/
def Mod.reachRegion (m : Mod) (r : Req) (id off : Nat) : Region ⊕ Reply :=
  match Tbl.find m.mem.regions id with
  | some g => if m.mayReach r.partD id then .inl g else .inr { status := .badArgument, detail := 0x10 + off }
  | none => .inr { status := .badArgument, detail := 0x10 + off }

/-! ### REGION_CREATE, REGION_SET_ATTR, REGION_QUERY (R94 to R96, R100) -/

def RegForm.ofCode (n : Nat) : Option RegForm := if n = 0 then some .raw else if n = 1 then some .lehr else if n = 2 then some .frit else none
def RegForm.code : RegForm → Nat
  | .raw => 0 | .lehr => 1 | .frit => 2
def Residency.ofCode (n : Nat) : Residency := if n = 1 then .pinT0 else if n = 2 then .pinLow else .float
def Residency.code : Residency → Nat
  | .float => 0 | .pinT0 => 1 | .pinLow => 2

/-- PROMOTE_AT and EVICT_BELOW after the selections for 0 and 0xFF (R94). -/
def promoteSel (v : Nat) : Nat := if v = 0 then 8 else v
def evictSel (v : Nat) : Nat := if v = 0xFF then 2 else v

/-- The first field of REGION_CREATE found at fault, in the order of the table (R94, R95). -/
def Mod.createFault (m : Mod) (r : Req) : Option Nat :=
  let a := r.arg
  let form := RegForm.ofCode (a 8 1)
  let dt := DType.ofCode (a 9 1)
  let pair := match form, dt with
    | some f, some d => some (f, d)
    | _, _ => none
  let checks : List (Bool × Nat) :=
    [(form.isNone, 8), (dt.isNone, 9), (match pair with | some (.frit, d) => d != .bf16 && d != .fp16 && d != .fp32 | _ => false, 9),
     (decide (1 < a 0xA 1), 0xA), (decide (2 < a 0xB 1), 0xB), (a 0xB 1 == 2 && m.onlyT0, 0xB), (decide (1 < a 0xC 1), 0xC),
     (decide (1 < a 0xD 1), 0xD), (decide (1 < a 0xE 1), 0xE), (a 0xE 1 == 1 && !m.t2Usable, 0xE), (a 0xF 1 != 2 && a 0xF 1 != 3, 0xF),
     (decide (1 < a 0x10 1), 0x10), (decide (3 < a 0x11 1), 0x11),
     (a 0x10 1 == 0 && (decide (a 0x12 2 < 1000) || (match pair with | some (f, d) => decide (maxFloor f d < a 0x12 2) | none => false)), 0x12),
     (decide (6300 < a 0x14 2) || (a 0xD 1 == 0 && a 0x14 2 != 0), 0x14), (decide (4095 < a 0x16 2) && a 0x16 2 != 0xFFFF, 0x16),
     (decide (promoteSel (a 0x18 1) ≤ evictSel (a 0x19 1)), 0x19), (decide (10000 < a 0x1A 2) && a 0x1A 2 != 0xFFFF, 0x1A),
     (a 0x1C 4 != 0 && (decide (a 0x1C 4 < 1000) || decide (10000000 < a 0x1C 4)), 0x1C), (decide (48 < a 0x20 1), 0x20),
     (a 0x21 15 != 0, 0x21)]
  (checks.find? (fun c => c.1)).map (fun c => c.2)

/-- The region that REGION_CREATE makes (R94, R202, R226). -/
def newRegion (r : Req) (id : Nat) : Region :=
  let a := r.arg
  { owner := r.partD, name := a 0 8, form := (RegForm.ofCode (a 8 1)).getD .raw, dtype := (DType.ofCode (a 9 1)).getD .opaque, packed := a 0xA 1 = 1,
    residency := Residency.ofCode (a 0xB 1), shared := a 0xC 1 = 1, versioning := a 0xD 1 = 1, durable := a 0xE 1 = 1, qos := a 0xF 1,
    elastic := a 0x10 1 = 1, orphanKeep := bit (a 0x11 1) 0, striped := bit (a 0x11 1) 1, floor := a 0x12 2, verReserve := a 0x14 2,
    rotation := if a 0x16 2 = 0xFFFF then id * 1171 % 4096 else a 0x16 2, promoteAt := promoteSel (a 0x18 1), evictBelow := evictSel (a 0x19 1),
    exhaustHoldMs := if a 0x1A 2 = 0xFFFF then 50 else a 0x1A 2, decayUs := if a 0x1C 4 = 0 then 100000 else a 0x1C 4, expFloor := a 0x20 1,
    ordinals := [], nextOrdinal := 0, sharers := [], versionSpaceExceeded := false, dropsLogged := false, exhaustedFlag := false, head := 0,
    nextVersion := 1, vers := [(0, { map := [], checkpoint := false, orphan := false, durableDone := false, published := true })],
    newestDurable := none, persisting := [], tables := { gens := [], current := none, sampled := 0, histogram := [], storeWait := false, slowest := 0 },
    mirror := none, plainWriteLogged := [], lastScrub := [] }

/-- REGION_CREATE (R94, R95, R598). -/
def cmdRegionCreate : Cmd := fun r m =>
  match m.createFault r with
  | some o => badArg m o
  | none =>
    if r.arg 0xE 1 = 1 ∧ m.boot.lifecycle ≠ 2 then fail m .notPermitted 0x0F07
    else
      match m.chooseFrom 16384 (fun n => !Tbl.has m.mem.regions n) with
      | (none, m1) => fail m1 .noResource
      | (some id, m1) => done (m1.setMem (fun e => { e with regions := Tbl.put e.regions id (newRegion r id) })) (le 2 id)

/-- REGION_SET_ATTR (R96). -/
def cmdRegionSetAttr : Cmd := fun r m =>
  let id := r.arg 0 2
  let v := r.arg 4 4
  match m.ownRegion r id 0 with
  | .inr rep => (m, rep)
  | .inl g =>
    let set := fun (ok : Bool) (f : Region → Region) => if ok then done (m.setRegion id f) else badArg m 4
    if r.arg 3 1 ≠ 0 then badArg m 3
    else
      match r.arg 2 1 with
      | 0x0A => set (decide (v ≤ 1)) (fun g => { g with packed := v = 1 })
      | 0x0F => set (v == 2 || v == 3) (fun g => { g with qos := v })
      | 0x11 => set (decide (v ≤ 1)) (fun g => { g with orphanKeep := v = 1 })
      | 0x18 => set (decide (v ≤ 255) && decide (g.evictBelow < promoteSel v)) (fun g => { g with promoteAt := promoteSel v })
      | 0x19 => set (decide (v ≤ 255) && decide (evictSel v < g.promoteAt)) (fun g => { g with evictBelow := evictSel v })
      | 0x1A => set (decide (v ≤ 10000) || v == 0xFFFF) (fun g => { g with exhaustHoldMs := if v = 0xFFFF then 50 else v })
      | 0x1C => set (v == 0 || (decide (1000 ≤ v) && decide (v ≤ 10000000))) (fun g => { g with decayUs := if v = 0 then 100000 else v })
      | 0x20 => set (decide (v ≤ 48)) (fun g => { g with expFloor := v })
      | _ => badArg m 2

/-- The 40 B of REGION_CREATE arguments in force (R100). -/
def Region.argBytes (g : Region) : List Byte :=
  le 8 g.name ++ le 1 g.form.code ++ le 1 g.dtype.code ++ le 1 (b2n g.packed) ++ le 1 g.residency.code ++ le 1 (b2n g.shared) ++
    le 1 (b2n g.versioning) ++ le 1 (b2n g.durable) ++ le 1 g.qos ++ le 1 (b2n g.elastic) ++ le 1 (b2n g.orphanKeep + 2 * b2n g.striped) ++
    le 2 g.floor ++ le 2 g.verReserve ++ le 2 g.rotation ++ le 1 g.promoteAt ++ le 1 g.evictBelow ++ le 2 g.exhaustHoldMs ++ le 4 g.decayUs ++
    le 1 g.expFloor ++ le 7 0

/-- The records that a version names, one for each region pane index it names. -/
def Mod.panesOf (m : Mod) (r : Nat) (sel : VerSel) : List PaneRec := (m.vmap r sel).filterMap (fun p => Tbl.find m.mem.recs p.2)

/-- Stored bytes of a region in all tiers, parked images included (R100). -/
def Mod.storedBytes (m : Mod) (r : Nat) : Nat :=
  sumOf (m.mem.recs.map (fun x => if x.2.region = r then
    (if x.2.form = .zero ∨ x.2.tier = .unbacked ∨ (x.2.state = .poisoned ∧ x.2.sectors = 0) then 0 else x.2.sectors * 256) +
      (match x.2.parked with | some p => p.place.sectors * 256 | none => 0) else 0))

/-- REGION_QUERY (R100). -/
def cmdRegionQuery : Cmd := fun r m =>
  let id := r.arg 0 2
  match m.reachRegion r id 0 with
  | .inr rep => (m, rep)
  | .inl g =>
    let ps := (m.panesOf id .head).filter (fun x => (g.extentAt x.pane).isSome)
    let n := fun (t : Tier) => (ps.filter (fun x => x.tier == t)).length
    done m (g.argBytes ++ le 8 (n .t0) ++ le 8 (n .t1) ++ le 8 (n .t2) ++ le 8 (g.ordinals.length * 4096 - (n .t0 + n .t1 + n .t2)) ++
      le 8 (m.storedBytes id) ++ le 4 g.ordinals.length ++ le 4 (b2n g.versionSpaceExceeded + 2 * b2n g.dropsLogged + 4 * b2n g.exhaustedFlag))

/-! ### REGION_ADD_EXTENTS, CAPACITY_QUERY (R97, R133, R136, R194) -/

/-- Extent `e` lies in some window. -/
def Mod.inWindow (m : Mod) (e : Nat) : Bool :=
  m.ctxs.any (fun c => match c.2.window with | some w => decide (w.extent ≤ e) && decide (e < w.extent + w.count) | none => false)

/-- An extent that REGION_ADD_EXTENTS may take: held by an LD of the partition, in no region, in no window. -/
def Mod.assignable (m : Mod) (part e : Nat) : Bool :=
  match Tbl.find m.mem.extents e with
  | some x => x.heldLds.any (fun l => m.ldPart l = some part) && x.region.isNone && !m.inWindow e
  | none => false

/-- The first entry of a list of extents that may not be taken, repeated entries included. -/
def Mod.badExtent (m : Mod) (part : Nat) (es : List Nat) : Option Nat :=
  (List.range es.length).find? (fun i => !m.assignable part (es.getD i 0) || (es.take i).contains (es.getD i 0))

/-- Assign an extent to a region: the next ordinal, and a new serial with its key; the counter is journalled in steps of 2^20 (R92,
R194). -/
def Mod.assignExtent (m : Mod) (id e : Nat) : Mod :=
  let o := (Tbl.find m.mem.regions id).elim 0 (fun g => g.nextOrdinal)
  let ser := m.mem.serial + 1
  let m1 := m.setRegion id (fun g => { g with ordinals := Tbl.put g.ordinals o e, nextOrdinal := o + 1 })
  let m2 := m1.setMem (fun x => { x with serial := ser, extents := Tbl.upd x.extents e (fun y => { y with region := some (id, o), serial := ser }) })
  { m2 with t2 := { m2.t2 with keys := m2.t2.keys ++ [ser], saved := { m2.t2.saved with serial := max m2.t2.saved.serial (ser / 2 ^ 20 * 2 ^ 20) } } }

/-- The commit rules (R133) hold when `n` extents join the region. -/
def Mod.commitOk (m : Mod) (g : Region) (n : Nat) : Bool :=
  let pin := m.residency g == Residency.pinT0
  let add := g.chargeFor pin (g.ordinals.length + n) - g.chargeFor pin g.ordinals.length
  if pin then decide (m.chargesT0 g.owner + add ≤ m.t0Max g.owner) else decide (m.chargesL 64 + add ≤ m.capL)

/-- The extent numbers of REGION_ADD_EXTENTS and REGION_RELEASE_EXTENTS. -/
def Req.extents (r : Req) : List Nat := (List.range (r.arg 2 2)).map (fun i => r.arg (8 + 4 * i) 4)

/-- REGION_ADD_EXTENTS (R97). -/
def cmdRegionAddExtents : Cmd := fun r m =>
  let id := r.arg 0 2
  match m.ownRegion r id 0 with
  | .inr rep => (m, rep)
  | .inl g =>
    if r.arg 2 2 = 0 ∨ 58 < r.arg 2 2 then badArg m 2
    else if r.arg 4 4 ≠ 0 then badArg m 4
    else
      match m.badExtent r.partD r.extents with
      | some i => badArg m (8 + 4 * i)
      | none =>
        if !g.elastic ∧ !m.commitOk g r.extents.length then fail m .capacity
        else done (m.each r.extents (fun m e => m.assignExtent id e))

/-- CAPACITY_QUERY (R136): with no target partition, the partition's fields are 0 (R661). -/
def cmdCapacityQuery : Cmd := noArgs fun r m =>
  let p := r.partD
  let own := fun (n : Nat) => if r.part.isSome then n else 0
  done m ([m.capL, m.lowerRaw - m.capL, m.mapStore, m.t0Pool, own (m.chargesL p), own (m.chargesT0 p), own (m.elasticUsed p), m.elasticFree,
    m.parkedBytes, own ((Tbl.find m.mem.parts p).elim 0 (fun x => x.t0Min)), own (m.t0Max p)].flatMap (le 8))

/-! ### Ranges of panes (R127, R128, R471) -/

/-- A context that names a version of the region, as RESIDENCY_QUERY and its like take it: 0 is the head (R127). -/
def Mod.verArg (m : Mod) (r : Req) (id ctx : Nat) : Option VerSel :=
  if ctx = 0 then some .head
  else
    match m.liveCtx ctx r.partD with
    | some (n, c) => (match c.obj with
        | .view g v => if g = id then some (.sealed v) else none
        | .working g _ _ => if g = id then some (.working n) else none
        | _ => none)
    | none => none

/-- The pane indices of a range, cut at the end of the region: first, one past last (R127). -/
def Region.range (g : Region) (first count : Nat) : Option (Nat × Nat) :=
  if g.endPane ≤ first then none else some (first, if count = 0 then g.endPane else min (first + count) g.endPane)

/-- The fabric region that a REGION_ID of the target partition names (R330). -/
def Mod.fabArg (m : Mod) (r : Req) (id : Nat) : Option (Nat × FabRegion) :=
  if 0x8000 ≤ id ∧ id < 0xC000 then
    match Tbl.find m.fm.regions (id - 0x8000) with
    | some f => if f.partition = r.partD then some (id - 0x8000, f) else none
    | none => none
  else none

/-- The panes that a range command names: the local region and version that hold them here, their segments of local pane indices, and where
each of the first 25 indices of the range lies, none for one that names no pane here. -/
structure PaneRange where
  id : Nat
  region : Option Region
  sel : VerSel
  segs : List (Nat × Nat)
  first : List (Option Nat)

/-- A range of a local region. -/
def Region.paneRange (g : Region) (id : Nat) (sel : VerSel) (a b : Nat) : PaneRange :=
  { id := id, region := some g, sel := sel, segs := [(a, b)],
    first := (List.range (min 25 (b - a))).map (fun i => if (g.extentAt (a + i)).isSome then some (a + i) else none) }

/-- A range of a fabric region: the panes of it that are homed here, by unit (R329, R330). A pane that is homed on another module names no
pane here, like one in an ordinal gap (DESIGN CHOICE: log 77). -/
def Mod.fabRange (m : Mod) (f : FabRegion) (id : Nat) (sel : VerSel) (a b : Nat) : PaneRange :=
  let s := 2 ^ f.log2Stripe
  let mine := if f.accessor then [] else f.stripe.filter (fun e => e.2.home = m.fab.deviceId && decide (e.1 < f.units))
  { id := if f.accessor then id else f.localRegion, region := if f.accessor then none else Tbl.find m.mem.regions f.localRegion, sel := m.partSel sel,
    segs := (mine.map (fun e => (e.2.localUnit * s + (max a (e.1 * s) - e.1 * s), e.2.localUnit * s + (min b (e.1 * s + s) - e.1 * s)))).filter
      (fun x => decide (x.1 < x.2)),
    first := (List.range (min 25 (b - a))).map (fun i => (f.entry (a + i)).bind (fun e =>
      if e.home = m.fab.deviceId ∧ m.hasPane id (a + i) ∧ !f.accessor then some (f.localPane e (a + i)) else none)) }

/-- The arguments of PREFETCH and its like: REGION_ID 0x00, CONTEXT_ID 0x04, FIRST 0x08, COUNT 0x10. `fab`: the REGION_ID may name a fabric
region (R330); its end is that of its last unit. -/
def Mod.rangeArgs (m : Mod) (r : Req) (fab : Bool) : PaneRange ⊕ Reply :=
  let id := r.arg 0 2
  let bad := fun (o : Nat) => Sum.inr { status := .badArgument, detail := o }
  let f := if fab then m.fabArg r id else none
  match f, m.reachRegion r id 0 with
  | none, .inr rep => .inr rep
  | f, g =>
    if r.arg 3 1 ≠ 0 then bad 0x13
    else
      match m.verArg r id (r.arg 4 4) with
      | none => bad 0x14
      | some sel =>
        let first := r.arg 8 8
        let upto := fun (n : Nat) => if r.arg 0x10 8 = 0 then n else min (first + r.arg 0x10 8) n
        match f, g with
        | some (_, f), _ =>
          let n := f.units * 2 ^ f.log2Stripe
          if n ≤ first then bad 0x18 else .inl (m.fabRange f id sel first (upto n))
        | none, .inl g => (match g.range first (r.arg 0x10 8) with
          | none => bad 0x18
          | some (a, b) => .inl (g.paneRange id sel a b))
        | none, .inr rep => .inr rep

/-- The indices of a range that lie in no ordinal gap, by extent: pane indices below `b` from `a`. -/
def Region.livePanes (g : Region) (a b : Nat) : List Nat := (List.range (b - a)).filterMap (fun i => if (g.extentAt (a + i)).isSome then some (a + i) else none)

/-- The entries of a version in a range, with record numbers. -/
def Mod.recsIn (m : Mod) (id : Nat) (g : Region) (sel : VerSel) (a b : Nat) : List (Nat × Nat × PaneRec) :=
  (m.vmap id sel).filterMap (fun p =>
    if a ≤ p.1 ∧ p.1 < b ∧ (g.extentAt p.1).isSome then (Tbl.find m.mem.recs p.2).map (fun x => (p.1, p.2, x)) else none)

/-- Live pane indices of a range, counted by extent. -/
def Region.liveCount (g : Region) (a b : Nat) : Nat :=
  sumOf (g.ordinals.map (fun o => min b (o.1 * 4096 + 4096) - max a (o.1 * 4096)))

/-- The entries that a range names, with record numbers, and the number of its live pane indices. -/
def Mod.recsOfRange (m : Mod) (p : PaneRange) : List (Nat × Nat × PaneRec) :=
  match p.region with
  | some g => p.segs.flatMap (fun s => m.recsIn p.id g p.sel s.1 s.2)
  | none => []
def PaneRange.live (p : PaneRange) : Nat := p.region.elim 0 (fun g => sumOf (p.segs.map (fun s => g.liveCount s.1 s.2)))

/-- The 8 B pane map entry (R101, R102). -/
def PState.code : PState → Nat
  | .stable => 0 | .movingUp => 1 | .movingDown => 2 | .poisoned => 3
def Tier.code : Tier → Nat
  | .t0 => 0 | .t1 => 1 | .t2 => 2 | .unbacked => 3
def PForm.code : PForm → Nat
  | .raw => 0 | .lehr => 1 | .frit => 2 | .zero => 3

def PaneRec.entry (x : PaneRec) : Nat :=
  ((((x.state.code * 4 + x.tier.code) * 16 + x.form.code) * 16 + (if x.form = .lehr then x.gen else 0)) * 256 + x.counter) * 2 ^ 44 + x.loc

/-- The entry of a pane that no record backs (R101, R103). -/
def unbackedEntry : Nat := 3 * 2 ^ 60

/-- RESIDENCY_QUERY (R128). -/
def cmdResidencyQuery : Cmd := fun r m =>
  match m.rangeArgs r true with
  | .inr rep => (m, rep)
  | .inl p =>
    let rs := m.recsOfRange p
    let tier := fun (t : Tier) => (rs.filter (fun x => x.2.2.tier == t)).length
    let st := fun (p : PState) => (rs.filter (fun x => x.2.2.state == p)).length
    let live := p.live
    let first := p.first.map (fun i => match i with
      | none => 2 ^ 64 - 1
      | some i => (match m.recAt p.id p.sel i with | some (_, x) => x.entry | none => unbackedEntry))
    done m (([tier .t0, tier .t1, tier .t2, live - (tier .t0 + tier .t1 + tier .t2), live - rs.length + st .stable, st .movingUp, st .movingDown,
      st .poisoned].flatMap (le 4)) ++ first.flatMap (le 8))

/-- POISON_QUERY (R471). -/
def cmdPoisonQuery : Cmd := fun r m =>
  match m.rangeArgs r false with
  | .inr rep => (m, rep)
  | .inl p =>
    let rs := m.recsOfRange p
    let bad := rs.filter (fun x => x.2.2.state == PState.poisoned)
    done m (le 8 bad.length ++ le 8 (rs.filter (fun x => m.svc.heals.any (fun h => h.record = x.2.1))).length ++ ((bad.take 25).map (fun x => x.1)).flatMap (le 8))

/-! ### SET_RESIDENCY, PREFETCH, EVICT_HINT (R126, R127) -/

/-- T0 size that the backed panes of a region take in their T0 form (R126). -/
def Mod.t0SizeOf (m : Mod) (id : Nat) (g : Region) : Nat :=
  sumOf (m.mem.recs.map (fun x => if x.2.region = id ∧ x.2.tier ≠ .unbacked then (if x.2.tier = .t0 then x.2.bytesIn .t0 else g.t0Sectors x.2 * 256) else 0))

/-- A pane is placed as a residency mode requires (R117): poisoned panes stay where they are. -/
def Mod.placedFor (m : Mod) (mode : Residency) (x : PaneRec) : Bool :=
  x.state == PState.poisoned || x.tier == Tier.unbacked ||
  (match mode with
    | .float => true
    | .pinT0 => x.tier == Tier.t0 && x.state == PState.stable
    | .pinLow => x.state == PState.stable && (if m.t2Bytes != 0 then x.tier == Tier.t2 else x.tier == Tier.t1))

/-- Start the move that brings a STABLE pane to its place under a mode. -/
def Mod.moveFor (m : Mod) (mode : Residency) (k : Nat) (x : PaneRec) (g : Region) : Mod :=
  if m.placedFor mode x ∨ x.state ≠ .stable ∨ x.old ≠ none ∨ x.sealEncode then m
  else
    match mode with
    | .float => m
    | .pinT0 => (m.startPromote k false none).1
    | .pinLow =>
      if x.tier = .t0 then m.evictAs k true
      else
        (match (match x.parked with | some p => (some p.place, m) | none => m.downPlace true (max x.sectors g.worst)) with
          | (some p, m1) => m1.setRec k (fun x => { x with state := .movingDown, dest := some p })
          | (none, m1) => m1)

/-- Every pane of a region moves towards its place under a mode. -/
def Mod.moveAll (m : Mod) (id : Nat) (mode : Residency) : Mod :=
  match Tbl.find m.mem.regions id with
  | some g => m.each (m.mem.recs.filter (fun x => x.2.region = id)) (fun m x => m.moveFor mode x.1 x.2 g)
  | none => m

/-- SET_RESIDENCY (R126). -/
def cmdSetResidency : Cmd := fun r m =>
  let fab := (m.fabArg r (r.arg 0 2)).map (fun f => f.2)
  let id := fab.elim (r.arg 0 2) (fun f => f.localRegion)
  match (if fab.any (fun f => f.accessor) then .inr { status := .notPermitted, detail := 0x0301 } else m.ownRegion r id 0) with
  | .inr rep => (m, rep)
  | .inl g =>
    let mode := Residency.ofCode (r.arg 2 1)
    let size := if g.elastic then m.t0SizeOf id g else g.chargeFor true g.ordinals.length
    let t0 := m.chargesT0 r.partD - (if m.residency g = .pinT0 then m.charge g else 0)
    if 2 < r.arg 2 1 ∨ (mode = .pinLow ∧ m.onlyT0) then badArg m 2
    else if mode = .pinT0 ∧ m.t0Max r.partD < t0 + size then fail m .capacity
    else
      let a := m.accept r (.setResidency id (r.arg 2 1))
      if a.2.status = .accepted then (a.1.moveAll id mode, a.2) else a

end Sys2Proof.Machine
end

