-- ==== Sys2Proof/Machine/Residency.lean ====
section
/-! DEFINITION. PREFETCH and EVICT_HINT (spec/03_tiers_and_panes.md R127), and the tables of a region: the first build, REBUILD_TABLE,
TABLE_SWEEP, TABLE_QUERY and the freeing of generations (spec/05_compression_engines.md R165 to R175). -/
namespace Sys2Proof.Machine

/-! ### PREFETCH and EVICT_HINT (R127) -/

/-- The number under which a work keeps record `k` once the first part of what it does there is done. -/
def partDone (k : Nat) : Nat := k % 2 ^ 48 + 2 ^ 48

/-- PREFETCH starts the move of a pane to T1, as a copy of its image. -/
def Mod.prefetchT1 (m : Mod) (k : Nat) (x : PaneRec) : Mod × Bool :=
  match if x.form = .zero then (some { tier := .t1, loc := 0, sectors := 0 }, m) else m.lowAlloc .t1 x.sectors (m.mem.recs.length + 1) with
  | (some p, m1) => (m1.setRec k (fun x => { x with state := .movingUp, demand := true, dest := some p }), true)
  | (none, m1) => (m1, false)

/-- What one visit of PREFETCH to a record gives: the module, the number under which it is visited again, and whether it is skipped. A pane
that the share keeps out of T0 goes from T2 to T1 (R114), and is visited until that move has ended. -/
def Mod.prefetchOne (m : Mod) (target j : Nat) : Mod × Option Nat × Bool :=
  let k := j % 2 ^ 48
  match Tbl.find m.mem.recs k with
  | none => (m, none, false)
  | some x =>
    match Tbl.find m.mem.regions x.region with
    | none => (m, none, false)
    | some g =>
      let lifted := fun (m : Mod) => m.setRec k (fun x => { x with counter := max x.counter g.promoteAt })
      if x.state = .poisoned ∨ x.tier = .unbacked ∨ m.residency g = .pinLow then (m, none, true)
      else if x.state ≠ .stable ∨ x.old ≠ none ∨ x.sealEncode then (m, some j, false)
      else if j ≠ k then (m, none, false)
      else if x.tier = .t0 ∨ (target = 1 ∧ x.tier = .t1) then (lifted m, none, false)
      else if target = 0 then
        match m.roomInShare g.owner (g.t0Sectors x * 256) with
        | (m1, .now) => let p := (lifted m1).startPromote k false none; (if p.2 then p.1 else p.1.freeFrame, some k, false)
        | (m1, .later) => (m1, some k, false)
        | (m1, .never) =>
          if x.tier = .t2 ∧ m1.t1Usable then (let p := (lifted m1).prefetchT1 k x; (p.1, some (if p.2 then partDone k else k), false))
          else (lifted m1, none, true)
      else if m.t1Usable then (((lifted m).prefetchT1 k x).1, some k, false)
      else (lifted m, none, true)

/-- One visit of EVICT_HINT: COUNTER 0 and an eviction at once. -/
def Mod.hintOne (m : Mod) (k : Nat) : Mod × Option Nat × Bool :=
  match Tbl.find m.mem.recs k with
  | none => (m, none, false)
  | some x =>
    match Tbl.find m.mem.regions x.region with
    | none => (m, none, false)
    | some g =>
      if x.state = .poisoned ∨ m.residency g = .pinT0 then (m, none, true)
      else if x.state ≠ .stable ∨ x.old ≠ none ∨ x.sealEncode ∨ x.unpacking ≠ none then (m, some k, false)
      else
        let m1 := m.setRec k (fun x => { x with counter := 0 })
        if x.tier = .t0 then (m1.startEvict k, some k, false) else (m1, none, false)

/-- Visit every record that is left: those to visit again, and the panes skipped so far. -/
def Mod.visitAll (m : Mod) (one : Mod → Nat → Mod × Option Nat × Bool) (todo : List Nat) (skipped : Nat) : Mod × List Nat × Nat :=
  todo.foldl (fun a k => let r := one a.1 k; (r.1, a.2.1 ++ r.2.1.toList, a.2.2 + b2n r.2.2)) (m, [], skipped)

/-- PREFETCH (R127): always ACCEPTED. -/
def cmdPrefetch : Cmd := fun r m =>
  match m.rangeArgs r true with
  | .inr rep => (m, rep)
  | .inl p =>
    if 1 < r.arg 2 1 then badArg m 2
    else if r.arg 2 1 = 0 ∧ p.region.any (fun g => m.residency g = .pinLow) then fail m .notPermitted
    else
      let rs := m.recsOfRange p
      let v := m.visitAll (fun m k => m.prefetchOne (r.arg 2 1) k) (rs.map (fun x => x.2.1)) (p.live - rs.length)
      v.1.accept r (.prefetch p.id (r.arg 2 1) v.2.1 v.2.2)

/-- EVICT_HINT (R127): OK with the count when its work is done at once, otherwise ACCEPTED. Every pane of a PIN_T0 region is skipped, with
a record or without. -/
def cmdEvictHint : Cmd := fun r m =>
  match m.rangeArgs r true with
  | .inr rep => (m, rep)
  | .inl p =>
    let rs := m.recsOfRange p
    let v := m.visitAll Mod.hintOne (rs.map (fun x => x.2.1)) (if p.region.any (fun g => m.residency g = .pinT0) then p.live - rs.length else 0)
    if v.2.1 = [] then done v.1 (le 8 v.2.2) else v.1.accept r (.evictHint p.id v.2.1 v.2.2)

/-! ### Table generations (R165 to R170) -/

/-- A free slot of the table store, by free choice (R170). -/
def Mod.freeSlot (m : Mod) : Option Nat × Mod :=
  if 4096 ≤ m.mem.tableSlots.length then (none, m) else m.chooseFrom 4096 (fun n => !m.mem.tableSlots.contains n)

/-- The number of a new generation: the first after the current one, cyclically, that is not live (R166). -/
def Tables.nextGen (t : Tables) : Option Nat :=
  match t.current with
  | none => (List.range 16).find? (fun n => !Tbl.has t.gens n)
  | some c => ((List.range 16).map (fun i => (c + 1 + i) % 16)).find? (fun n => !Tbl.has t.gens n)

/-- Install a table image as a region's new current generation in a slot. -/
def Mod.installTable (m : Mod) (r slot : Nat) (lens : List (Nat × Nat)) : Mod :=
  let m1 := m.setMem (fun e => { e with tableSlots := if e.tableSlots.contains slot then e.tableSlots else e.tableSlots ++ [slot] })
  m1.setRegion r (fun g => match g.tables.nextGen with
    | some n => { g with tables := { g.tables with gens := Tbl.put g.tables.gens n { slot := slot, image := tableImage g.dtype n lens }, current := some n, histogram := [], storeWait := false } }
    | none => g)

/-- The first table of a region from its kept histogram; with no free slot the region waits, and TABLE_STORE_FULL is raised once
(R165, R170). -/
def Mod.firstTable (m : Mod) (r : Nat) : Mod :=
  match Tbl.find m.mem.regions r with
  | none => m
  | some g =>
    if g.form ≠ .lehr ∨ g.tables.current ≠ none ∨ g.tables.sampled < 64 then m
    else
      match m.freeSlot with
      | (some s, m1) => m1.installTable r s (buildLens g.dtype g.tables.histogram false)
      | (none, m1) =>
        if g.tables.storeWait then m1
        else
          ((m1.setRegion r (fun g => { g with tables := { g.tables with storeWait := true } })).setMem (fun e =>
            { e with tableWaiters := e.tableWaiters ++ [r] })).raise 0x0601 g.owner r 0 0

/-- A slot is invalid in every expander and returns to the store; the region that has waited longest takes it (R168, R170). -/
def Mod.returnSlot (m0 : Mod) (slot : Nat) : Mod :=
  let m := { m0 with cores := Tbl.mapV m0.cores (fun _ k => { k with tables := k.tables.filter (fun s => s != slot) }) }
  let m1 := m.setMem (fun e => { e with tableSlots := e.tableSlots.filter (fun s => s != slot), tableWaiters := e.tableWaiters.drop 1 })
  match m.mem.tableWaiters with
  | r :: _ => m1.firstTable r
  | [] => m1

/-- Images that carry a generation: homes in a stored form, POISONED ones among them, parked slots, and old locations still being read (R167). -/
def Mod.genImages (m : Mod) (r gen : Nat) (withOld : Bool) : Nat :=
  let uses := fun (f : PForm) (img : Mem) => f == PForm.lehr && !lehrNoTable img && lehrGen img = gen
  sumOf (m.mem.recs.map (fun x => if x.2.region ≠ r then 0 else
    b2n (uses x.2.form x.2.img) + (match x.2.parked with | some p => b2n (uses p.form p.img) | none => 0) +
    (match x.2.old with | some p => b2n (withOld && uses p.form p.img) | none => 0)))

/-- A loaded movement's windows include the region, and so hold every live generation (R167). -/
def Mod.movementHolds (m : Mod) (r : Nat) : Bool := m.mvs.any (fun v => v.2.bindings.any (fun b => m.reaches r b.2))

/-- Tiles of a generation in flight to a core (R167). -/
def Mod.genInFlight (m : Mod) (r : Nat) : Bool := m.cores.any (fun c => c.2.fetches.any (fun f => m.reaches r f.region))

/-- An encode in progress has latched a generation: its image is going to carry it, so that the generation stays (DEDUCED). -/
def Mod.genLatched (m : Mod) (r gen : Nat) : Bool := m.mem.recs.any (fun x => x.2.region = r && x.2.latch.elim false (fun l => l.table == some gen))

/-- A generation that is not current and has lost its last reference is freed, in the store, in every operand expander and in the journal
(R168, R169). -/
def Mod.freeGen (m : Mod) (r gen : Nat) : Mod :=
  match Tbl.find m.mem.regions r with
  | none => m
  | some g =>
    match Tbl.find g.tables.gens gen with
    | none => m
    | some t =>
      if g.tables.current = some gen ∨ m.genImages r gen true ≠ 0 ∨ m.movementHolds r ∨ m.genInFlight r ∨ m.genLatched r gen then m
      else
        let m1 := m.setRegion r (fun g => { g with tables := { g.tables with gens := Tbl.del g.tables.gens gen } })
        ({ m1 with t2 := { m1.t2 with tableJournal := m1.t2.tableJournal.filter (fun t => t != (r, gen)) } }).returnSlot t.slot

/-- FIRST_TABLE_BUILT (R165). -/
def execFirstTableBuilt (region : Nat) (s : State) : Out := s.act (fun m => m.firstTable region)

/-- GENERATION_FREE (R168). -/
def execGenerationFree (region : Nat) (gen : BitVec 4) (s : State) : Out := s.act (fun m => m.freeGen region gen.toNat)

/-! ### REBUILD_TABLE (R171) -/

/-- A work of a kind is active on the region. -/
def Mod.working (m : Mod) (p : Work → Bool) : Bool := m.ctxs.any (fun c => (c.2.state == CtxState.active || c.2.state == CtxState.cancelling) && p c.2.work)

def Mod.rebuilding (m : Mod) (id : Nat) : Bool := m.working (fun w => match w with | .rebuild r _ _ _ _ _ => r = id | _ => false)
def Mod.sweeping (m : Mod) (id : Nat) : Bool := m.working (fun w => match w with | .sweep r _ _ _ _ _ => r = id | _ => false)

/-- REBUILD_TABLE (R171): BUSY comes before NO_RESOURCE, between which the rule gives no order (DESIGN CHOICE). -/
def cmdRebuildTable : Cmd := fun r m =>
  let id := r.arg 0 2
  match m.ownRegion r id 0 with
  | .inr rep => (m, rep)
  | .inl g =>
    if g.form ≠ .lehr then badArg m 0
    else if 1 < r.arg 2 1 then badArg m 2
    else if r.arg 3 1 ≠ 0 then badArg m 3
    else
      match m.verArg r id (r.arg 4 4) with
      | none => badArg m 4
      | some sel =>
        if 1024 < r.arg 0x10 2 then badArg m 0x10
        else
          match reserved r [(0x12, 14)] with
          | some o => badArg m o
          | none =>
            if m.rebuilding id then fail m .busy
            else if g.tables.nextGen = none then fail m .noResource
            else
              match m.freeSlot with
              | (none, m1) => fail m1 .noResource
              | (some s, m1) =>
                let a := m1.accept r (.rebuild id s (r.arg 2 1 = 1) sel (r.arg 8 8) (if r.arg 0x10 2 = 0 then 64 else r.arg 0x10 2))
                if a.2.status = .accepted then (a.1.setMem (fun e => { e with tableSlots := e.tableSlots ++ [s] }), a.2) else a

/-- The code lengths of a REBUILD_TABLE from its counts. A sample of no symbol, of which the spec says nothing, gives its one code to a free
symbol of the range (R155, R172). -/
def Mod.rebuildLens (m : Mod) (d : DType) (counts : Tbl Nat) (cover : Bool) : List (Nat × Nat) × Mod :=
  if counts = [] ∧ !cover then let c := m.choose (if d = .fp16 then 32 else 256); ([(c.1, 1)], c.2)
  else (buildLens d counts cover, m)

/-- The end of a REBUILD_TABLE: sample, build, make current (R171, R172), once the engines have room for the sampling jobs (R162). All-zero
and poisoned tiles are left out of the sample, as in the first pass (DESIGN CHOICE). A rebuild that ends before the 64th first-pass pane
ends the first pass (R165). -/
def Mod.rebuildDone (m : Mod) (slot id s : Nat) (cover : Bool) (sel : VerSel) (first n : Nat) : Mod :=
  match Tbl.find m.mem.regions id with
  | none => m
  | some g =>
    let ok := ((m.vmap id sel).filterMap (fun p => if first ≤ p.1 then (Tbl.find m.mem.recs p.2).map (fun x => (p.2, x)) else none)).filter (fun x =>
      x.2.tier != Tier.unbacked && x.2.form != PForm.zero && x.2.state != PState.poisoned)
    let used := ok.take n
    if used.any (fun x => m.engineFull x.1) then m
    else if used = [] then (m.returnSlot s).finish slot .badArgument 0x18 0
    else
      let counts := used.foldl (fun t x => let c := m.readAll x.2; (sampleSymbols g.dtype c.1 (tilePoison c.2)).foldl (fun t s => Tbl.updD t s 0 (· + 1)) t) []
      let l := (m.each used (fun m x => m.decodeLog x.1 x.2 .background)).rebuildLens g.dtype counts cover
      let m1 := l.2.installTable id s l.1
      let m2 := m1.setMem (fun e => { e with tableWaiters := e.tableWaiters.filter (fun x => x != id) })
      let gen := (Tbl.find m2.mem.regions id).elim 0 (fun g => g.tables.current.getD 0)
      m2.finish slot .ok 0 (gen + s * 2 ^ 16 + used.length * 2 ^ 32)

/-! ### TABLE_SWEEP (R173, R175) -/

/-- An image that the sweep re-encodes: one of a named generation, or one that a flag selects (R173). -/
def sweepSelects (g : Region) (gens flags : Nat) (form : PForm) (img : Mem) : Bool :=
  form == PForm.lehr &&
  ((!lehrNoTable img && bit gens (lehrGen img)) ||
   (bit flags 1 && lehrNoTable img && (List.range 32).any (fun t => (lehrIndex img t).1.code = 1)) ||
   (bit flags 2 && (List.range 32).any (fun t => (lehrIndex img t).1.code = 2 &&
      floorForbids g.expFloor (ceilDiv ((lehrLen img t).toNat * 16 - (imageDType img).planeBytes) 16) (imageDType img))))

/-- Start the re-encode of a STABLE pane in its present tier, with the table and EXP_FLOOR of that moment (R173, R181), where its engine has
room (R163). -/
def Mod.startReencode (m : Mod) (k : Nat) (x : PaneRec) (g : Region) : Mod × Bool :=
  let go := fun (m : Mod) (p : Place) => (m.setRec k (fun x => { x with state := .movingDown, dest := some p, latch := some g.latch }), true)
  if m.engineFull k then (m, false)
  else
    match x.tier with
    | .t0 =>
      (match m.t0Alloc (m.residency g == .pinT0) 257 1 with
        | some s => go m { tier := .t0, loc := s, sectors := 257 }
        | none => (m, false))
    | .unbacked => (m, false)
    | t =>
      (match m.turnAlloc t 257 with
        | (some p, m1) => go m1 p
        | (none, m1) => (m1, false))

/-- The record that a parked slot would be as a home: what a decode of the slot reads. -/
def PaneRec.ofSlot (x : PaneRec) (p : Parked) : PaneRec :=
  { x with state := .stable, tier := p.place.tier, form := p.form, gen := p.gen, loc := p.place.loc, sectors := p.place.sectors, die := p.place.die,
           img := p.img, poison := [] }

/-- Encode a parked image again into a new slot of its tier. The old slot is freed as an old location is, which for a DURABLE region waits
until the journal has committed the new one (R173). -/
def Mod.reparked (m : Mod) (k : Nat) (x : PaneRec) (g : Region) (p : Parked) : Mod × Bool :=
  if m.engineFull k then (m, false)
  else
    let c := m.readAll (x.ofSlot p)
    let tp := tilePoison c.2
    let e := g.encode c.1 tp
    match m.turnAlloc p.place.tier (e.2.2.length / 256) with
    | (none, m1) => (m1, false)
    | (some q, m1) =>
      let img := Mem.pack 0 e.2.2
      let m2 := ((m1.decodeLog k (x.ofSlot p) .encode).setRec k (fun y =>
        { y with parked := some { place := q, form := e.1, gen := e.2.1, img := img, age := p.age }, old := some p, encoded := some (e.2.2.length / 256) })).noteSlowest x.region e.1 img
      (((m2.countSource (x.ofSlot p) 0x3003).storeImage k q 0x3003).sampleFirst x.region c.1 tp, true)

/-- The records of a region that a sweep has to visit, for their homes or their parked slots. -/
def Mod.sweepTodo (m : Mod) (id : Nat) (g : Region) (gens flags : Nat) : List Nat :=
  (m.mem.recs.filter (fun x => x.2.region = id && (sweepSelects g gens flags x.2.form x.2.img ||
    x.2.parked.elim false (fun p => sweepSelects g gens flags p.form p.img)))).map (fun x => x.1)

/-- The parked slot of a pane under a sweep: one of a named generation is freed outside DURABLE regions, and any other that the sweep selects
is encoded again. Whether the visit goes on to the home, and the number under which the pane stays to be visited otherwise. -/
def Mod.sweepSlot (m : Mod) (k : Nat) (x : PaneRec) (g : Region) (gens flags : Nat) : Mod × Option Nat :=
  match x.parked with
  | none => (m, none)
  | some p =>
    if sweepSelects g gens 0 p.form p.img ∧ !g.durable then (m.setRec k (fun x => { x with parked := none }), none)
    else if sweepSelects g gens flags p.form p.img then (let r := m.reparked k x g p; (r.1, some (if r.2 then partDone k else k)))
    else (m, none)

/-- One pass of a sweep over what is left: panes whose re-encode has committed count, moving panes wait, POISONED panes are skipped
and counted, STABLE ones start (R173, R175). -/
def Mod.sweepPass (m : Mod) (id gens flags : Nat) (todo going : List Nat) (n : Nat) : Mod × List Nat × List Nat × Nat :=
  let one := fun (a : Mod × List Nat × List Nat × Nat) (j : Nat) =>
    let m := a.1
    let k := j % 2 ^ 48
    match Tbl.find m.mem.recs k, Tbl.find m.mem.regions id with
    | some x, some g =>
      let later := fun (m : Mod) (j : Nat) => (m, a.2.1 ++ [j], a.2.2.1, a.2.2.2)
      let under := fun (m : Mod) => (m, a.2.1, a.2.2.1 ++ [j], a.2.2.2)
      if x.state = .poisoned then (m, a.2.1, a.2.2.1, a.2.2.2 + 1)
      else if x.state ≠ .stable ∨ x.old ≠ none ∨ x.sealEncode ∨ x.unpacking ≠ none then (if going.contains j then under m else later m j)
      else
        match if j = k ∧ !going.contains j then m.sweepSlot k x g gens flags else (m, none) with
        | (m1, some j1) => later m1 j1
        | (m1, none) =>
          if going.contains j then
            (if sweepSelects g gens 0 x.form x.img then later m1 j else (m1, a.2.1, a.2.2.1, a.2.2.2 + 1))
          else if !sweepSelects g gens flags x.form x.img then (m1, a.2.1, a.2.2.1, a.2.2.2 + b2n (j != k))
          else
            let r := m1.startReencode k x g
            if r.2 then under r.1 else later r.1 j
    | _, _ => a
  (going ++ todo).foldl one (m, [], [], n)

/-- TABLE_SWEEP (R173). -/
def cmdTableSweep : Cmd := fun r m =>
  let id := r.arg 0 2
  match m.ownRegion r id 0 with
  | .inr rep => (m, rep)
  | .inl g =>
    if g.form ≠ .lehr then badArg m 0
    else if 7 < r.arg 2 1 then badArg m 2
    else if r.arg 3 1 ≠ 0 then badArg m 3
    else if m.sweeping id then fail m .busy
    else
      let live := packBits ((List.range 16).map (fun n => Tbl.has g.tables.gens n && g.tables.current != some n))
      let named := if r.arg 4 2 = 0 then live else packBits ((List.range 16).map (fun n => bit (r.arg 4 2) n && g.tables.current != some n))
      let v := m.sweepPass id named (r.arg 2 1) (m.sweepTodo id g named (r.arg 2 1)) [] 0
      v.1.accept r (.sweep id named (r.arg 2 1) v.2.1 v.2.2.1 v.2.2.2)

/-- The live mask of a region (R174). -/
def Region.liveMask (g : Region) : Nat := packBits ((List.range 16).map (fun n => Tbl.has g.tables.gens n))

/-- The end of a sweep: RESCAN recomputes the statistic (R173, R180). -/
def Mod.sweepDone (m : Mod) (slot id flags n : Nat) (st : Status) : Mod :=
  let big := (m.mem.recs.filter (fun x => x.2.region = id)).foldl (fun b x =>
    let b1 := if x.2.form = .lehr then max b (lehrMaxExp x.2.img) else b
    match x.2.parked with | some p => (if p.form = .lehr then max b1 (lehrMaxExp p.img) else b1) | none => b1) 0
  let m1 := if bit flags 0 ∧ st = .ok then m.setRegion id (fun g => { g with tables := { g.tables with slowest := big } }) else m
  m1.finish slot st 0 (n % 2 ^ 32 + ((Tbl.find m1.mem.regions id).elim 0 Region.liveMask) * 2 ^ 32)

/-! ### TABLE_QUERY (R174) -/

def cmdTableQuery : Cmd := fun r m =>
  let id := r.arg 0 2
  match m.reachRegion r id 0 with
  | .inr rep => (m, rep)
  | .inl g =>
    if 15 < r.arg 2 1 ∧ r.arg 2 1 ≠ 0xFF then badArg m 2
    else if g.form ≠ .lehr then done m (le 1 0xFF ++ List.replicate 217 0)
    else
      let gen := Tbl.find g.tables.gens (r.arg 2 1)
      done m (le 1 (g.tables.current.getD 0xFF) ++
        le 1 (b2n g.tables.current.isNone + 2 * b2n g.tables.storeWait + 4 * b2n (m.sweeping id) + 8 * b2n (m.rebuilding id)) ++
        le 2 g.liveMask ++ le 2 (4096 - m.mem.tableSlots.length) ++ le 1 g.tables.slowest ++ le 1 g.tables.sampled ++
        (List.range 16).flatMap (fun n => le 4 (m.genImages id n false)) ++
        (match gen with | some t => Mem.block t.image 0 144 | none => List.replicate 144 0) ++
        le 2 (match gen with | some t => t.slot | none => 0xFFFF))

/-! ### The rows -/

/-- PARTITION_CREATE (R184). -/
def execPartitionCreate (ch : ChanNo) (s : State) : Out := s.mailbox ch 0x0200 anyForm cmdPartitionCreate
/-- PARTITION_BIND_LD (R186). -/
def execPartitionBindLd (ch : ChanNo) (s : State) : Out := s.mailbox ch 0x0201 anyForm cmdPartitionBindLd
/-- PARTITION_UNBIND_LD (R186). -/
def execPartitionUnbindLd (ch : ChanNo) (s : State) : Out := s.mailbox ch 0x0202 anyForm cmdPartitionUnbindLd
/-- PARTITION_QUERY (R188). -/
def execPartitionQuery (ch : ChanNo) (s : State) : Out := s.mailbox ch 0x0204 anyForm cmdPartitionQuery
/-- LEASE_SET (R218). -/
def execLeaseSet (ch : ChanNo) (s : State) : Out := s.mailbox ch 0x0205 anyForm cmdLeaseSet
/-- LEASE_QUERY (R218). -/
def execLeaseQuery (ch : ChanNo) (s : State) : Out := s.mailbox ch 0x0206 anyForm cmdLeaseQuery
/-- REGION_CREATE (R94). -/
def execRegionCreate (ch : ChanNo) (s : State) : Out := s.mailbox ch 0x0300 anyForm cmdRegionCreate
/-- REGION_SET_ATTR (R96). -/
def execRegionSetAttr (ch : ChanNo) (s : State) : Out := s.mailbox ch 0x0302 anyForm cmdRegionSetAttr
/-- REGION_QUERY (R100). -/
def execRegionQuery (ch : ChanNo) (s : State) : Out := s.mailbox ch 0x0303 anyForm cmdRegionQuery
/-- REGION_ADD_EXTENTS (R97). -/
def execRegionAddExtents (ch : ChanNo) (s : State) : Out := s.mailbox ch 0x0304 anyForm cmdRegionAddExtents
/-- CAPACITY_QUERY (R136). -/
def execCapacityQuery (ch : ChanNo) (s : State) : Out := s.mailbox ch 0x0306 anyForm cmdCapacityQuery
/-- SET_RESIDENCY (R126). -/
def execSetResidency (ch : ChanNo) (s : State) : Out := s.mailbox ch 0x0500 anyForm cmdSetResidency
/-- PREFETCH (R127). -/
def execPrefetch (ch : ChanNo) (s : State) : Out := s.mailbox ch 0x0501 anyForm cmdPrefetch
/-- EVICT_HINT (R127). -/
def execEvictHint (ch : ChanNo) (s : State) : Out := s.mailbox ch 0x0502 anyForm cmdEvictHint
/-- RESIDENCY_QUERY (R128). -/
def execResidencyQuery (ch : ChanNo) (s : State) : Out := s.mailbox ch 0x0503 anyForm cmdResidencyQuery
/-- REBUILD_TABLE (R171). -/
def execRebuildTable (ch : ChanNo) (s : State) : Out := s.mailbox ch 0x0600 anyForm cmdRebuildTable
/-- TABLE_SWEEP (R173). -/
def execTableSweep (ch : ChanNo) (s : State) : Out := s.mailbox ch 0x0601 anyForm cmdTableSweep
/-- TABLE_QUERY (R174). -/
def execTableQuery (ch : ChanNo) (s : State) : Out := s.mailbox ch 0x0602 anyForm cmdTableQuery
/-- POISON_QUERY (R471). -/
def execPoisonQuery (ch : ChanNo) (s : State) : Out := s.mailbox ch 0x0A04 anyForm cmdPoisonQuery

end Sys2Proof.Machine
end

