-- ==== Sys2Proof/Machine/Buffers.lean ====
section
/-! DEFINITION. Indirect buffers (spec/02_control_model.md R58): reads of host memory as bus master (spec/14_host_ports.md R457 to
R459), of panes, and of other modules, and the writes of results to such buffers. -/
namespace Sys2Proof.Machine

/-! ### Reads of host memory (R457, R458) -/

/-- Max Read Request Size of the LD's management function, up to 4,096 B (R458). -/
def Ld.mrrs (d : Ld) : Nat := min 4096 (128 * 2 ^ bits (Mem.rdLE d.f1.cfg 0x50 2) 12 3)

/-- Tags of an LD's reads: 14 bits in 256 B flit mode, which links of 64 GT/s and above use, otherwise 10 (R458). -/
def Mod.tagCount (m : Mod) (l : Nat) : Nat := if 64 ≤ (m.port (l / 16)).rate then 2 ^ 14 else 2 ^ 10

/-- Reads outstanding on a port. -/
def Mod.readsOut (m : Mod) (h : Nat) : Nat := sumOf (m.lds.map (fun d => if d.1 / 16 = h then d.2.reads.length else 0))

/-- The next tag of an LD that is neither in use nor retired (R459). -/
def Mod.nextReadTag (m : Mod) (l : Nat) : Option Nat :=
  let d := m.ld l
  probe (m.tagCount l) (fun t => !(d.reads.any (fun r => r.tag = t)) && !d.retiredTags.any (fun x => x.1 = t && decide (m.localTime < x.2))) d.nextTag (m.tagCount l)

/-- Issue the next read of a buffer, when the LD may send DMA and a tag is free. -/
def Mod.askOne (m : Mod) (b : DmaBuf) : Option Mod :=
  match b.ld with
  | none => none
  | some l =>
    let d := m.ld l
    if b.length ≤ b.asked ∨ !d.f1.busMaster ∨ d.f1.reset ≠ 0 ∨ 512 ≤ m.readsOut (l / 16) then none
    else
      match m.nextReadTag l with
      | none => none
      | some t =>
        let a := b.address + b.asked
        let n := min (b.length - b.asked) (d.mrrs - a % d.mrrs)
        let m1 := m.setLd l (fun d => { d with nextTag := t + 1, reads := d.reads ++ [{ tag := t, key := b.key, index := b.index, offset := b.asked, left := n }] })
        some (({ m1 with bufs := m1.bufs.map (fun (x : DmaBuf) => if x.key = b.key ∧ x.index = b.index then { x with asked := x.asked + n } else x) }.backToL0 l).send (.hostRead l t a n))

/-- Issue every read that may be issued now. -/
def Mod.askReads (m : Mod) : Nat → Mod
  | 0 => m
  | n + 1 =>
    match m.bufs.findSome? (fun b => m.askOne b) with
    | some m1 => m1.askReads n
    | none => m

/-- The most reads that can be issued at once. -/
def askFuel : Nat := 2048

/-! ### Buffers in panes and on other modules -/

/-- The region and pane of a DPA in a region of a partition (R58). -/
def Mod.dpaPane (m : Mod) (part a : Nat) : Option (Nat × Region × Nat) :=
  match (Tbl.find m.mem.extents (a / 2 ^ 28)).bind (fun e => e.region) with
  | some (r, o) =>
    (match Tbl.find m.mem.regions r with
      | some g => if g.owner = part ∧ !g.striped then some (r, g, o * 4096 + a / 65536 % 4096) else none
      | none => none)
  | none => none

/-- The 64 B line at a DPA: BAD_ARGUMENT where there is none, POISONED where it is poisoned (R58, R469). -/
def Mod.dpaLine (m : Mod) (part a : Nat) : List Byte ⊕ Status :=
  match m.dpaPane part a with
  | none => .inr .badArgument
  | some (r, _, pane) =>
    match m.recAt r .head pane with
    | none => .inl (List.replicate 64 0)
    | some (_, x) => (match (m.lineAt x (a / 64 % 1024)).1 with | some b => .inl b | none => .inr .poisoned)

/-- `n` lines from a DPA. -/
def Mod.dpaLines (m : Mod) (part a : Nat) : Nat → List Byte ⊕ Status
  | 0 => .inl []
  | n + 1 =>
    match m.dpaLine part a with
    | .inr s => .inr s
    | .inl b => (match m.dpaLines part (a + 64) n with | .inl r => .inl (b ++ r) | .inr s => .inr s)

/-- Lines that a byte range meets. -/
def linesOf (a n : Nat) : Nat := if n = 0 then 0 else (a + n - 1) / 64 - a / 64 + 1

/-- FLOW_KEY of packets that carry a fabric address (R332): kind 2. -/
def absFlow : Nat := 2 * 16384

/-- Ask for the lines of a buffer on another module (R332, R335): kind 5, with the buffer's key and index as context. -/
def Mod.askLines (m : Mod) (key ix a n part : Nat) : Mod :=
  m.each (List.range (linesOf a n)) (fun m i =>
    let addr := (a / 64 + i) * 64
    m.request 5 (addr / 2 ^ 50) 0 0x10 0 absFlow (refBytes addr 0xFFFFFFFF 0 m.fab.deviceId 0 2) addr .engine (key * 8 + ix) part)

/-! ### Opening a buffer -/

/-- What a descriptor of R58 gives: its bytes, a wait, or a refusal. -/
inductive BufAns where
  | ready (bytes : List Byte)
  | waiting
  | refused (status : Status)
  deriving DecidableEq, Repr

/-- The buffer in progress under a key and an index. -/
def Mod.bufAt (m : Mod) (key ix : Nat) : Option DmaBuf := m.bufs.find? (fun b => b.key = key && b.index = ix)

/-- SPACE is permitted for the owner (R58). -/
def spaceOk (who : Owner) (space : Nat) : Bool :=
  match space, who with
  | 0, .ld _ => true | 1, _ => true | 2, .peer _ _ => true | 2, .neighbour _ => true | _, _ => false

/-- Read the buffer that a descriptor names: start its reads, or answer how they stand (R58). -/
def Mod.readBuffer (m : Mod) (key ix descAt : Nat) (who : Owner) (part addr len space : Nat) : Mod × BufAns :=
  match m.bufAt key ix with
  | some b => (m, if b.arrived = b.length then .ready (Mem.block b.got 0 b.length) else .waiting)
  | none =>
    match space, who with
    | 0, .ld l =>
      if len = 0 then (m, .ready [])
      else
        let b : DmaBuf := { key := key, index := ix, descAt := descAt, ld := some l.toNat, address := addr, length := len, asked := 0, arrived := 0, got := [] }
        (({ m with bufs := m.bufs ++ [b] }).askReads askFuel, .waiting)
    | 1, _ =>
      (match m.dpaLines part (addr / 64 * 64) (linesOf addr len) with
        | .inl bs => (m, .ready ((bs.drop (addr % 64)).take len))
        | .inr s => (m, .refused s))
    | 2, _ =>
      if !spaceOk who 2 then (m, .refused .notPermitted)
      else if len = 0 then (m, .ready [])
      else
        let b : DmaBuf := { key := key, index := ix, descAt := descAt, ld := none, address := addr, length := len, asked := len, arrived := 0, got := [] }
        (({ m with bufs := m.bufs ++ [b] }).askLines key ix addr len part, .waiting)
    | 0, _ => (m, .refused .notPermitted)
    | _, _ => (m, .refused .badArgument)

/-- The descriptor at an ARGS offset: address, length, SPACE; or the offset of its reserved field (R6). -/
def Req.buffer (r : Req) (off : Nat) : (Nat × Nat × Nat) ⊕ Nat :=
  if 2 < r.arg (off + 12) 1 then .inr (off + 12)
  else if r.arg (off + 13) 3 ≠ 0 then .inr (off + 13)
  else .inl (r.arg off 8, r.arg (off + 8) 4, r.arg (off + 12) 1)

/-- Bytes of a buffer that have arrived. -/
def Mod.bufArrived (m : Mod) (key ix off : Nat) (bs : List Byte) : Mod :=
  { m with bufs := m.bufs.map (fun (b : DmaBuf) => if b.key = key ∧ b.index = ix then
      { b with arrived := b.arrived + bs.length, got := Mem.splice b.got off bs.length (Mem.pack 0 bs) } else b) }

/-- Forget every buffer of a key. -/
def Mod.dropBufs (m : Mod) (key : Nat) : Mod := { m with bufs := m.bufs.filter (fun (b : DmaBuf) => b.key != key) }

/-! ### Writing a result to a buffer -/

/-- The buffer can be written: a DPA range in regions of the partition (R58). -/
def Mod.destOk (m : Mod) (part addr len space : Nat) : Bool :=
  space != 1 || (List.range (ceilDiv (addr % 65536 + len) 65536)).all (fun i => (m.dpaPane part (addr / 65536 * 65536 + i * 65536)).isSome)

/-- Write bytes to a buffer: host memory as bus master, panes line by line, or lines of another module. -/
def Mod.writeDest (m : Mod) (who : Owner) (part addr space : Nat) (bs : List Byte) : Mod :=
  match space, who with
  | 0, .ld l => if bs = [] then m else m.dmaWrite l.toNat addr bs
  | 1, _ =>
    m.each (List.range (linesOf addr bs.length)) (fun m i =>
      let a := (addr / 64 + i) * 64
      let lo := max a addr
      let hi := min (a + 64) (addr + bs.length)
      match m.dpaPane part a with
      | some (r, _, pane) =>
        m.submit { src := .engine, region := r, sel := .head, pane := pane, offset := lo % 65536, bytes := (bs.drop (lo - addr)).take (hi - lo),
                   enable := [], poisoned := false, wait := .frame }
      | none => m)
  | 2, .peer _ _ =>
    m.each (List.range (linesOf addr bs.length)) (fun m i =>
      let a := (addr / 64 + i) * 64
      let lo := max a addr
      let hi := min (a + 64) (addr + bs.length)
      let part64 := List.replicate (lo - a) 0 ++ (bs.drop (lo - addr)).take (hi - lo) ++ List.replicate (a + 64 - hi) (0 : Byte)
      let ref := refBytes a 0xFFFFFFFF 0 m.fab.deviceId 0 2
      if lo = a ∧ hi = a + 64 then m.request 6 (a / 2 ^ 50) 0 0x11 0 absFlow (ref ++ part64) a .engine 0 part
      else
        m.request 9 (a / 2 ^ 50) 0 0x10 0 absFlow ref a .engine 0 part false part64
          ((List.range 64).map (fun k => decide (lo ≤ a + k) && decide (a + k < hi))))
  | _, _ => m

end Sys2Proof.Machine
end

