-- ==== Sys2Proof/Machine/Flags.lean ====
section
/-! DEFINITION. The numbers of the sliver cores and their five sticky flags (spec/07_sliver_cores_movements.md R256 to R259):
exact values, one rounding to nearest even for each elementary step, and the conversions. -/
namespace Sys2Proof.Machine

/-! ### The flags of R259 -/

def flagInvalid : Nat := 1
def flagDivZero : Nat := 2
def flagOverflow : Nat := 4
def flagUnderflow : Nat := 8
def flagSaturated : Nat := 16

/-! ### Formats and exact values (R256) -/

/-- A floating format: exponent and mantissa bits, bias, and whether the all-ones exponent holds Inf and NaN (R256). -/
structure FFmt where
  expBits : Nat
  manBits : Nat
  bias : Nat
  ieee : Bool
  deriving DecidableEq, Repr

/-- The format of a floating type; FP32 for the others, whose results are converted to it. -/
def DType.fmt : DType → FFmt
  | .bf16 => ⟨8, 7, 127, true⟩
  | .fp16 => ⟨5, 10, 15, true⟩
  | .e4m3 => ⟨4, 3, 7, false⟩
  | .e5m2 => ⟨5, 2, 15, true⟩
  | _ => ⟨8, 23, 127, true⟩

/-- An exact value: (-1)^neg × man × 2^exp, an infinity, or NaN. -/
inductive FV where
  | nan
  | inf (neg : Bool)
  | fin (neg : Bool) (man : Nat) (exp : Int)
  deriving DecidableEq, Repr

/-- Sign bit of a format. -/
def FFmt.signBit (f : FFmt) : Nat := 2 ^ (f.expBits + f.manBits)
/-- The positive canonical NaN (R257). -/
def FFmt.nan (f : FFmt) : Nat := if f.ieee then (2 ^ f.expBits - 1) * 2 ^ f.manBits + 2 ^ (f.manBits - 1) else 2 ^ (f.expBits + f.manBits) - 1
/-- The first magnitude beyond the largest finite one: Inf, or for E4M3 the code of NaN. -/
def FFmt.over (f : FFmt) : Nat := if f.ieee then (2 ^ f.expBits - 1) * 2 ^ f.manBits else 2 ^ (f.expBits + f.manBits) - 1

/-- The exact value of a code (R256). -/
def FFmt.value (f : FFmt) (v : Nat) : FV :=
  let neg := bit v (f.expBits + f.manBits)
  let e := bits v f.manBits f.expBits
  let m := bits v 0 f.manBits
  if f.ieee ∧ e = 2 ^ f.expBits - 1 then (if m = 0 then .inf neg else .nan)
  else if !f.ieee ∧ v % f.signBit = f.signBit - 1 then .nan
  else if e = 0 then .fin neg m (1 - (f.bias : Int) - f.manBits)
  else .fin neg (2 ^ f.manBits + m) ((e : Int) - f.bias - f.manBits)

/-- The exponent of the last place of a value with `man` and `exp` in a format. -/
def FFmt.lsb (f : FFmt) (man : Nat) (exp : Int) : Int := max (exp + (bitLen man : Int) - 1) (1 - (f.bias : Int)) - f.manBits

/-- The magnitude code at or below man × 2^exp, without a limit above, and whether the value lies above it. -/
def FFmt.below (f : FFmt) (man : Nat) (exp : Int) : Nat × Bool :=
  let q := f.lsb man exp
  let base := ((q + f.manBits + f.bias - 1).toNat) * 2 ^ f.manBits
  if q ≤ exp then (base + man * 2 ^ (exp - q).toNat, false)
  else (base + man / 2 ^ (q - exp).toNat, man % 2 ^ (q - exp).toNat != 0)

/-- The magnitude code nearest to man × 2^exp, ties to even, without a limit above, and whether it is inexact (R257). -/
def FFmt.near (f : FFmt) (man : Nat) (exp : Int) : Nat × Bool :=
  let b := f.below man exp
  let q := f.lsb man exp
  if q ≤ exp then b
  else
    let half := 2 ^ ((q - exp).toNat - 1)
    let rem := man % 2 ^ (q - exp).toNat
    if rem > half ∨ (rem = half ∧ b.1 % 2 = 1) then (b.1 + 1, true) else b

/-- A result of arithmetic: its code and flags (R257, R259). -/
def FFmt.round (f : FFmt) : FV → Nat × Nat
  | .nan => (f.nan, 0)
  | .inf neg => (b2n neg * f.signBit + f.over, 0)
  | .fin neg man exp =>
    if man = 0 then (b2n neg * f.signBit, 0)
    else
      let r := f.near man exp
      if f.over ≤ r.1 then (b2n neg * f.signBit + f.over, flagOverflow)
      else (b2n neg * f.signBit + r.1, if r.2 ∧ r.1 < 2 ^ f.manBits then flagUnderflow else 0)

/-- The integer nearest to man × 2^exp, ties to even. -/
def roundInt (neg : Bool) (man : Nat) (exp : Int) : Int :=
  let mag : Nat :=
    if 0 ≤ exp then man * 2 ^ exp.toNat
    else
      let k := (-exp).toNat
      let q := man / 2 ^ k
      let rem := man % 2 ^ k
      let half := 2 ^ (k - 1)
      if rem > half ∨ (rem = half ∧ q % 2 = 1) then q + 1 else q
  if neg then -(mag : Int) else mag

/-- An integer as an exact value. -/
def FV.ofInt (v : Int) : FV := .fin (decide (v < 0)) v.natAbs 0

/-! ### Conversions (R257, R276) -/

/-- Saturate an integer to `w` bits. -/
def satInt (w : Nat) (v : Int) : Nat × Nat :=
  if v < -(2 ^ (w - 1) : Int) then (toTwos w (-(2 ^ (w - 1) : Int)), flagSaturated)
  else if (2 ^ (w - 1) : Int) ≤ v then (toTwos w ((2 ^ (w - 1) : Int) - 1), flagSaturated)
  else (toTwos w v, 0)

/-- The signed integer types' width in bits; 0 for the others. -/
def DType.intBits : DType → Nat
  | .int8 => 8 | .int32 => 32 | _ => 0

/-- Convert an exact value to a type (R257): finite overflow gives Inf in BF16, FP16 and FP32, and saturates elsewhere. -/
def DType.convert (d : DType) (v : FV) : Nat × Nat :=
  let f := d.fmt
  let w := d.intBits
  if w ≠ 0 then
    match v with
    | .nan => (0, 0)
    | .inf neg => ((satInt w (if neg then -(2 ^ 40 : Int) else 2 ^ 40)).1, flagSaturated)
    | .fin neg man exp => satInt w (roundInt neg man exp)
  else
    match v with
    | .nan => (f.nan, 0)
    | .inf neg => if d = .e4m3 then (b2n neg * f.signBit + f.over - 1, flagSaturated) else (b2n neg * f.signBit + f.over, 0)
    | .fin neg man exp =>
      if man = 0 then (b2n neg * f.signBit, 0)
      else
        let r := f.near man exp
        if f.over ≤ r.1 then
          (if d = .e4m3 ∨ d = .e5m2 then (b2n neg * f.signBit + f.over - 1, flagSaturated) else (b2n neg * f.signBit + f.over, 0))
        else (b2n neg * f.signBit + r.1, if r.2 ∧ r.1 < 2 ^ f.manBits then flagUnderflow else 0)

/-- The floating types of R256. -/
def DType.isFloat (d : DType) : Bool := d.floating || d == DType.e4m3 || d == DType.e5m2

/-- The exact value of an element. OPAQUE is an unsigned 8-bit integer (R256). -/
def DType.value (d : DType) (v : Nat) : FV :=
  if d.isFloat then d.fmt.value v
  else if d.intBits ≠ 0 then FV.ofInt (ofTwos d.intBits v)
  else .fin false (v % 256) 0

/-- An element of an integer type as an integer. -/
def DType.int (d : DType) (v : Nat) : Int := if d.intBits ≠ 0 then ofTwos d.intBits v else (v % 256 : Nat)

/-! ### Exact arithmetic (R257, R258) -/

/-- The signed integer of a finite value at an exponent that is not above its own. -/
def FV.at (neg : Bool) (man : Nat) (exp low : Int) : Int :=
  let m : Int := (man * 2 ^ (exp - low).toNat : Nat)
  if neg then -m else m

/-- Product, and whether a NaN arises from operands that are not NaN. -/
def FV.mul : FV → FV → FV × Bool
  | .nan, _ => (.nan, false)
  | _, .nan => (.nan, false)
  | .inf a, .inf b => (.inf (a != b), false)
  | .inf a, .fin b m _ => if m = 0 then (.nan, true) else (.inf (a != b), false)
  | .fin a m _, .inf b => if m = 0 then (.nan, true) else (.inf (a != b), false)
  | .fin a m e, .fin b n g => (.fin (a != b) (m * n) (e + g), false)

/-- Exact sum of finite values as a sign, an integer and an exponent. A sum of zero is +0 unless every term is -0. -/
def sumFinite (l : List (Bool × Nat × Int)) : FV :=
  let low := (l.map (fun t => t.2.2)).foldl min ((l.map (fun t => t.2.2)).headD 0)
  let v : Int := (l.map (fun t => FV.at t.1 t.2.1 t.2.2 low)).foldl (fun a b => a + b) 0
  if v = 0 then .fin (l != [] && l.all (fun t => t.1)) 0 0 else .fin (decide (v < 0)) v.natAbs low

/-- Exact sum, and whether a NaN arises from operands that are not NaN (R258). -/
def FV.sum (l : List FV) : FV × Bool :=
  if l.any (· == .nan) then (.nan, false)
  else
    let pos := l.any (· == .inf false)
    let neg := l.any (· == .inf true)
    if pos && neg then (.nan, true) else if pos then (.inf false, false) else if neg then (.inf true, false)
    else (sumFinite (l.filterMap (fun v => match v with | .fin n m e => some (n, m, e) | _ => none)), false)

def FV.neg : FV → FV
  | .nan => .nan | .inf s => .inf (!s) | .fin s m e => .fin (!s) m e
def FV.abs : FV → FV
  | .nan => .nan | .inf _ => .inf false | .fin _ m e => .fin false m e

/-- Order of two values that are not NaN: -1, 0 or 1; equal zeros are equal whatever their signs. -/
def FV.cmp : FV → FV → Int
  | .inf a, .inf b => if a = b then 0 else if a then -1 else 1
  | .inf a, _ => if a then -1 else 1
  | _, .inf b => if b then 1 else -1
  | .fin a m e, .fin b n g =>
    let low := min e g
    let x := FV.at a m e low
    let y := FV.at b n g low
    if x < y then -1 else if y < x then 1 else 0
  | _, _ => 0

/-- MAX or MIN (R275): the canonical NaN for a NaN; of two zeros the positive one is the greater. -/
def FV.pick (isMax : Bool) (a b : FV) : FV :=
  if a == .nan ∨ b == .nan then .nan
  else
    let c := FV.cmp a b
    let negZero := fun (v : FV) => match v with | .fin true 0 _ => true | _ => false
    if c = 0 then (if isMax then (if negZero a then b else a) else (if negZero a then a else b))
    else if (c = 1) = isMax then a else b

/-- Round an exact result with the INVALID that its step raised. -/
def FFmt.result (f : FFmt) (v : FV × Bool) : Nat × Nat :=
  let r := f.round v.1
  (r.1, r.2 ||| (if v.2 then flagInvalid else 0))

/-! ### EXP, RECIP and RSQRT within 1 ULP (R275) -/

/-- Result of a function whose exact value is man × 2^exp, or a little above it when `more` holds: a choice, fixed for each operand,
among the codes within 1 ULP. -/
def FFmt.within (f : FFmt) (d : DType) (fn operand : Nat) (neg : Bool) (man : Nat) (exp : Int) (more : Bool) : Nat × Nat :=
  let b := f.below man exp
  let low := b.1
  let inexact := b.2 || more
  let c := Config.ulpChoice fn d.code operand % 3
  let r := if inexact then (if c % 2 = 0 then low else low + 1) else if c = 0 then low else if c = 1 then low + 1 else low - 1
  let top := f.over
  if top ≤ r then (b2n neg * f.signBit + top, flagOverflow)
  else (b2n neg * f.signBit + r, if inexact ∧ r < 2 ^ f.manBits then flagUnderflow else 0)

/-- Integer square root by Newton's steps from above. -/
def sqrtSteps : Nat → Nat → Nat → Nat
  | 0, _, x => x
  | k + 1, n, x => let y := (x + n / x) / 2; if y < x then sqrtSteps k n y else x

def isqrt (n : Nat) : Nat := if n = 0 then 0 else sqrtSteps (bitLen n + 8) n (2 ^ (bitLen n / 2 + 1))

/-- Fixed-point places of the exponential. -/
def expPlaces : Nat := 384

/-- Σ y^k ÷ k! in fixed point. -/
def expSeries : Nat → Nat → Int → Int → Int → Int
  | 0, _, _, _, acc => acc
  | n + 1, k, y, term, acc =>
    let t := term * y / (2 ^ expPlaces : Int) / (k : Int)
    expSeries n (k + 1) y t (acc + t)

/-- Square `n` times in fixed point. -/
def squares : Nat → Int → Int
  | 0, v => v
  | n + 1, v => squares n (v * v / (2 ^ expPlaces : Int))

/-- e^x in fixed point with 384 places, for |x| below 1,024. -/
def expFixed (neg : Bool) (man : Nat) (exp : Int) : Nat :=
  let k := exp + expPlaces - 10
  let mag : Nat := if 0 ≤ k then man * 2 ^ k.toNat else man / 2 ^ (-k).toNat
  let y : Int := if neg then -(mag : Int) else mag
  (squares 10 (expSeries 80 1 y (2 ^ expPlaces : Int) (2 ^ expPlaces : Int))).toNat

/-- EXP (R275). -/
def fvExp (d : DType) (operand : Nat) : FV → Nat × Nat
  | .nan => (d.fmt.nan, 0)
  | .inf true => (0, 0)
  | .inf false => (d.fmt.over, 0)
  | .fin neg man exp =>
    if man = 0 then d.fmt.within d 10 operand false 1 0 false
    else if 10 ≤ exp + (bitLen man : Int) then
      (if neg then d.fmt.within d 10 operand false 1 (-(100000 : Int)) true else (d.fmt.over, flagOverflow))
    else d.fmt.within d 10 operand false (expFixed neg man exp) (-(expPlaces : Int)) true

/-- RECIP (R275): 1 ÷ ±0 is ±Inf and sets DIV_ZERO. -/
def fvRecip (d : DType) (operand : Nat) : FV → Nat × Nat
  | .nan => (d.fmt.nan, 0)
  | .inf neg => (b2n neg * d.fmt.signBit, 0)
  | .fin neg man exp =>
    if man = 0 then (b2n neg * d.fmt.signBit + d.fmt.over, flagDivZero)
    else d.fmt.within d 11 operand neg (2 ^ 128 / man) (-(128 : Int) - exp) (2 ^ 128 % man != 0)

/-- RSQRT (R275): a negative operand gives NaN and sets INVALID; 1 ÷ √±0 is ±Inf and sets DIV_ZERO. -/
def fvRsqrt (d : DType) (operand : Nat) : FV → Nat × Nat
  | .nan => (d.fmt.nan, 0)
  | .inf true => (d.fmt.nan, flagInvalid)
  | .inf false => (0, 0)
  | .fin neg man exp =>
    if man = 0 then (b2n neg * d.fmt.signBit + d.fmt.over, flagDivZero)
    else if neg then (d.fmt.nan, flagInvalid)
    else
      -- √(2^(2p) ÷ (m × 2^e)) with an even exponent
      let m := if exp % 2 = 0 then man else man * 2
      let e := if exp % 2 = 0 then exp else exp - 1
      let n := 2 ^ 256 / m
      let r := isqrt n
      d.fmt.within d 12 operand false r (-(128 : Int) - e / 2) (r * r != n || 2 ^ 256 % m != 0)

/-! ### Sums in an FP32 or INT32 accumulator (R258, R278, R281) -/

/-- An FP32 accumulator with flags. -/
abbrev Acc := Nat × Nat

/-- Add exact terms to an FP32 accumulator as one exact sum, rounded once (R258). -/
def accAdd (a : Acc) (terms : List (FV × Bool)) : Acc :=
  let s := FV.sum (DType.fp32.fmt.value a.1 :: terms.map (fun t => t.1))
  let r := DType.fp32.fmt.result (s.1, s.2 || terms.any (fun t => t.2))
  (r.1, a.2 ||| r.2)

/-- The groups of a list in ascending order, each of `n`. -/
def groups {α : Type} (n : Nat) (l : List α) : List (List α) := pieces n (ceilDiv l.length (max n 1)) l

/-- Sum a list of terms in groups into an FP32 accumulator. -/
def accGroups (n : Nat) (a : Acc) (terms : List (FV × Bool)) : Acc := (groups n terms).foldl accAdd a

/-- Products of two lists of elements. -/
def products (da db : DType) (a b : List Nat) : List (FV × Bool) := (a.zip b).map (fun p => (da.value p.1).mul (db.value p.2))

end Sys2Proof.Machine
end

