-- ==== Sys2Proof/Machine/Operands.lean ====
section
/-! DEFINITION. The descriptors of the sliver cores and their operands (spec/08_operation_reference.md R261 to R266): fields,
addresses in effect, tile references, and raw and stored operands read from the crucible. -/
namespace Sys2Proof.Machine

/-! ### Cores and movements -/

/-- A core after reset or with nothing done yet. -/
def Core.init : Core :=
  { crucible := [], origins := [], preds := [false, false, false, false], flags := 0, loops := [], pc := 0, movement := none, atBarrier := false,
    stopped := false, fetches := [], stores := [], msgs := [], waits := [], ticket := 0, fault := none, discardLogged := false }

def Mod.core (m : Mod) (c : Nat) : Core := Tbl.findD m.cores c Core.init
def Mod.setCore (m : Mod) (c : Nat) (f : Core → Core) : Mod := { m with cores := Tbl.updD m.cores c Core.init f }

/-- Unit ID of a core (R665). -/
def coreUnit (c : Nat) : Nat := 0x1000 + c

/-! ### Descriptors (R261 to R263) -/

/-- A descriptor (R261). -/
structure Desc where
  op : Nat
  dtype : Nat
  sub : Nat
  flags : Nat
  dst : Nat
  srcA : Nat
  srcB : Nat
  count : Nat
  imm : Nat
  ext : Nat
  deriving DecidableEq, Repr

/-- The descriptor at an image offset. -/
def Mem.desc (img : Mem) (o : Nat) : Desc :=
  let rd := fun (k n : Nat) => Mem.rdLE img (o + k) n
  { op := rd 0 1, dtype := rd 1 1, sub := rd 2 1, flags := rd 3 1, dst := rd 4 4, srcA := rd 8 4, srcB := rd 0xC 4, count := rd 0x10 4,
    imm := rd 0x14 4, ext := rd 0x18 8 }

/-- FLAGS bits of R261. -/
def Desc.aStored (d : Desc) : Bool := bit d.flags 0
def Desc.bStored (d : Desc) : Bool := bit d.flags 1
def Desc.flag2 (d : Desc) : Bool := bit d.flags 2
def Desc.flag3 (d : Desc) : Bool := bit d.flags 3
def Desc.type (d : Desc) : DType := (DType.ofCode d.dtype).getD .opaque
/-- IMM as INT32. -/
def Desc.immInt (d : Desc) : Int := ofTwos 32 d.imm
/-- MSG_TAG, DEVICE and CORE, TREE_ID (R287). -/
def Desc.msgTag (d : Desc) : Nat := bits d.ext 32 32
def Desc.device (d : Desc) : Nat := bits d.ext 0 14
def Desc.destCore (d : Desc) : Nat := bits d.ext 14 12
def Desc.tree (d : Desc) : Nat := bits d.ext 0 32
/-- BINDING of EXT (R263). -/
def Desc.binding (d : Desc) : Nat := bits d.ext 59 5

/-- The iteration index of the open loop at depth LEVEL + 1. `loops` holds the innermost first. -/
def iterAt (loops : List LoopFrame) (level : Nat) : Int := ((loops.reverse[level]?).elim 0 (fun l => (l.iter : Int)))

/-- The crucible unit in effect of an address field (R262). -/
def unitOf (loops : List LoopFrame) (field : Nat) : Int := (bits field 0 14 : Int) + ofTwos 15 (bits field 17 15) * iterAt loops (bits field 14 2)

/-- The tile index in effect of a tile reference (R263). -/
def tileRef (loops : List LoopFrame) (ext : Nat) : Int := (bits ext 0 37 : Int) + ofTwos 19 (bits ext 37 19) * iterAt loops (bits ext 56 2)

/-- Region pane index of a pane part: R226 resolves a sliver-relative one. -/
def paneOf (rel : Bool) (rotation core k : Nat) : Nat := if rel then 4096 * k + (core + 4096 - rotation % 4096) % 4096 else k

/-! ### The crucible (R223, R264) -/

/-- Units that serve the running movement (R223). -/
def movementUnits : Nat := 15360

def Core.bytes (k : Core) (unit n : Nat) : List Byte := Mem.block k.crucible (16 * unit) n

/-- Write bytes from a unit: what fetches left there is no longer a slot that a fetch filled. -/
def Core.put (k : Core) (unit : Nat) (bs : List Byte) : Core :=
  let n := ceilDiv bs.length 16
  { k with crucible := Mem.splice k.crucible (16 * unit) bs.length (Mem.pack 0 bs),
           origins := k.origins.filter (fun o => decide (o.1 + 129 ≤ unit) || decide (unit + n ≤ o.1)) }

/-! ### Tiles in slots (R176, R179, R264) -/

/-- The table image in a table store slot: of a local region, or of another module (R170, R336). -/
def Mod.tableInSlot (m : Mod) (slot : Nat) : Option Mem :=
  match m.mem.regions.findSome? (fun g => g.2.tables.gens.findSome? (fun t => if t.2.slot = slot then some t.2.image else none)) with
  | some i => some i
  | none => (Tbl.find m.fm.foreignTables slot).map (fun x => x.2)

/-- A tile as the expander delivers it. -/
inductive Expanded where
  | ok (bytes : List Byte)
  | poisoned
  | formatError
  deriving DecidableEq, Repr

/-- Expand a tag and body (R156, R179, R663): the form is that of FORMAT, and MODE counts only for FORMAT 0x01 and for ZERO. -/
def Mod.expandTag (m : Mod) (tag body : List Byte) : Expanded :=
  let b := fun (i : Nat) => (tag.getD i 0).toNat
  let d := (DType.ofCode (b 1)).getD .opaque
  let mode := LMode.ofCode (b 2 % 4)
  if bit (b 2) 2 then .poisoned
  else
    match b 0 with
    | 0 => if b 2 % 4 = 0 then .ok (List.replicate 2048 0) else .ok ((body ++ List.replicate 2048 0).take 2048)
    | 2 => .ok (fritTileDecode d ((List.range 7).map (fun i => b (8 + i))) body)
    | 1 =>
      match mode, m.tableInSlot (b 4 + 256 * b 5) with
      | .zero, _ => .ok (List.replicate 2048 0)
      | .raw, _ => .ok ((body ++ List.replicate 2048 0).take 2048)
      | md, some t => (match lehrExpand d md t body with | some x => .ok x | none => .formatError)
      | _, none => .formatError
    | _ => .formatError

/-- The slot at a unit: its tag and body (R264). -/
def Core.slot (k : Core) (unit : Nat) : List Byte × List Byte :=
  let tag := k.bytes unit 16
  (tag, k.bytes (unit + 1) (16 * min 128 ((tag.getD 6 0).toNat + 256 * (tag.getD 7 0).toNat)))

def Mod.expandSlot (m : Mod) (k : Core) (unit : Nat) : Expanded := let s := k.slot unit; m.expandTag s.1 s.2

/-! ### What ends a run (R245) -/

/-- A run-time check that fails: status, REASON, and the binding and region pane that MOVEMENT_STATUS records. -/
structure CoreFault where
  status : Status
  reason : Nat
  at_ : Option (Nat × Nat) := none
  deriving DecidableEq, Repr

def windowFault (binding pane : Nat) : CoreFault := { status := .notPermitted, reason := 1, at_ := some (binding, pane) }
def rangeFault : CoreFault := { status := .notPermitted, reason := 2 }

/-- LEHR_FORMAT_ERROR against a core (R179, R663). -/
def Mod.coreFormatError (m : Mod) (c : Nat) (op : Opn) : Mod :=
  let v := (m.core c).movement
  let part := (v.bind (fun v => Tbl.find m.mvs v)).elim 0xFF (fun x => x.partition)
  m.logErr { unit := coreUnit c, code := 0x0101, sev := .contained, opn := op, partition := part, context := v.elim 0 m.idOf }

/-- Read `n` tiles in slots from a unit, expanded; poison is consumed (R179, R291). -/
def Mod.slotTiles (m : Mod) (c : Nat) (k : Core) (unit : Nat) : Nat → Mod × (List Byte ⊕ CoreFault)
  | 0 => (m, .inl [])
  | n + 1 =>
    let bad := CoreFault.mk .poisoned 3 (Tbl.find k.origins unit)
    match m.expandSlot k unit with
    | .poisoned => (m, .inr bad)
    | .formatError => (m.coreFormatError c .none, .inr bad)
    | .ok b =>
      match m.slotTiles c k (unit + 129) n with
      | (m1, .inl r) => (m1, .inl (b ++ r))
      | x => x

/-- An operand's elements: raw from its unit, or expanded from consecutive slots (R264). -/
def Mod.operand (m : Mod) (c : Nat) (k : Core) (stored : Bool) (unit : Nat) (d : DType) (n : Nat) : Mod × (List Nat ⊕ CoreFault) :=
  if stored then
    match m.slotTiles c k unit (ceilDiv n d.perTile) with
    | (m1, .inl b) => (m1, .inl ((elems d.bytes b).take n))
    | (m1, .inr f) => (m1, .inr f)
  else (m, .inl (elems d.bytes (k.bytes unit (n * d.bytes))))

/-- `n` tiles of operand data, each 2,048 B: raw tiles 128 units apart or slots 129 apart (R277, R284). -/
def Mod.tileOperand (m : Mod) (c : Nat) (k : Core) (stored : Bool) (unit n : Nat) : Mod × (List (List Byte) ⊕ CoreFault) :=
  if stored then
    match m.slotTiles c k unit n with
    | (m1, .inl b) => (m1, .inl (pieces 2048 n b))
    | (m1, .inr f) => (m1, .inr f)
  else (m, .inl (pieces 2048 n (k.bytes unit (n * 2048))))

/-! ### The units that a descriptor reads and writes (R224, R265) -/

/-- Units that `n` elements take, raw or stored. -/
def unitsOf (stored : Bool) (d : DType) (n : Nat) : Nat := if stored then 129 * ceilDiv n d.perTile else ceilDiv (n * d.bytes) 16

/-- Units of an attention state of row length D (R282). -/
def stateUnits (d : Nat) : Nat := ceilDiv (16 + 4 * d) 16

/-- Units of `n` tiles. -/
def tileUnits (stored : Bool) (n : Nat) : Nat := (if stored then 129 else 128) * n

/-- Units of the pane image at a unit: a Frit image by its DTYPE, a Lehr image by its BODY_UNITS. -/
def Core.imageUnits (k : Core) (unit : Nat) : Nat :=
  let h := Mem.pack 0 (k.bytes unit 16)
  if Mem.rdLE h 0 1 = 2 then (imageDType h).fritSectors * 16 else 8 + min 4096 (Mem.rdLE h 4 2)

/-- Result type of VEC and its element type (R275). -/
def Desc.vecOut (d : Desc) : DType := if d.flag2 then .fp32 else d.type

/-- Log2 D of the attention operations. -/
def Desc.rowLen (d : Desc) : Nat := 2 ^ d.sub

/-- The spans of units that a descriptor reads or writes, each as an address field and a length. `out` is the length of a Lehr image
that LEHR_ENCODE is about to write. -/
def Desc.spans (d : Desc) (k : Core) (out : Nat) : List (Nat × Nat) :=
  let t := d.type
  let n := d.count
  let a := (unitOf k.loops d.srcA).toNat
  match d.op with
  | 0x10 => [(d.dst, 129 * n)]
  | 0x11 => [(d.srcA, tileUnits d.aStored n)]
  | 0x12 => [(d.dst, 129 * n), (d.srcA, ceilDiv n 2)]
  | 0x13 => [(d.srcA, tileUnits d.aStored n), (d.srcB, ceilDiv n 2)]
  | 0x14 => [(d.srcA, k.imageUnits a)]
  | 0x20 => [(d.dst, n)]
  | 0x21 => [(d.srcA, n), (d.dst, n)]
  | 0x30 => [(d.srcA, unitsOf d.aStored t n), (d.dst, unitsOf false d.vecOut n)] ++ (if d.sub ≤ 5 then [(d.srcB, unitsOf d.bStored t n)] else [])
  | 0x31 => [(d.srcA, unitsOf d.aStored t n), (d.dst, unitsOf false ((DType.ofCode d.sub).getD .opaque) n)]
  | 0x32 => [(d.srcA, unitsOf false t d.rowLen), (d.srcB, unitsOf d.bStored t (n * d.rowLen)), (d.dst, ceilDiv n 4)]
  | 0x33 => [(d.srcA, ceilDiv n 4), (d.srcB, unitsOf d.bStored t (n * d.rowLen)), (d.dst, stateUnits d.rowLen)]
  | 0x34 => [(d.srcA, stateUnits d.rowLen), (d.dst, stateUnits d.rowLen)]
  | 0x40 => [(d.srcA, tileUnits d.aStored n), (d.srcB, tileUnits d.bStored n), (d.dst, 256)]
  | 0x50 => [(d.srcA, unitsOf d.aStored t n), (d.dst, 1)]
  | 0x51 => [(d.srcA, unitsOf d.aStored t n)] ++ (if d.flag2 then [] else [(d.srcB, unitsOf d.bStored t n)]) ++
      (if d.flag3 then [(d.dst, ceilDiv n 16)] else [])
  | 0x52 => [(d.srcA, unitsOf d.aStored t n), (d.dst, ceilDiv d.imm 2)] ++ (if d.flag3 then [(d.srcB, ceilDiv n 4)] else [])
  | 0x53 => [(d.srcA, if d.aStored then 129 * n else ceilDiv n 16), (d.dst, 1)]
  | 0x60 => [(d.srcA, tileUnits d.aStored 32), (d.dst, t.fritSectors * 16)]
  | 0x61 => [(d.srcA, tileUnits d.aStored 32), (d.dst, out)]
  | 0x62 => [(d.srcA, if d.sub = 0 then 129 * n else k.imageUnits a), (d.dst, 128 * n)]
  | 0x70 => [(d.srcA, n)]
  | 0x71 => [(d.dst, n)]
  | 0x72 => [(d.srcA, unitsOf false t n), (d.dst, unitsOf false t n)]
  | _ => []

/-- The spans whose lengths the descriptor alone gives, and the first unit of an image whose header gives its length. -/
def Desc.knownSpans (d : Desc) (k : Core) : List (Nat × Nat) :=
  match d.op with
  | 0x14 => [(d.srcA, 1)]
  | 0x61 => [(d.srcA, tileUnits d.aStored 32)]
  | 0x62 => [(d.srcA, if d.sub = 0 then 129 * d.count else 1), (d.dst, 128 * d.count)]
  | _ => d.spans k 0

/-- The crucible range check (R245, R265). -/
def spansOk (k : Core) (l : List (Nat × Nat)) : Bool :=
  l.all (fun s => s.2 = 0 || (decide (0 ≤ unitOf k.loops s.1) && decide (unitOf k.loops s.1 + s.2 ≤ (movementUnits : Int))))

/-- The units that an issued fetch, FAB_RECV or FAB_REDUCE of the core has yet to write (R224, R289, R290). -/
def Core.busyUnits (k : Core) (tab : Nat → DType) : List (Nat × Nat) :=
  k.fetches.map (fun f => (f.dest, 129)) ++
  k.waits.filterMap (fun w => match w with
    | .recv _ _ _ dst n => some (dst, n)
    | .reduce t _ dst n wr => if wr then some (dst, unitsOf false (tab t) n) else none)

/-- The descriptor may begin: every unit that it reads or writes is at rest (R224). -/
def spansFree (k : Core) (busy l : List (Nat × Nat)) : Bool :=
  l.all (fun s => !meets busy (unitOf k.loops s.1).toNat s.2)

end Sys2Proof.Machine
end

