-- ==== Sys2Proof/Machine/MvImage.lean ====
section
/-! DEFINITION. Movement images and their load-time checks (spec/07_sliver_cores_movements.md R228 to R238,
spec/08_operation_reference.md R261 to R267). -/
namespace Sys2Proof.Machine

/-! ### The image (R229 to R234) -/

def imgWord (img : Mem) (o n : Nat) : Nat := Mem.rdLE img o n
def imgBytes (img : Mem) : Nat := imgWord img 8 4
def imgFabric (img : Mem) : Bool := bit (imgWord img 6 2) 0
def imgCoreCount (img : Mem) : Nat := imgWord img 0xC 2
def imgBeats (img : Mem) : Nat := imgWord img 0xE 2
def imgBindings (img : Mem) : Nat := imgWord img 0x10 1
def imgUnits (img : Mem) : Nat := imgWord img 0x12 2
def imgCoreSet (img : Mem) : Nat := imgWord img 0x14 4
def imgDir (img : Mem) : Nat := imgWord img 0x18 4
def imgBeatTable (img : Mem) : Nat := imgWord img 0x1C 4
def imgBindTable (img : Mem) : Nat := imgWord img 0x20 4
def imgSymTable (img : Mem) : Nat := imgWord img 0x24 4
def imgSymbols (img : Mem) : Nat := imgWord img 0x28 4
def imgBuildId (img : Mem) : Nat := imgWord img 0x30 8

/-- Core `c` is in the core set (R230). -/
def inCoreSet (img : Mem) (c : Nat) : Bool := bit (imgWord img (imgCoreSet img + c / 8) 1) (c % 8)

/-- The cores of the set, ascending. -/
def coreSet (img : Mem) : List Nat := (List.range 4096).filter (inCoreSet img)

/-- The entry of the stream directory for the `k`-th core: core, stream offset, descriptors (R231). -/
def dirEntry (img : Mem) (k : Nat) : Nat × Nat × Nat :=
  let e := imgDir img + 16 * k
  (imgWord img e 2, imgWord img (e + 4) 4, imgWord img (e + 8) 4)

/-- Stream offset and length of a core. -/
def streamOf (img : Mem) (c : Nat) : Nat × Nat :=
  match ((List.range (imgCoreCount img)).map (dirEntry img)).find? (fun e => e.1 = c) with
  | some e => e.2
  | none => (0, 0)

/-- The descriptor at a position of a core's stream. -/
def descAt (img : Mem) (c pc : Nat) : Option Desc :=
  let s := streamOf img c
  if pc < s.2 then some (Mem.desc img (s.1 + 32 * pc)) else none

/-- ACCESS, DTYPE and FORM of a binding (R233). -/
def bindAccess (img : Mem) (n : Nat) : Nat := imgWord img (imgBindTable img + 8 * n + 2) 1
def bindDType (img : Mem) (n : Nat) : Nat := imgWord img (imgBindTable img + 8 * n + 3) 1
def bindForm (img : Mem) (n : Nat) : Nat := imgWord img (imgBindTable img + 8 * n + 4) 1

/-- A symbol (R234): kind, binding, beat, first pane, panes. -/
def symbolAt (img : Mem) (k : Nat) : Nat × Nat × Nat × Nat × Nat :=
  let e := imgSymTable img + 64 * k
  (imgWord img e 1, imgWord img (e + 2) 1, imgWord img (e + 4) 2, imgWord img (e + 8) 8, imgWord img (e + 16) 8)

/-! ### Checks 1 to 3 (R238) -/

/-- One condition that must hold, with the image offset of the field that it tests. -/
abbrev Need := Bool × Nat

/-- The offset of the first condition that fails. -/
def firstBad (l : List Need) : Option Nat := (l.find? (fun p => !p.1)).map (fun p => p.2)

/-- The same over the entries of a table, without building the whole list. -/
def firstBadIn (n : Nat) (f : Nat → List Need) : Option Nat := (List.range n).findSome? (fun k => firstBad (f k))

/-- Check 1. -/
def check1 (img : Mem) (len : Nat) : Option Nat :=
  firstBad [(decide (64 ≤ len) && imgWord img 0 4 == 0x46524F4E, 0), (imgWord img 5 1 == 1, 4),
    (imgBytes img % 64 == 0 && decide (imgBytes img ≤ 268435456) && imgBytes img == len, 8)]

/-- Offset field and size of each section but the header and the streams (R228). -/
def sections (img : Mem) : List (Nat × Nat) :=
  [(0x14, 512), (0x18, 16 * imgCoreCount img), (0x1C, 8 * imgBeats img), (0x20, 8 * imgBindings img)] ++
  (if imgSymbols img = 0 then [] else [(0x24, 64 * imgSymbols img)])

/-- Two intervals meet. -/
def overlap (a b : Nat × Nat) : Bool := decide (a.1 < b.1 + b.2) && decide (b.1 < a.1 + a.2)

/-- Check 2: counts, offsets, sections and reserved fields. -/
def check2 (img : Mem) : Option Nat :=
  let secs := (sections img).map (fun s => (imgWord img s.1 4, s.2))
  let spans := (0, 64) :: secs
  let streams := (List.range (imgCoreCount img)).map (fun k => ((dirEntry img k).2.1, 32 * (dirEntry img k).2.2))
  let w := imgWord img
  let first := fun (a : Option Nat) (b : Unit → Option Nat) => match a with | some x => some x | none => b ()
  let header := firstBad
    [(w 6 2 / 2 == 0, 6), (decide (1 ≤ imgCoreCount img) && decide (imgCoreCount img ≤ 4096), 0xC), (imgBeats img != 0, 0xE),
     (decide (1 ≤ imgBindings img) && decide (imgBindings img ≤ 24), 0x10), (w 0x11 1 == 0, 0x11),
     (decide (1 ≤ imgUnits img) && decide (imgUnits img ≤ 15360), 0x12), (decide (imgSymbols img ≤ 65535), 0x28), (w 0x2C 4 == 0, 0x2C),
     (w 0x38 8 == 0, 0x38), (imgSymbols img != 0 || imgSymTable img == 0, 0x24)]
  first header fun _ =>
  first (firstBadIn (sections img).length (fun i =>
    let s := (sections img).getD i (0, 0)
    let o := (imgWord img s.1 4, s.2)
    [(o.1 % 64 == 0 && decide (o.1 + o.2 ≤ imgBytes img) && ((0, 64) :: secs.take i).all (fun t => !overlap o t), s.1)])) fun _ =>
  first (firstBadIn (imgCoreCount img) (fun k =>
    let e := imgDir img + 16 * k
    let s := streams.getD k (0, 0)
    [(decide (w e 2 < 4096), e), (w (e + 2) 2 == 0, e + 2), (w (e + 4) 4 % 32 == 0, e + 4),
     (decide (1 ≤ w (e + 8) 4) && decide (w (e + 8) 4 ≤ 524288), e + 8), (w (e + 12) 4 == 0, e + 12),
     (spans.all (fun t => !overlap s t) && (streams.take k).all (fun t => t.1 == s.1 && t.2 == s.2 || !overlap s t), e + 4)])) fun _ =>
  first (firstBadIn (imgBeats img) (fun k => let e := imgBeatTable img + 8 * k; [(w (e + 6) 2 == 0, e + 6)])) fun _ =>
  first (firstBadIn (imgBindings img) (fun k =>
    let e := imgBindTable img + 8 * k
    [(w (e + 2) 1 == 1 || w (e + 2) 1 == 2, e + 2), (decide (w (e + 3) 1 ≤ 7) || w (e + 3) 1 == 0xFF, e + 3),
     (decide (w (e + 4) 1 ≤ 2) || w (e + 4) 1 == 0xFF, e + 4), (w (e + 5) 3 == 0, e + 5)])) fun _ =>
  firstBadIn (imgSymbols img) (fun k =>
    let e := imgSymTable img + 64 * k
    let kind := w e 1
    let len := w (e + 1) 1
    [(kind == 1 || kind == 2, e), (decide (1 ≤ len) && decide (len ≤ 40), e + 1), (kind == 1 || w (e + 2) 1 == 0, e + 2), (w (e + 3) 1 == 0, e + 3),
     (kind == 2 || w (e + 4) 2 == 0, e + 4), (w (e + 6) 2 == 0, e + 6),
     ((Mem.rdBytes img (e + 0x18 + len) (40 - len)).all (· == 0), e + 0x18 + len)])

/-- Check 3: the core set and the directory agree, and every stream lies within the image (R230, R231). -/
def check3 (img : Mem) : Option Nat :=
  let cores := coreSet img
  match if cores.length = imgCoreCount img then none else some (imgCoreSet img) with
  | some o => some o
  | none => firstBadIn (imgCoreCount img) (fun k =>
      let d := dirEntry img k
      let e := imgDir img + 16 * k
      [(d.1 == cores.getD k 4096, e), (decide (d.2.1 + 32 * d.2.2 ≤ imgBytes img), e + 4)])

/-! ### Check 4: each descriptor (R265, R267, R268 to R290) -/

def anyT : List DType := [.opaque, .bf16, .fp16, .fp32, .e4m3, .e5m2, .int8, .int32]
def numT : List DType := [.bf16, .fp16, .fp32, .e4m3, .e5m2, .int8, .int32]
def floatT : List DType := [.bf16, .fp16, .fp32, .e4m3, .e5m2]
def half : List DType := [.bf16, .fp16]
def mmaT : List DType := [.bf16, .fp16, .e4m3, .e5m2, .int8]
def fritT : List DType := [.bf16, .fp16, .fp32]

/-- How an opcode uses EXT. -/
inductive ExtUse where
  | none | tile | list | pane | bind | message | tree | index
  deriving DecidableEq, Repr

/-- What check 4 allows a descriptor: DTYPEs (none is 0xFF), the range of COUNT, the operands in use, FLAGS bits, EXT. -/
structure DescRule where
  types : Option (List DType)
  lo : Nat := 0
  hi : Nat := 0
  dst : Bool := false
  srcA : Bool := false
  srcB : Bool := false
  imm : Bool := false
  flags : Nat := 0
  ext : ExtUse := .none
  deriving DecidableEq, Repr

/-- Largest COUNT of the element operations: the field's own. -/
def anyCount : Nat := 2 ^ 32 - 1

/-- The rule of a descriptor's opcode with its SUB; none for a SUB that the opcode has not. -/
def Desc.rule (d : Desc) : Option DescRule :=
  let s := d.sub
  let sub0 := fun (r : DescRule) => if s = 0 then some r else none
  match d.op with
  | 0x00 => sub0 { types := none }
  | 0x01 => sub0 { types := none, lo := 1, hi := 16777216 }
  | 0x02 => sub0 { types := none }
  | 0x03 => if s < 8 then some { types := none, lo := 1, hi := 255 } else none
  | 0x04 => sub0 { types := none }
  | 0x10 => sub0 { types := none, lo := 1, hi := 64, dst := true, ext := .tile }
  | 0x11 => sub0 { types := none, lo := 1, hi := 64, srcA := true, flags := 1, ext := .tile }
  | 0x12 => sub0 { types := none, lo := 1, hi := 64, dst := true, srcA := true, ext := .list }
  | 0x13 => sub0 { types := none, lo := 1, hi := 64, srcA := true, srcB := true, flags := 1, ext := .list }
  | 0x14 => sub0 { types := none, srcA := true, ext := .pane }
  | 0x20 =>
    if s = 0 then some { types := none, lo := 1, hi := 15360, dst := true }
    else if s = 1 then some { types := some anyT, lo := 1, hi := 15360, dst := true, imm := true }
    else if s = 2 then some { types := some [.int32, .fp32], lo := 1, hi := 15360, dst := true, imm := true }
    else none
  | 0x21 => sub0 { types := none, lo := 1, hi := 15360, dst := true, srcA := true }
  | 0x30 =>
    let ts := if 10 ≤ s then floatT else anyT
    let wide := if d.type = .e4m3 ∨ d.type = .e5m2 then d.flag2 else true
    if 12 < s ∨ !wide then none
    else some { types := some ts, lo := 1, hi := anyCount, dst := true, srcA := true, srcB := decide (s ≤ 5), imm := s == 6 || s == 7,
                flags := if s ≤ 5 then 7 else 5 }
  | 0x31 => match DType.ofCode s with
    | some .opaque => none
    | some _ => some { types := some numT, lo := 1, hi := anyCount, dst := true, srcA := true, flags := 1 }
    | none => none
  | 0x32 => if 5 ≤ s ∧ s ≤ 8 then some { types := some half, lo := 1, hi := 1024, dst := true, srcA := true, srcB := true, imm := true, flags := 2 } else none
  | 0x33 => if 5 ≤ s ∧ s ≤ 8 then some { types := some half, lo := 1, hi := 1024, dst := true, srcA := true, srcB := true, flags := 2 } else none
  | 0x34 => if 5 ≤ s ∧ s ≤ 8 then some { types := none, dst := true, srcA := true } else none
  | 0x40 =>
    let b := if s = 0 then some d.type else DType.ofCode s
    (match b with
      | some t => if mmaT.contains t ∧ (t.bytes = d.type.bytes ∨ s = 0) then
          some { types := some mmaT, lo := 1, hi := 32, dst := true, srcA := true, srcB := true, flags := 15 } else none
      | none => none)
  | 0x50 => if s ≤ 2 then some { types := some numT, lo := 1, hi := anyCount, dst := true, srcA := true, flags := 5 }
            else if s = 3 then some { types := some numT, lo := 1, hi := anyCount, dst := true, srcA := true, imm := true, flags := 1 } else none
  | 0x51 => if s < 64 ∧ s % 8 ≤ 5 then
      some { types := some numT, lo := 1, hi := anyCount, dst := d.flag3, srcA := true, srcB := !d.flag2, imm := d.flag2,
             flags := if d.flag2 then 13 else 15 } else none
  | 0x52 => sub0 { types := some numT, lo := 1, hi := anyCount, dst := true, srcA := true, srcB := d.flag3, imm := true, flags := 13,
                   ext := if d.flag3 then .none else .index }
  | 0x53 => sub0 { types := none, lo := 1, hi := anyCount, dst := true, srcA := true, imm := true, flags := 1 }
  | 0x60 => sub0 { types := some fritT, dst := true, srcA := true, flags := 1 }
  | 0x61 => sub0 { types := some anyT, dst := true, srcA := true, flags := 1, ext := .bind }
  | 0x62 => if s = 0 then some { types := none, lo := 1, hi := 32, dst := true, srcA := true }
            else if s = 1 then some { types := some fritT, lo := 1, hi := 32, dst := true, srcA := true, imm := true }
            else if s = 2 then some { types := some anyT, lo := 1, hi := 32, dst := true, srcA := true, imm := true, ext := .bind } else none
  | 0x70 => sub0 { types := none, lo := 1, hi := 4096, srcA := true, flags := 1, ext := .message }
  | 0x71 => sub0 { types := none, lo := 1, hi := 4096, dst := true, ext := .message }
  | 0x72 => if s ≤ 2 then some { types := some [.bf16, .fp32, .int32], lo := 1, hi := 16384, dst := true, srcA := true, flags := 4, ext := .tree } else none
  | _ => none

/-- An opcode of the opcode table (R267). -/
def knownOp (op : Nat) : Bool :=
  [0x00, 0x01, 0x02, 0x03, 0x04, 0x10, 0x11, 0x12, 0x13, 0x14, 0x20, 0x21, 0x30, 0x31, 0x32, 0x33, 0x34, 0x40, 0x50, 0x51, 0x52, 0x53, 0x60, 0x61,
   0x62, 0x70, 0x71, 0x72].contains op

/-- An address field in use (R262, R265); `depth` loops enclose the descriptor. -/
def addrOk (field depth units : Nat) : Bool :=
  !bit field 16 && decide (bits field 0 14 < units) &&
    (if bits field 17 15 = 0 then bits field 14 2 = 0 else decide (bits field 14 2 < depth))

/-- EXT as an opcode uses it (R263, R265, R271, R272, R280, R285 to R287). -/
def extOk (ext depth bindings : Nat) : ExtUse → Bool
  | .none => ext == 0
  | .tree => true
  | .message => bits ext 26 6 == 0
  | .index => ext / 2 ^ 32 == 0
  | .bind => decide (bits ext 59 5 < bindings) && ext % 2 ^ 59 == 0
  | .list => decide (bits ext 59 5 < bindings) && ext % 2 ^ 58 == 0
  | .tile => decide (bits ext 59 5 < bindings) && (if bits ext 37 19 = 0 then bits ext 56 2 == 0 else decide (bits ext 56 2 < depth))
  | .pane => decide (bits ext 59 5 < bindings) && (if bits ext 37 19 = 0 then bits ext 56 2 == 0 else decide (bits ext 56 2 < depth)) &&
      bits ext 0 37 % 32 == 0

/-- Offset within the descriptor of the first field that check 4 rejects. -/
def Desc.fault (d : Desc) (depth bindings units : Nat) : Option Nat :=
  if !knownOp d.op then some 0
  else
    match d.rule with
    | none => some (if d.op = 0x30 ∧ d.sub ≤ 12 then 3 else 2)
    | some r =>
      firstBad
        [(match r.types with
            | none => d.dtype == 0xFF || (d.dtype == 0 && decide (d.op < 0x10))
            | some ts => (match DType.ofCode d.dtype with | some t => ts.contains t | none => false), 1),
         ((List.range 8).all (fun i => !bit d.flags i || bit r.flags i), 3),
         (if r.dst then addrOk d.dst depth units else d.dst == 0, 4), (if r.srcA then addrOk d.srcA depth units else d.srcA == 0, 8),
         (if r.srcB then addrOk d.srcB depth units else d.srcB == 0, 0xC),
         (decide (r.lo ≤ d.count) && decide (d.count ≤ r.hi) && (d.op != 0x70 || !d.aStored || d.count % 129 == 0), 0x10),
         ((r.imm || d.imm == 0) && (d.op != 0x52 || (decide (1 ≤ d.imm) && decide (d.imm ≤ 256))) &&
           (d.op != 0x62 || d.sub == 0 || decide (d.imm + d.count ≤ 32)), 0x14),
         (extOk d.ext depth bindings r.ext, 0x18)]

/-- The loop depth before a descriptor, from the one before it. -/
def depthAfter (depth op : Nat) : Nat := if op = 0x01 then depth + 1 else if op = 0x02 then depth - 1 else depth

/-- Check 4 over a stream from position `i`: the image offset of the first field at fault. -/
def check4 (img : Mem) (o bindings units : Nat) : Nat → Nat → Nat → Option Nat
  | 0, _, _ => none
  | n + 1, i, depth =>
    let d := Mem.desc img (o + 32 * i)
    match d.fault depth bindings units with
    | some k => some (o + 32 * i + k)
    | none => check4 img o bindings units n (i + 1) (depthAfter depth d.op)

/-! ### Check 5: loops, skips and barriers (R225) -/

/-- A skip from position `i` over `n` descriptors passes whole loops and no barrier, and lands in the loop body that it stands in. -/
def skipOk (img : Mem) (o : Nat) : Nat → Nat → Nat → Bool
  | 0, _, depth => depth == 0
  | n + 1, i, depth =>
    let op := (Mem.desc img (o + 32 * (i + 1))).op
    op != 0x04 && (op != 0x02 || depth != 0) && skipOk img o n (i + 1) (depthAfter depth op)

/-- Check 5 over a stream of `len` descriptors from position `i`, with the depth and the barriers so far. -/
def check5 (img : Mem) (o len beats : Nat) : Nat → Nat → Nat → Nat → Option Nat
  | 0, _, depth, bars => if depth = 0 ∧ bars = beats ∧ (Mem.desc img (o + 32 * (len - 1))).op = 0x04 then none else some (o + 32 * (len - 1))
  | n + 1, i, depth, bars =>
    let d := Mem.desc img (o + 32 * i)
    let bad := match d.op with
      | 0x01 => decide (4 ≤ depth)
      | 0x02 => depth == 0
      | 0x03 => decide (len ≤ i + 1 + d.count) || !skipOk img o d.count i 0
      | 0x04 => depth != 0 || decide (beats ≤ bars)
      | _ => false
    if bad then some (o + 32 * i) else check5 img o len beats n (i + 1) (depthAfter depth d.op) (if d.op = 0x04 then bars + 1 else bars)

/-- Apply a check to every stream. -/
def eachStream (img : Mem) (f : Nat → Nat → Option Nat) : Option Nat :=
  (List.range (imgCoreCount img)).findSome? (fun k => f (dirEntry img k).2.1 (dirEntry img k).2.2)

/-! ### Checks 6 and 7 -/

/-- A symbol index is 0xFFFF or names a symbol of the kind. -/
def symOk (img : Mem) (k kind : Nat) : Bool := k == 0xFFFF || (decide (k < imgSymbols img) && (symbolAt img k).1 == kind)

def check6 (img : Mem) : Option Nat :=
  let w := imgWord img
  match firstBadIn (imgSymbols img) (fun k =>
      let e := imgSymTable img + 64 * k
      let s := symbolAt img k
      [(s.1 != 1 || decide (s.2.1 < imgBindings img), e + 2), (s.1 != 2 || decide (s.2.2.1 < imgBeats img), e + 4)]) with
  | some o => some o
  | none =>
    match firstBadIn (imgBeats img) (fun k => let e := imgBeatTable img + 8 * k; [(symOk img (w (e + 4) 2) 2, e + 4)]) with
    | some o => some o
    | none => firstBadIn (imgBindings img) (fun k => let e := imgBindTable img + 8 * k; [(symOk img (w e 2) 1, e)])

/-- The first fabric operation of a stream. -/
def fabricIn (img : Mem) (o n : Nat) : Option Nat :=
  (List.range n).findSome? (fun i => if 0x70 ≤ (Mem.desc img (o + 32 * i)).op then some (o + 32 * i) else none)

def check7 (img : Mem) (addressed : Bool) : Option Nat :=
  if imgFabric img then (if addressed then none else some 6) else eachStream img (fabricIn img)

/-- Checks 1 to 7 in order: the number of the first that fails, and the image offset of the fault (R238). -/
def imageFault (img : Mem) (len : Nat) (addressed : Bool) : Option (Nat × Nat) :=
  let tag := fun (n : Nat) (r : Option Nat) => r.map (fun o => (n, o))
  match tag 1 (check1 img len) with
  | some x => some x
  | none =>
    match tag 2 (check2 img) with
    | some x => some x
    | none =>
      match tag 3 (check3 img) with
      | some x => some x
      | none =>
        match tag 4 (eachStream img (fun o n => check4 img o (imgBindings img) (imgUnits img) n 0 0)) with
        | some x => some x
        | none =>
          match tag 5 (eachStream img (fun o n => check5 img o n (imgBeats img) n 0 0 0)) with
          | some x => some x
          | none =>
            match tag 6 (check6 img) with
            | some x => some x
            | none => tag 7 (check7 img addressed)

end Sys2Proof.Machine
end

