-- ==== Sys2Proof/Machine/Movements.lean ====
section
/-! DEFINITION. Movements: loading and its checks, starts, barriers, stops, faults and the end of a run, and the tile fetches and
stores of the cores (spec/07_sliver_cores_movements.md R235 to R255; spec/08_operation_reference.md R269 to R272). -/
namespace Sys2Proof.Machine

/-! ### Looking at movements and cores -/

/-- The running or stopping movement that a core belongs to. -/
def Mod.runOf (m : Mod) (c : Nat) : Option (Nat × Movement) :=
  match (m.core c).movement with
  | some v => (match Tbl.find m.mvs v with
      | some x => if x.state = .running ∨ x.state = .stopping then some (v, x) else none
      | none => none)
  | none => none

/-- A core belongs to a RUNNING or STOPPING movement. -/
def Mod.coreBusy (m : Mod) (c : Nat) : Bool := (m.runOf c).isSome

/-- The service record of a core. -/
def CoreTest.init : CoreTest :=
  { step := 0, pendingStep := none, suspect := false, fenced := false, fencePending := false, failedKernels := 0, failures := 0,
    lastPassFtc := 0, due := [], deferred := false, nextKernel := 0, transients := [], lastFailed := 0 }

def Mod.coreTest (m : Mod) (c : Nat) : CoreTest := Tbl.findD m.test.cores c CoreTest.init

def Mod.setCoreTest (m : Mod) (c : Nat) (f : CoreTest → CoreTest) : Mod :=
  m.setTest (fun t => { t with cores := Tbl.updD t.cores c CoreTest.init f })

/-- Partitions with a loaded movement whose core set holds a core (R505). -/
def Mod.partsWithCore (m : Mod) (c : Nat) : List Nat :=
  (Tbl.keys m.mem.parts).filter (fun p => m.mvs.any (fun v => v.2.partition = p && v.2.state != MvState.loading && inCoreSet v.2.image c))

/-- Fence cores that belong to no run: CORE_FENCED for each, and UNIT_FENCED with their number to the partitions of R505 (R252, R507). -/
def Mod.fenceAll (m : Mod) (cs : List Nat) : Mod :=
  match cs.filter (fun c => !(m.coreTest c).fenced) with
  | [] => m
  | c0 :: rest =>
    let new := c0 :: rest
    let m1 := m.each new (fun m c =>
      (m.setCoreTest c (fun k => { k with fenced := true, fencePending := false, suspect := false, pendingStep := none, due := [], deferred := false })).logErr
        { unit := coreUnit c, code := 0x0108, sev := .unit, opn := .test, detail := (m.coreTest c).lastFailed })
    let parts := (Tbl.keys m1.mem.parts).filter (fun p => new.any (fun c => (m1.partsWithCore c).contains p))
    m1.each parts (fun m p => m.raise 0x0B01 p (coreUnit c0 + new.length * 65536) 0 0)

def Mod.fenceNow (m : Mod) (c : Nat) : Mod := m.fenceAll [c]

/-- Fence cores, those that belong to a run at the end of that run (R252). -/
def Mod.fenceCores (m : Mod) (cs : List Nat) : Mod :=
  let m1 := m.each (cs.filter m.coreBusy) (fun m c => m.setCoreTest c (fun k => { k with fencePending := true }))
  m1.fenceAll (cs.filter (fun c => !m.coreBusy c))

/-- A guard-band step takes effect on a core, and GUARD_BAND_STEP is logged (R506). -/
def Mod.stepNow (m : Mod) (c step : Nat) : Mod :=
  (m.setCoreTest c (fun k => { k with step := step, pendingStep := none })).logErr
    { unit := coreUnit c, code := 0x0107, sev := .unit, opn := .test, detail := step + (c / 128) * 256 }

/-- Steps that wait for a beat boundary take effect (R506). -/
def Mod.boundarySteps (m : Mod) (set : List Nat) : Mod :=
  m.each set (fun m c => match (m.coreTest c).pendingStep with | some s => m.stepNow c s | none => m)

/-- The lowest fenced core of a core set. -/
def Mod.fencedIn (m : Mod) (img : Mem) : Option Nat := (coreSet img).find? (fun c => (m.coreTest c).fenced)

/-! ### Bindings (R235, R236, R245) -/

/-- A partition may name a region in a binding. -/
def Mod.bindable (m : Mod) (part id : Nat) : Bool :=
  if id < 0x8000 then m.mayReach part id else (Tbl.find m.fm.regions (id - 0x8000)).elim false (fun f => f.partition = part)

/-- The region that gives a binding its attributes: for a fabric region the local part, where the module has one. -/
def Mod.bindRegion (m : Mod) (id : Nat) : Option Region :=
  if id < 0x8000 then Tbl.find m.mem.regions id
  else
    match Tbl.find m.fm.regions (id - 0x8000) with
    | some f => if f.accessor then none else Tbl.find m.mem.regions f.localRegion
    | none => none

/-- The version that a binding reaches (R236): context slot 65,536 stands for CONTEXT_ID 0. -/
def Mod.bindSel (m : Mod) (b : Nat × Nat) : Option VerSel :=
  if b.1 = 65536 then some .head
  else
    match Tbl.find m.ctxs b.1 with
    | some c => (match c.obj with | .view _ v => some (.sealed v) | .working _ _ _ => some (.working b.1) | _ => none)
    | none => none

/-- One entry of the binding list of MOVEMENT_LOAD: the slot, or the refusal. -/
def Mod.bindEntry (m : Mod) (r : Req) (n : Nat) : (Nat × Nat) ⊕ Reply :=
  let off := 0x18 + 8 * n
  let id := r.arg (off + 4) 2
  let bad := fun (o : Nat) => Sum.inr { status := .badArgument, detail := 0x10 + o : Reply }
  if !m.bindable r.partD id then bad (off + 4)
  else if r.arg (off + 6) 2 ≠ 0 then bad (off + 6)
  else if r.arg off 4 = 0 then .inl (65536, id)
  else
    match m.liveCtx (r.arg off 4) r.partD with
    | none => bad off
    | some (s, c) =>
      match c.obj with
      | .view g _ => if g = id then .inl (s, id) else bad off
      | .working g _ _ => if g = id then .inl (s, id) else bad off
      | _ => bad off

/-- The bindings of MOVEMENT_LOAD, or the first refusal. -/
def Mod.bindList (m : Mod) (r : Req) : List Nat → List (Nat × Nat) ⊕ Reply
  | [] => .inl []
  | n :: ns =>
    match m.bindEntry r n with
    | .inr e => .inr e
    | .inl b => (match m.bindList r ns with | .inl bs => .inl (b :: bs) | .inr e => .inr e)

/-- CONTEXT_ID 0 with a VERSIONING ON region: the row of R236 that permits nothing. An accessor of a fabric region, to which no message
tells its VERSIONING, permits it for none (DESIGN CHOICE). -/
def Mod.bindNothing (m : Mod) (b : Nat × Nat) : Bool :=
  b.1 = 65536 && (m.bindRegion b.2).elim (decide (0x8000 ≤ b.2)) (fun g => g.versioning)

/-! ### Loading (R235 to R238) -/

/-- Deliver a record for a context that stays as it is. -/
def Mod.report (m : Mod) (slot : Nat) (st : Status) (detail data : Nat) : Mod :=
  match Tbl.find m.ctxs slot with
  | none => m
  | some c =>
    if c.noRing then m
    else m.ringRecord c.chan { tag := c.tag, context := ctxId slot c, status := st, kind := 0, code := c.opcode, detail := detail, data := data }

/-- A movement just accepted (R237). -/
def Movement.init (part : Nat) (bs : List (Nat × Nat)) (buf : Nat × Nat × Nat) (who : Owner) : Movement :=
  { partition := part, state := .loading, image := [], length := buf.2.1, imageAt := none, bindings := bs, buffer := buf, owner := who, beat := 0,
    lastStatus := .pending, lastDetail := 0, runs := 0, faultPane := 0, faultBinding := 0, longBeats := 0, runNs := 0, droppedTiles := 0,
    dropCore := none, numericFlags := 0, stopMode := 0, ending := none, startChan := 0, startTag := 0, startNoRing := true, timeLimitMs := 0,
    startedAt := 0, beatStart := 0, longBeatRaised := false, hangDeclared := false, hangStop := false, stopAt := 0, poisonLogged := false,
    stopCtxs := [] }

/-- Take the T0 image area of a movement into which its image is read, where it fits the partition's maximum share and there is room (R237,
R238). -/
def Mod.takeArea (m : Mod) (slot : Nat) : Mod :=
  match Tbl.find m.mvs slot with
  | none => m
  | some v =>
    let n := ceilDiv v.length 256
    match if v.imageAt.isNone ∧ m.shareOk v.partition (n * 256) then m.t0Alloc true n 1 else none with
    | some s => m.setMv slot (fun x => { x with imageAt := some s })
    | none => m

/-- MOVEMENT_LOAD (R235, R237): accepted, the module reads the image. -/
def cmdMovementLoad : Cmd := fun r m =>
  let n := r.arg 0x10 1
  match r.buffer 0 with
  | .inr off => badArg m off
  | .inl buf =>
    if n = 0 ∨ 24 < n then badArg m 0x10
    else if slotArgLen r.slot ≠ 24 + 8 * n then fail m .badArgument 0x04
    else if r.arg 0x11 7 ≠ 0 then badArg m 0x11
    else if !spaceOk r.owner buf.2.2 then fail m .notPermitted
    else
      match m.bindList r (List.range n) with
      | .inr e => (m, e)
      | .inl bs =>
        match (List.range n).find? (fun i => m.bindNothing (bs.getD i (0, 0))) with
        | some i => fail m .notPermitted (0x28 + 8 * i)
        | none =>
          if 256 ≤ m.mvs.length then fail m .noResource
          else
            match m.newCtx r .none (.movement 0) none with
            | (m1, .inr e) => (m1, e)
            | (m1, .inl s) =>
              let m2 := m1.setCtx s (fun c => { c with work := .load s, obj := .movement s })
              let m3 := ({ m2 with mvs := Tbl.put m2.mvs s (Movement.init r.partD bs buf r.owner) } : Mod).takeArea s
              ((m3.readBuffer (4096 + s) 0 0x10 r.owner r.partD buf.1 buf.2.1 buf.2.2).1, { status := .accepted, context := m3.idOf s })

/-- Drop foreign table slots that no loaded movement holds any longer (R336). -/
def Mod.dropForeign (m : Mod) : Mod :=
  let gone := m.fm.foreignTables.filter (fun t => !m.mvs.any (fun v => v.2.bindings.any (fun b => b.2 = 0x8000 + t.2.1.2.1)))
  (m.setFm (fun e => { e with foreignTables := e.foreignTables.filter (fun t => !gone.any (fun g => g.1 = t.1)) })).each gone
    (fun m t => m.returnSlot t.1)

/-- Remove a movement: its image area and its holds go with it, and captures armed for it end ABORTED (R251, R549). -/
def Mod.removeMv (m : Mod) (slot : Nat) : Mod :=
  let caps := m.svc.hang.captures.filter (fun c => c.movement = slot)
  let m1 := ({ m with mvs := Tbl.del m.mvs slot, cores := Tbl.mapV m.cores (fun _ k => if k.movement = some slot then { k with movement := none } else k) }).dropBufs (4096 + slot)
  let m2 := m1.setHang (fun h => { h with captures := h.captures.filter (fun c => c.movement != slot) })
  (m2.each caps (fun m c => m.finish c.ctxSlot .aborted 0 0)).dropForeign

/-- The lasting object of a context goes, and its lease follows; the context itself completes. -/
def Mod.endObject (m : Mod) (slot : Nat) (st : Status) (detail data : Nat) : Mod :=
  match Tbl.find m.ctxs slot with
  | none => m
  | some c =>
    let m1 := (m.setCtx slot (fun c => { c with obj := .none })).finish slot st detail data
    match c.holder with | some l => m1.leaseSync l | none => m1

/-- A load ends without a movement (R238). -/
def Mod.loadFail (m : Mod) (slot : Nat) (st : Status) (detail data : Nat) : Mod := (m.removeMv slot).endObject slot st detail data

/-- A load whose buffer cannot be read: check 1 (R238); a poisoned one completes with POISONED (R469). -/
def Mod.loadUnread (m : Mod) (slot : Nat) (st : Status) : Mod :=
  if st = .poisoned then m.loadFail slot .poisoned 0 0 else m.loadFail slot .badArgument 0x10 (2 ^ 32)

/-- Check 8: the binding count, then the DTYPE and FORM of each binding; the command-slot offset of the first at fault (R238). -/
def Mod.check8 (m : Mod) (v : Movement) (img : Mem) : Option Nat :=
  if imgBindings img ≠ v.bindings.length then some 0x20
  else
    ((List.range v.bindings.length).find? (fun n =>
      let b := v.bindings.getD n (0, 0)
      let gone := (m.bindSel b).isNone || !m.bindable v.partition b.2
      match m.bindRegion b.2 with
      | none => gone || decide (b.2 < 0x8000)
      | some g => gone || !(bindDType img n = 0xFF || bindDType img n = g.dtype.code) || !(bindForm img n = 0xFF || bindForm img n = g.form.code))).map
        (fun n => 0x28 + 8 * n)

/-- Check 9: a READ_WRITE binding on a view. -/
def Mod.check9 (m : Mod) (v : Movement) (img : Mem) : Option Nat :=
  ((List.range v.bindings.length).find? (fun n =>
    bindAccess img n = 2 && (match m.bindSel (v.bindings.getD n (0, 0)) with | some (.sealed _) => true | _ => false))).map (fun n => 0x28 + 8 * n)

/-- Check 11: the image area fits within the partition's maximum T0 share. -/
def Mod.areaFits (m : Mod) (v : Movement) : Bool :=
  m.shareOk v.partition (if v.imageAt.isSome then 0 else ceilDiv v.length 256 * 256)

/-- LOAD_CHECKS_COMPLETE: the checks of R238 in order, once the image has been read. An area that fits the share and finds no room in the pool
waits, while the selector runs, as a write does (R114). -/
def Mod.loadChecks (m : Mod) (slot : Nat) : Mod :=
  match Tbl.find m.mvs slot with
  | none => m
  | some v =>
    if v.state ≠ .loading then m
    else
      match m.readBuffer (4096 + slot) 0 0x10 v.owner v.partition v.buffer.1 v.buffer.2.1 v.buffer.2.2 with
      | (_, .waiting) => m
      | (m1, .refused st) => m1.loadUnread slot st
      | (m1, .ready bs) =>
        let img := Mem.pack 0 bs
        match imageFault img bs.length (m1.fab.deviceId != 0xFFFF) with
        | some (k, off) => m1.loadFail slot .badArgument 0x10 (off + k * 2 ^ 32)
        | none =>
          match m1.check8 v img, m1.check9 v img, m1.fencedIn img with
          | some d, _, _ => m1.loadFail slot .badArgument d 0
          | none, some d, _ => m1.loadFail slot .notPermitted d 0
          | none, none, some c => m1.loadFail slot .fenced 0 c
          | none, none, none =>
            let m2 := m1.takeArea slot
            if !m1.areaFits v then m1.loadFail slot .capacity 0 0
            else if (Tbl.find m2.mvs slot).elim true (fun x => x.imageAt.isNone) then m2.freeFrame
            else
              (((m2.setMv slot (fun x => { x with state := .loaded, image := img, length := bs.length })).setCtx slot
                (fun c => { c with work := .none, progress := 1000 })).dropBufs (4096 + slot)).report slot .ok 0 0

/-- LOAD_CHECKS_COMPLETE (R238). -/
def execLoadChecksComplete (slot : SlotNo) (s : State) : Out := s.act (fun m => m.loadChecks slot.toNat)

/-! ### Starting (R241) -/

/-- The movement that CONTEXT_ID at ARGS offset 0 names. -/
def Mod.mvArg (m : Mod) (r : Req) : Option (Nat × Movement) :=
  match m.liveCtx (r.arg 0 4) r.partD with
  | some (s, c) => (match c.obj with | .movement _ => (Tbl.find m.mvs s).map (fun v => (s, v)) | _ => none)
  | none => none

/-- The descriptor after the `b`-th barrier of a core's stream. -/
def afterBarrier (img : Mem) (c b : Nat) : Nat :=
  go (streamOf img c).2 0 b
where
  go : Nat → Nat → Nat → Nat
    | _, pc, 0 => pc
    | 0, pc, _ => pc
    | n + 1, pc, b + 1 => if (descAt img c pc).elim false (fun d => d.op = 0x04) then go n (pc + 1) b else go n (pc + 1) (b + 1)

/-- A core begins a run: units 0 to 15,359 unwritten, predicates and flags clear (R223, R241). -/
def Core.begin (k : Core) (slot pc : Nat) : Core :=
  { k with crucible := Mem.clear k.crucible 0 (16 * movementUnits), origins := [], preds := [false, false, false, false], flags := 0, loops := [],
           pc := pc, movement := some slot, atBarrier := false, stopped := false, fetches := [], stores := [], msgs := [], waits := [],
           fault := none, discardLogged := false }

/-- BEAT_START of every core of the set (R536). -/
def Mod.traceBeat (m : Mod) (slot : Nat) (v : Movement) (beat : Nat) : Mod :=
  m.each (coreSet v.image) (fun m c => m.traceEv (coreUnit c) 0x03 v.partition beat (m.idOf slot) 0 0)

/-- Counters that are reset at each start of a context (R527). -/
def Mod.resetCounters (m : Mod) (id : Nat) : Mod :=
  m.setSvc (fun v => { v with ctr := { v.ctr with tbl := Tbl.mapV v.ctr.tbl (fun k c =>
    if c.resetOnStart ∧ c.startContext = id ∧ !m.ctrFrozen k then { c with value := 0, wrapped := false } else c) } })

/-- The hang rings of the cores lie in their crucibles and are cleared with them (R223, R541). -/
def Mod.clearRings (m : Mod) (cores : List Nat) : Mod :=
  m.setHang (fun h => { h with rings := h.rings.filter (fun r => !(decide (r.1 / 4096 = 1) && cores.contains (r.1 % 4096))) })

/-- MOVEMENT_START (R241). -/
def cmdMovementStart : Cmd := fun r m =>
  match m.mvArg r with
  | none => badArg m 0
  | some (s, v) =>
    let beat := r.arg 4 2
    if v.state ≠ .loading ∧ imgBeats v.image ≤ beat then badArg m 4
    else if r.arg 6 2 ≠ 0 then badArg m 6
    else if 86400000 < r.arg 8 4 then badArg m 8
    else if v.state ≠ .loaded ∨ (coreSet v.image).any m.coreBusy then fail m .busy
    else
      match m.fencedIn v.image with
      | some c => (m, { status := .fenced, data := le 2 c })
      | none =>
        let m0 := m.wakeNear 1 0
        let m1 := m0.each (coreSet v.image) (fun m c => m.setCore c (fun k => k.begin s (afterBarrier v.image c beat)))
        let m2 := m1.setMv s (fun x => { x with
          state := .running, beat := beat, droppedTiles := 0, dropCore := none, numericFlags := 0, stopMode := 0, ending := none,
          startChan := r.ch, startTag := r.tag, startNoRing := r.noRing, timeLimitMs := r.arg 8 4, startedAt := m.localTime,
          beatStart := m.localTime, longBeatRaised := false, hangDeclared := false, hangStop := false, poisonLogged := false })
        done (((m2.resetCounters (m2.idOf s)).clearRings (coreSet v.image)).traceBeat s v beat)

/-! ### Tile stores (R242, R270 to R272) -/

/-- The stores of a core other than one. -/
def Mod.dropStore (m : Mod) (c ticket : Nat) : Mod :=
  { m with cores := Tbl.upd m.cores c (fun k => { k with stores := k.stores.filter (fun s => s.ticket != ticket) }) }

def Mod.markStore (m : Mod) (c ticket : Nat) : Mod :=
  { m with cores := Tbl.upd m.cores c (fun k => { k with stores := k.stores.map (fun s => if s.ticket = ticket then { s with waiting := true } else s) }) }

/-- Send a raw tile store to its home (R332, R335). -/
def Mod.sendTileStore (m : Mod) (c : Nat) (fr home gen : Nat) (s : StoreReq) (tile : Nat) (bytes : List Byte) (poison : Bool) : Mod :=
  let v := m.refVersion s.sel
  let part := ((m.core c).movement.bind (fun v => Tbl.find m.mvs v)).elim 0 (fun v => v.partition)
  m.request 3 home 2 0x13 0 (regionFlow fr) (refBytes (s.pane * 32 + tile) v.1 v.2 m.fab.deviceId (gen % 65536) 4 ++ bytes) (s.pane * 32 + tile)
    (.core c s.ticket) (0x8000 + fr) part poison

/-- A store of a core reaches its walker, or goes to its home. -/
def Mod.submitStore (m : Mod) (c : Nat) (s : StoreReq) : Mod :=
  let parts := fun (m : Mod) (r : Nat) => match s.image with
    | none => [(s.offset / 2048, s.bytes, s.poisoned)]
    | some (f, n, img) => (List.range 32).zip (m.imageTiles r { form := f, gen := n, img := img, len := s.offset })
  let here := fun (m : Mod) (r : Nat) (sel : VerSel) (pane : Nat) =>
    let w : HeldWrite := { src := .core c s.ticket, region := r, sel := sel, pane := pane, offset := s.offset, bytes := s.bytes, enable := [],
                           poisoned := s.poisoned, wait := .frame }
    (m.markStore c s.ticket).submit (match s.image with
      | none => w
      | some (f, n, img) => { w with offset := 0, image := some { form := f, gen := n, img := img, len := s.offset } })
  if s.region < 0x8000 then here m s.region s.sel s.pane
  else
    let fr := s.region - 0x8000
    match (Tbl.find m.fm.regions fr).bind (fun f => (f.entry s.pane).map (fun e => (f, e))) with
    | none => m.dropStore c s.ticket
    | some (f, e) =>
      if e.home = m.fab.deviceId ∧ !f.accessor then
        let sel := m.partSel s.sel
        here (m.reachPart fr sel true) f.localRegion sel (f.localPane e s.pane)
      else (m.markStore c s.ticket).each (parts m f.localRegion) (fun m t => m.sendTileStore c fr e.home f.stripeGen s t.1 t.2.1 t.2.2)

/-- TILE_STORE_COMMIT: a store issued by a core reaches its walker, in issue order for one pane (R242, R270, R292). -/
def execTileStoreCommit (core : CoreNo) (ticket : Nat) (s : State) : Out :=
  s.act (fun m =>
    let k := m.core core.toNat
    match k.stores.find? (fun s => s.ticket = ticket) with
    | none => m
    | some st =>
      let before := k.stores.any (fun (x : StoreReq) => decide (x.ticket < ticket) && !x.waiting && x.region = st.region && x.pane = st.pane && x.sel == st.sel)
      let imgWaits := k.stores.any (fun (x : StoreReq) => decide (x.ticket < ticket) && x.image.isSome && x.waiting && x.region = st.region && x.pane = st.pane && decide (0x8000 ≤ x.region))
      if st.waiting ∨ before ∨ imgWaits then m else m.submitStore core.toNat st)

/-! ### Tile fetches (R176, R224, R269, R336, R663) -/

/-- The expander of a core loads a table image from the store, unless it holds it: in a free one of its four places, or in the place of one of
them by free choice (R176). -/
def Mod.loadTable (m : Mod) (c slot : Nat) : Mod :=
  let ts := (m.core c).tables
  if ts.contains slot then m
  else if ts.length < 4 then m.setCore c (fun k => { k with tables := ts ++ [slot] })
  else
    let p := m.choose 4
    p.2.setCore c (fun k => { k with tables := ts.set p.1 slot })

/-- A tile arrives in its slot: the table that its tag names is in the expander, then tag and body are written and the fetch is complete
(R176). -/
def Mod.fillSlot (m0 : Mod) (c : Nat) (f : FetchReq) (tag body : List Byte) : Mod :=
  let m := if leNat (tag.take 1) = 1 ∧ LMode.isTable (leNat ((tag.drop 2).take 1) % 4) then m0.loadTable c (leNat ((tag.drop 4).take 2)) else m0
  let part := ((m.core c).movement.bind (fun v => Tbl.find m.mvs v)).elim 0 (fun v => v.partition)
  let pad := (body ++ List.replicate 15 0).take (ceilDiv body.length 16 * 16)
  (m.setCore c (fun k => { (k.put f.dest (tag ++ pad)) with
    fetches := k.fetches.filter (fun x => x.ticket != f.ticket),
    origins := Tbl.put (k.put f.dest (tag ++ pad)).origins f.dest (f.binding, f.pane) })).count 0x0013 (coreUnit c) (0x2000 + part) (some part) 1

/-- Fetch a tile of a local pane (R269). Nothing while a seal encode or a T1 link holds it up. -/
def Mod.fetchHere (m : Mod) (c : Nat) (f : FetchReq) (r : Nat) (sel : VerSel) (pane : Nat) (check : Media) : Mod :=
  let master := m.masterOf (.core c 0)
  match m.recAt r sel pane with
  | none =>
    let d := (Tbl.find m.mem.regions r).elim DType.opaque (fun g => g.dtype)
    m.fillSlot c f ((StoredTile.zero d false).tag 0) []
  | some (k, x) =>
    if (m.readWaits (.core c f.ticket) k x [] (some f.issued)).isSome then m
    else
      let m1 := if x.tier = .t0 then m.bump k else if x.tier = .unbacked then m else m.readMiss k x master
      let m2 := ((m1.mediaRead k x (f.tile * 32) true (if m.homeLost x then .good else check) (.tileFetch f.op)).countRead x (f.tile * 32) master true).spendTile
        (m.movementOf (.core c f.ticket)) x f.tile
      let y := (Tbl.find m2.mem.recs k).getD x
      let t := m2.storedTile { x with state := y.state, poison := y.poison } f.tile
      let bad := badRead (x.checkOf (f.tile * 32) true check) && x.tier != .unbacked && x.form != .zero
      let m3 := if t.formatError then m2.coreFormatError c (.tileFetch f.op) else m2
      let m4 := if t.poisoned ∨ bad then m3.healPoisonRead k else m3
      m4.fillSlot c f ({ t with poisoned := t.poisoned || bad }.tag (m4.slotOf r t.gen)) t.body

/-- Ask the home of a fabric pane for a tile, with its table where the module lacks it and a slot is free, and raw where none is
(R336). The first tile that uses a table carries it, so a request says both that it may be attached and what is free. -/
def Mod.askTile (m : Mod) (c : Nat) (f : FetchReq) (fr home gen : Nat) : Mod :=
  let v := m.refVersion f.sel
  let part := ((m.core c).movement.bind (fun v => Tbl.find m.mvs v)).elim 0 (fun v => v.partition)
  let known := m.fm.foreignTables.any (fun t => t.2.1.1 = home && t.2.1.2.1 = fr)
  let flags := if 4096 ≤ m.mem.tableSlots.length ∧ !known then 4 + 1 else 4 + 8
  ((m.setCore c (fun k => { k with fetches := k.fetches.map (fun x => if x.ticket = f.ticket then { x with asked := true } else x) })).request 2 home 0 0x12 0
    (regionFlow fr) (refBytes (f.pane * 32 + f.tile) v.1 v.2 m.fab.deviceId (gen % 65536) flags) (f.pane * 32 + f.tile) (.core c f.ticket) (0x8000 + fr) part)

/-- TILE_FETCH_COMPLETE (R176, R269): one of the 32 oldest requests of the core (R222), after the core's own earlier stores to the
tile (R224). A tile of another module is asked for here, and arrives with TILE_DATA. -/
def execTileFetchComplete (core : CoreNo) (ticket : Nat) (read : Media) (s : State) : Out :=
  s.act (fun m =>
    let k := m.core core.toNat
    match (k.fetches.take 32).find? (fun f => f.ticket = ticket) with
    | none => m
    | some f =>
      let own := k.stores.any (fun (x : StoreReq) => decide (x.ticket < ticket) && x.region = f.region && x.sel == f.sel && x.pane = f.pane &&
        (x.image.isSome || x.offset / 2048 = f.tile))
      if own ∨ f.asked then m
      else if f.region < 0x8000 then m.fetchHere core.toNat f f.region f.sel f.pane read
      else
        let fr := f.region - 0x8000
        match (Tbl.find m.fm.regions fr).bind (fun g => (g.entry f.pane).map (fun e => (g, e))) with
        | none => m
        | some (g, e) =>
          if e.home = m.fab.deviceId ∧ !g.accessor then
            let sel := m.partSel f.sel
            (m.reachPart fr sel false).fetchHere core.toNat f g.localRegion sel (g.localPane e f.pane) read
          else m.askTile core.toNat f fr e.home g.stripeGen)

/-! ### The end of a run (R245 to R248) -/

/-- A slot of a core's messages has freed: MSG_SLOT_FREE to each flow that was refused for it (R305). -/
def Mod.slotFreed (m : Mod) (c : Nat) : Mod :=
  let mine := m.fm.refused.filter (fun x => x.1 = c)
  if mine = [] ∨ 16 ≤ (m.core c).msgs.length then m
  else
    (m.setFm (fun e => { e with refused := e.refused.filter (fun x => x.1 != c) })).each mine (fun m x =>
      m.sendPacket (m.packetTo x.2.1 1 x.2.2 0x05 0 []))

/-- Discard the messages held for a core, with one record for the core and run (R289). -/
def Mod.discardMsgs (m : Mod) (c : Nat) (v : Movement) (slot : Nat) : Mod :=
  if (m.core c).msgs = [] then m
  else
    ((m.setCore c (fun k => { k with msgs := [], discardLogged := true })).logErr
      { unit := coreUnit c, code := 0x0102, sev := .info, partition := v.partition, context := m.idOf slot }).slotFreed c

/-- DETAIL of R247. -/
def endDetail (reason : Nat) (core : Option Nat) : Nat := reason * 2 ^ 24 + (match core with | some c => c | none => 0x1000)

/-- Stores that a core has issued and that have not reached their walker commit (R246). -/
def Mod.flushStores (m : Mod) (c : Nat) : Mod := m.each ((m.core c).stores.filter (fun (s : StoreReq) => !s.waiting)) (fun m s => m.submitStore c s)

/-- The numeric flags of a core set (R250). -/
def Mod.setFlags (m : Mod) (v : Movement) : Nat := (coreSet v.image).foldl (fun f c => f ||| (m.core c).flags) 0

/-- What the end of a run does. -/
def Mod.runEnded (m : Mod) (slot : Nat) (v : Movement) (st : Status) (reason : Nat) (core : Option Nat) (beat : Nat) : Mod :=
  let set := coreSet v.image
  let m1 := m.each set Mod.flushStores
  let dropped := (Tbl.find m1.mvs slot).elim none (fun x => x.dropCore)
  let cap := st = .ok && dropped.isSome
  let st := if cap then .capacity else st
  let detail := if cap then endDetail 4 dropped else endDetail reason core
  let runs := v.runs + 1
  let data := beat % 65536 + (runs % 2 ^ 32) * 2 ^ 32
  let m2 := m1.each set (fun m c => m.discardMsgs c v slot)
  let m3 := m2.setMv slot (fun x => { x with
    state := .loaded, beat := beat, lastStatus := st, lastDetail := detail, runs := runs, runNs := m.localTime - v.startedAt,
    numericFlags := m.setFlags v, stopMode := 0, ending := none, stopCtxs := [] })
  let m4 := m3.each set (fun m c => m.setCore c (fun k => { k with
    atBarrier := false, stopped := true, fetches := [], stores := [], waits := [], fault := none, loops := [] }))
  let id := m4.idOf slot
  let m5 := m4.raise 0x0702 v.partition data detail id
  let m6 := if v.startNoRing then m5 else
    m5.ringRecord v.startChan { tag := v.startTag, context := id, status := st, kind := 0, code := 0x0701, detail := detail, data := data }
  let m7 := m6.traceEv 1 0x05 v.partition st.code id detail runs
  let m8 := m7.each v.stopCtxs (fun m x => m.finish x .ok 0 0)
  (m8.fenceAll (set.filter (fun c => (m8.coreTest c).fencePending))).boundarySteps set

/-- The run ends with a status, REASON and core at a beat (R247); fences that waited for it take effect (R252). A run in which a
store was dropped ends with CAPACITY where nothing else ends it (R245). -/
def Mod.endRun (m : Mod) (slot : Nat) (st : Status) (reason : Nat) (core : Option Nat) (beat : Nat) : Mod :=
  match Tbl.find m.mvs slot with
  | none => m
  | some v =>
    if v.state ≠ .running ∧ v.state ≠ .stopping then m
    else
      m.runEnded slot v st reason core beat

/-- The lowest-numbered core of a movement on which a check has failed. -/
def Mod.faultOf (m : Mod) (v : Movement) : Option (Nat × Status × Nat × Option (Nat × Nat)) :=
  (coreSet v.image).findSome? (fun c => (m.core c).fault.map (fun f => (c, f.1, f.2.1, f.2.2)))

/-- A run ends by a fault of one of its cores. -/
def Mod.runFaulted (m0 : Mod) (slot : Nat) (v : Movement) (who : Nat) (st : Status) (rs : Nat) (place : Option (Nat × Nat)) : Mod :=
  let m1 := if rs = 3 ∧ !v.poisonLogged then
      (m0.setMv slot (fun x => { x with poisonLogged := true })).logErr
        { unit := coreUnit who, code := 0x0103, sev := .contained, partition := v.partition, context := m0.idOf slot }
    else m0
  let m2 := match place with
    | some (b, p) => m1.setMv slot (fun x => { x with faultBinding := b, faultPane := p })
    | none => m1
  m2.endRun slot st rs (some who) v.beat

/-- RUN_FAULT of a core (R245, R246): a check that the core's descriptor has failed ends the run, and the lowest-numbered core with a
fault decides. REASON 0x03 with no such check is an uncorrectable word of the core's crucible (R463). -/
def Mod.runFault (m : Mod) (c reason : Nat) : Mod :=
  match m.runOf c with
  | none => m
  | some (slot, v) =>
    let own := (m.core c).fault
    let m0 := if own = none ∧ reason = 3 then
        (m.setCore c (fun k => { k with fault := some (.poisoned, 3, none) })).logErr
          { unit := coreUnit c, code := 0x0104, sev := .contained, partition := v.partition, context := m.idOf slot }
      else m
    if (m0.core c).fault.map (fun f => f.2.1) ≠ some reason then m
    else
      match m0.faultOf v with
      | none => m
      | some (who, st, rs, place) =>
        m0.runFaulted slot v who st rs place

/-- RUN_FAULT (R246). -/
def execRunFault (core : CoreNo) (reason : Byte) (s : State) : Out := s.act (fun m => m.runFault core.toNat reason.toNat)

/-- TIME_LIMIT_EXPIRY: TIME_LIMIT_MS has passed since the start (R245). -/
def execTimeLimitExpiry (slot : SlotNo) (s : State) : Out :=
  s.act (fun m => match Tbl.find m.mvs slot.toNat with
    | some v => if v.timeLimitMs = 0 then m else m.endRun slot.toNat .timeout 5 none v.beat
    | none => m)

/-! ### Barriers (R242, R247, R248, R549) -/

/-- The barrier that ends the present beat is due for a capture (R549). -/
def Mod.captureDue (m : Mod) (slot : Nat) (v : Movement) : Option Capture :=
  m.svc.hang.captures.find? (fun c => c.movement = slot && (symbolAt v.image c.step).2.2.1 = v.beat)

/-- Every core of the set has arrived, and every store issued before the barrier has committed (R242). -/
def Mod.barrierMet (m : Mod) (v : Movement) : Bool :=
  (coreSet v.image).all (fun c => (m.core c).atBarrier && (m.core c).stores == [] && (m.core c).fault.isNone)

/-- BARRIER_RELEASE: a capture that is due holds it (R549); otherwise the next beat begins, or the run ends (R242, R247, R248). -/
def Mod.releaseBarrier (m : Mod) (slot : Nat) : Mod :=
  match Tbl.find m.mvs slot with
  | none => m
  | some v =>
    if (v.state ≠ .running ∧ v.state ≠ .stopping) ∨ v.stopMode = 2 ∨ !m.barrierMet v then m
    else
      match m.captureDue slot v with
      | some c =>
        (m.setHang (fun h => { h with captures := h.captures.map (fun x => if x.ctxSlot = c.ctxSlot then { x with holding := true } else x) })).setCtx
          c.ctxSlot (fun x => { x with pastPonr := true })
      | none =>
        if v.beat + 1 = imgBeats v.image then m.endRun slot .ok 0 none v.beat
        else if v.stopMode = 1 then m.endRun slot .aborted 6 none (v.beat + 1)
        else
          let m1 := m.each (coreSet v.image) (fun m c => m.setCore c (fun k => { k with atBarrier := false }))
          ((m1.setMv slot (fun x => { x with beat := v.beat + 1, beatStart := m.localTime, longBeatRaised := false, hangDeclared := false })).traceBeat
            slot v (v.beat + 1)).boundarySteps (coreSet v.image)

/-- BARRIER_RELEASE (R242). -/
def execBarrierRelease (slot : SlotNo) (s : State) : Out := s.act (fun m => m.releaseBarrier slot.toNat)

/-- LONG_BEAT: 2 ms have passed since the start of the beat (R244); it is a trigger source (R532). -/
def execLongBeat (slot : SlotNo) (s : State) : Out :=
  s.act (fun m => match Tbl.find m.mvs slot.toNat with
    | none => m
    | some v =>
      if (v.state ≠ .running ∧ v.state ≠ .stopping) ∨ v.longBeatRaised then m
      else
        let late := ((coreSet v.image).filter (fun c => !(m.core c).atBarrier)).length
        ((m.setMv slot.toNat (fun x => { x with longBeatRaised := true, longBeats := x.longBeats + 1 })).raise 0x0701 v.partition (v.beat + late * 65536) 0
          (m.idOf slot.toNat)).source 3)

/-! ### Stops (R248, R249) -/

/-- Ask a running movement to stop: 1 at the next barrier, 2 now; a stop now takes the place of one at the barrier. The REASON of a
stop now is kept for its end. -/
def Mod.askStop (m : Mod) (slot mode reason : Nat) : Mod :=
  m.setMv slot (fun v =>
    if v.state ≠ .running ∧ v.state ≠ .stopping then v
    else if v.stopMode < mode then
      { v with state := .stopping, stopMode := mode, stopAt := m.localTime, hangStop := false,
               ending := if mode = 2 then some (.aborted, reason, none) else none }
    else v)

/-- MOVEMENT_STOP in a mode (R248). -/
def cmdMovementStop : Cmd := fun r m =>
  match m.mvArg r with
  | none => badArg m 0
  | some (s, v) =>
    if 1 < r.arg 4 1 then badArg m 4
    else if v.state ≠ .running ∧ v.state ≠ .stopping then done m
    else
      match m.newCtx r (.stopRun s) .none none with
      | (m1, .inr e) => (m1, e)
      | (m1, .inl n) =>
        ((m1.askStop s (r.arg 4 1 + 1) 6).setMv s (fun x => { x with stopCtxs := x.stopCtxs ++ [n] }), { status := .accepted, context := m1.idOf n })

/-- MOVEMENT_STOPPED: every core of a movement under a stop now has stopped at a descriptor boundary (R246, R248). -/
def Mod.stopped (m : Mod) (slot : Nat) : Mod :=
  match Tbl.find m.mvs slot with
  | none => m
  | some v =>
    match v.ending with
    | some (st, reason, core) => if v.state = .stopping ∧ v.stopMode = 2 then m.endRun slot st reason core v.beat else m
    | none => m

/-- MOVEMENT_STOPPED (R248). -/
def execMovementStopped (slot : SlotNo) (s : State) : Out := s.act (fun m => m.stopped slot.toNat)

/-- Stop a movement and end its run at once: what the module does of itself under R187, R192, R219 and R512, where the command's own
effect includes the end of the run. -/
def Mod.haltRun (m : Mod) (slot reason : Nat) : Mod :=
  match Tbl.find m.mvs slot with
  | some v => m.endRun slot .aborted reason none v.beat
  | none => m

/-- Unload a movement whose run, if any, has ended (R251); what waits for T0 space tries again. -/
def Mod.unload (m : Mod) (slot : Nat) : Mod := ((m.removeMv slot).freeCtx slot).spaceFreed

/-- End a movement for a reason of the module: its load or its run ends, and it is unloaded (R187, R192, R219). -/
def Mod.dropMovement (m : Mod) (slot reason : Nat) : Mod :=
  match Tbl.find m.mvs slot with
  | none => m
  | some v => if v.state = .loading then m.loadFail slot .aborted 0 0 else (m.haltRun slot reason).unload slot

/-- MOVEMENT_UNLOAD (R251). -/
def cmdMovementUnload : Cmd := fun r m =>
  match m.mvArg r with
  | none => badArg m 0
  | some (s, v) => if v.state ≠ .loaded then fail m .busy else done (m.unload s)

def MvState.code : MvState → Nat
  | .loading => 0 | .loaded => 1 | .running => 2 | .stopping => 3

/-- MOVEMENT_STATUS (R250). -/
def cmdMovementStatus : Cmd := fun r m =>
  match m.mvArg r with
  | none => badArg m 0
  | some (s, v) =>
    let live := v.state = .running ∨ v.state = .stopping
    let arrived := if live then ((coreSet v.image).filter (fun c => (m.core c).atBarrier)).length else 0
    (m, { status := .ok, context := m.idOf s,
          data := le 1 v.state.code ++ le 1 (if live then m.setFlags v else v.numericFlags) ++ le 2 v.beat ++ le 2 v.lastStatus.code ++ le 2 0 ++
            le 4 v.lastDetail ++ le 4 v.runs ++ le 8 v.faultPane ++ le 1 v.faultBinding ++ le 1 0 ++ le 2 arrived ++ le 4 v.longBeats ++
            le 8 (if live then m.localTime - v.startedAt else v.runNs) ++ le 8 (imgBuildId v.image) ++ le 4 v.droppedTiles })

/-! ### The rows -/

/-- MODE 1 of MOVEMENT_STOP. -/
def stopNowForm (slot : Mem) : Bool := slotArg slot 4 1 = 1
def stopBarrierForm (slot : Mem) : Bool := !stopNowForm slot

/-- MOVEMENT_LOAD (R235). -/
def execMovementLoad (ch : ChanNo) (s : State) : Out := s.mailbox ch 0x0700 anyForm cmdMovementLoad
/-- MOVEMENT_START (R241). -/
def execMovementStart (ch : ChanNo) (s : State) : Out := s.mailbox ch 0x0701 anyForm cmdMovementStart
/-- MOVEMENT_STOP with MODE 0, AT_BARRIER, or a MODE that is refused (R248). -/
def execMovementStopAtBarrier (ch : ChanNo) (s : State) : Out := s.mailbox ch 0x0702 stopBarrierForm cmdMovementStop
/-- MOVEMENT_STOP with MODE 1, NOW (R248). -/
def execMovementStopNow (ch : ChanNo) (s : State) : Out := s.mailbox ch 0x0702 stopNowForm cmdMovementStop
/-- MOVEMENT_STATUS (R250). -/
def execMovementStatus (ch : ChanNo) (s : State) : Out := s.mailbox ch 0x0703 anyForm cmdMovementStatus
/-- MOVEMENT_UNLOAD (R251). -/
def execMovementUnload (ch : ChanNo) (s : State) : Out := s.mailbox ch 0x0704 anyForm cmdMovementUnload

end Sys2Proof.Machine
end

