-- ==== Sys2Proof/Machine/CoreOps.lean ====
section
/-! DEFINITION. The descriptors of the sliver cores, but for the fabric ones (spec/08_operation_reference.md R261 to R286, R291, R292):
each row issues the next descriptor of one core when it is of the row's opcode. -/
namespace Sys2Proof.Machine

/-! ### Issue (R222, R224, R245, R265) -/

/-- What a descriptor is issued with: the movement's slot, the movement, the core and its state, and the descriptor. -/
structure Issue where
  slot : Nat
  v : Movement
  c : Nat
  k : Core
  d : Desc
  deriving Repr

/-- The unit in effect of an address field of the descriptor. -/
def Issue.unit (i : Issue) (field : Nat) : Nat := (unitOf i.k.loops field).toNat

/-- The effect of a descriptor: the change of the module, or the check that it fails. -/
abbrev Effect := Issue → Mod → Mod × Option CoreFault

/-- The type in which a tree of this module combines. -/
def Mod.treeType (m : Mod) (t : Nat) : DType := (Tbl.find m.fm.trees t).elim .fp32 (fun x => (DType.ofCode x.dtype).getD .fp32)

/-- The next descriptor of a core, when the core may issue one: its movement runs and is not stopping now, it is not at a barrier,
no check of it has failed, and no kernel runs on it. -/
def Mod.nextDesc (m : Mod) (c : Nat) : Option Issue :=
  match m.runOf c with
  | none => none
  | some (slot, v) =>
    let k := m.core c
    if v.stopMode = 2 ∨ k.atBarrier ∨ k.fault.isSome ∨ m.test.running.any (fun r => r.1 = c) then none
    else (descAt v.image c k.pc).map (fun d => { slot := slot, v := v, c := c, k := k, d := d })

/-- A check of a core has failed (R245). -/
def Mod.coreFault (m : Mod) (c : Nat) (f : CoreFault) : Mod := m.setCore c (fun k => { k with fault := some (f.status, f.reason, f.at_) })

/-- Bytes that the spans of a descriptor cover at the crucible. -/
def spanBytes (l : List (Nat × Nat)) : Nat := 16 * sumOf (l.map (fun s => s.2))

/-- Source tiles that an operation carries with their poison: bytes and poison of each (R270, R284, R291). A format error that the expander finds
in a code stream is consumed (R291, R663). -/
def Mod.carriedTiles (m : Mod) (i : Issue) (op : Opn) (unit : Nat) : Nat → Mod × (List (List Byte × Bool) ⊕ CoreFault)
  | 0 => (m, .inl [])
  | n + 1 =>
    let add := fun (x : Mod × (List (List Byte × Bool) ⊕ CoreFault)) (t : List Byte × Bool) =>
      match x.2 with | .inl l => (x.1, Sum.inl (t :: l)) | .inr f => (x.1, Sum.inr f)
    if !i.d.aStored then add (m.carriedTiles i op (unit + 128) n) (i.k.bytes unit 2048, false)
    else
      match m.expandSlot i.k unit with
      | .ok b => add (m.carriedTiles i op (unit + 129) n) (b, false)
      | .poisoned => add (m.carriedTiles i op (unit + 129) n) (List.replicate 2048 0, true)
      | .formatError => (m.coreFormatError i.c op, .inr { status := .poisoned, reason := 3, at_ := Tbl.find i.k.origins unit })

/-- The Lehr image that LEHR_ENCODE makes, zero-filled to its last sector (R147, R285), or the check that fails: a binding whose region allows
none, or what the expander found. -/
def Mod.lehrImage (m : Mod) (i : Issue) : Mod × (List Byte ⊕ CoreFault) :=
  match ((i.v.bindings[i.d.binding]?).bind (fun b => m.bindRegion b.2)).filter (fun g => g.form != .frit) with
  | none => (m, .inr (windowFault i.d.binding (Config.freeNat m.freeIx)))
  | some g =>
    match m.carriedTiles i .encode (i.unit i.d.srcA) 32 with
    | (m1, .inl ts) =>
      (m1, .inl (lehrEncode i.d.type (g.form = .raw) (if g.form = .raw then none else g.latched) g.expFloor (ts.map (fun t => t.1)) (ts.map (fun t => t.2))))
    | (m1, .inr f) => (m1, .inr f)

/-- The spans that a descriptor reads or writes. -/
def Mod.spansOf (m : Mod) (i : Issue) : List (Nat × Nat) :=
  i.d.spans i.k (if i.d.op = 0x61 then (match (m.lehrImage i).2 with | .inl b => b.length / 16 | .inr _ => 0) else 0)

/-- Issue the core's next descriptor, when it has the opcode: the crucible range check, the wait for units that are still to be
written, the effect, and the step to the next descriptor. A length that the units themselves give is read once they are at rest (R224). -/
def Mod.issue (m : Mod) (c op : Nat) (eff : Effect) : Mod :=
  match m.nextDesc c with
  | none => m
  | some i =>
    if i.d.op ≠ op then m
    else if !spansOk i.k (i.d.knownSpans i.k) then m.coreFault c rangeFault
    else if !spansFree i.k (i.k.busyUnits m.treeType) (i.d.knownSpans i.k) then m
    else
      let sp := m.spansOf i
      if !spansOk i.k sp then m.coreFault c rangeFault
      else if !spansFree i.k (i.k.busyUnits m.treeType) sp then m
      else
        match eff i m with
        | (m1, some f) => m1.coreFault c f
        | (m1, none) => (m1.setCore c (fun k => { k with pc := k.pc + 1 })).count 0x0001 (coreUnit c) (0x2000 + i.v.partition) (some i.v.partition) (spanBytes sp)

/-- A sequencer descriptor: it moves the core's own control. -/
def Mod.control (m : Mod) (c op : Nat) (f : Desc → Core → Core) : Mod :=
  match m.nextDesc c with
  | some i => if i.d.op = op then m.setCore c (f i.d) else m
  | none => m

/-- Write a result to the crucible and add its flags (R259). -/
def Mod.result (m : Mod) (i : Issue) (bs : List Byte) (flags : Nat) : Mod × Option CoreFault :=
  (m.setCore i.c (fun k => { (k.put (i.unit i.d.dst) bs) with flags := k.flags ||| flags }), none)

/-- Elements as bytes. -/
def elemBytes (w : Nat) (l : List Nat) : List Byte := l.flatMap (leBytes w)

/-- Results with flags, as bytes and the flags together. -/
def packed (w : Nat) (l : List (Nat × Nat)) : List Byte × Nat := (elemBytes w (l.map (fun p => p.1)), l.foldl (fun f p => f ||| p.2) 0)

/-! ### Sequencer (R268, R242) -/

/-- NOP (R268). -/
def execNop (core : CoreNo) (s : State) : Out := s.act (fun m => m.control core.toNat 0x00 (fun _ k => { k with pc := k.pc + 1 }))

/-- LOOP opens a loop of COUNT iterations (R268). -/
def execLoop (core : CoreNo) (s : State) : Out :=
  s.act (fun m => m.control core.toNat 0x01 (fun d k => { k with loops := { start := k.pc, iter := 0, count := d.count } :: k.loops, pc := k.pc + 1 }))

/-- LOOP_END closes the innermost loop, or begins its next iteration (R268). -/
def loopEnd (k : Core) : Core :=
  match k.loops with
  | l :: rest =>
    if l.iter + 1 < l.count then { k with loops := { l with iter := l.iter + 1 } :: rest, pc := l.start + 1 }
    else { k with loops := rest, pc := k.pc + 1 }
  | [] => { k with pc := k.pc + 1 }

/-- LOOP_END (R268). -/
def execLoopEnd (core : CoreNo) (s : State) : Out := s.act (fun m => m.control core.toNat 0x02 (fun _ k => loopEnd k))

/-- SKIP passes over COUNT descriptors when the predicate equals the sense (R268). -/
def execSkip (core : CoreNo) (s : State) : Out :=
  s.act (fun m => m.control core.toNat 0x03 (fun d k =>
    { k with pc := k.pc + 1 + (if k.preds.getD (d.sub % 4) false = bit d.sub 2 then d.count else 0) }))

/-- BARRIER: the core arrives once its fetches and receives have come, since descriptors take effect as if run one at a time
(R224, R242, R268, R289; DEDUCED: log 32). -/
def execBarrier (core : CoreNo) (s : State) : Out :=
  s.act (fun m => match m.nextDesc core.toNat with
    | some i =>
      if i.d.op = 0x04 ∧ i.k.busyUnits m.treeType = [] then
        (m.setCore i.c (fun k => { k with atBarrier := true, pc := k.pc + 1 })).traceEv (coreUnit i.c) 0x04 i.v.partition i.v.beat (m.idOf i.slot) 0 0
      else m
    | none => m)

/-! ### Tile movement (R226, R245, R263, R269 to R272) -/

/-- The rotation and the reach of a region of a binding. -/
def Mod.paneReach (m : Mod) (id pane : Nat) : Bool :=
  if id < 0x8000 then (Tbl.find m.mem.regions id).elim false (fun g => (g.extentAt pane).isSome)
  else (Tbl.find m.fm.regions (id - 0x8000)).elim false (fun f => (f.entry pane).isSome)

def Mod.rotationOf (m : Mod) (id : Nat) : Nat :=
  if id < 0x8000 then (Tbl.find m.mem.regions id).elim 0 (fun g => g.rotation)
  else (Tbl.find m.fm.regions (id - 0x8000)).elim 0 (fun f => f.rotation)

/-- The window check of a tile index (R245): region, version, pane and tile, or the fault. -/
def Mod.window (m : Mod) (i : Issue) (binding : Nat) (rel : Bool) (index : Int) (store : Bool) : (Nat × VerSel × Nat × Nat) ⊕ CoreFault :=
  if index < 0 then .inr (windowFault binding (Config.freeNat m.freeIx))
  else
    match i.v.bindings[binding]? with
    | none => .inr (windowFault binding (index.toNat / 32))
    | some b =>
      let pane := paneOf rel (m.rotationOf b.2) i.c (index.toNat / 32)
      match m.bindSel b with
      | none => .inr (windowFault binding pane)
      | some sel =>
        if !m.paneReach b.2 pane ∨ (store ∧ bindAccess i.v.image binding ≠ 2) then .inr (windowFault binding pane)
        else .inl (b.2, sel, pane, index.toNat % 32)

/-- Every tile of a list of indices, or the first fault. -/
def Mod.windows (m : Mod) (i : Issue) (store : Bool) : List Int → List (Nat × VerSel × Nat × Nat) ⊕ CoreFault
  | [] => .inl []
  | t :: ts =>
    match m.window i i.d.binding (bit i.d.ext 58) t store with
    | .inr f => .inr f
    | .inl w => (match m.windows i store ts with | .inl ws => .inl (w :: ws) | .inr f => .inr f)

/-- COUNT tile indices in effect from EXT (R263). -/
def Issue.indices (i : Issue) : List Int := (List.range i.d.count).map (fun (n : Nat) => tileRef i.k.loops i.d.ext + (n : Int))

/-- The list entries at a crucible address (R271); an entry with any of bits [63:37] set is the fault of its binding. -/
def Issue.listed (i : Issue) (field : Nat) : List Int ⊕ CoreFault :=
  let es := (pieces 8 i.d.count (i.k.bytes (i.unit field) (8 * i.d.count))).map leNat
  match es.find? (fun e => 2 ^ 37 ≤ e) with
  | some e => .inr (windowFault i.d.binding (e % 2 ^ 37 / 32))
  | none => .inl (es.map (fun (e : Nat) => (e : Int)))

/-- Issue the fetches of a list of tiles (R269). -/
def Mod.issueFetches (m : Mod) (i : Issue) (ix : List Int) : Mod × Option CoreFault :=
  match m.windows i false ix with
  | .inr f => (m, some f)
  | .inl ws =>
    let new := (List.range ws.length).zip ws |>.map (fun p =>
      ({ ticket := i.k.ticket + p.1, binding := i.d.binding, region := p.2.1, sel := p.2.2.1, pane := p.2.2.2.1, tile := p.2.2.2.2,
         dest := i.unit i.d.dst + 129 * p.1, asked := false, op := i.d.op, issued := m.localTime } : FetchReq))
    (m.setCore i.c (fun k => { k with fetches := k.fetches ++ new, ticket := k.ticket + ws.length }), none)

/-- Issue the stores of a list of tiles (R270). -/
def Mod.issueStores (m : Mod) (i : Issue) (ix : List Int) : Mod × Option CoreFault :=
  match m.windows i true ix with
  | .inr f => (m, some f)
  | .inl ws =>
    match m.carriedTiles i (.tileStore i.d.op) (i.unit i.d.srcA) i.d.count with
    | (m1, .inr f) => (m1, some f)
    | (m1, .inl ts) =>
      let new := (List.range ws.length).zip (ws.zip ts) |>.map (fun p =>
        ({ ticket := i.k.ticket + p.1, binding := i.d.binding, region := p.2.1.1, sel := p.2.1.2.1, pane := p.2.1.2.2.1,
           offset := p.2.1.2.2.2 * 2048, bytes := p.2.2.1, poisoned := p.2.2.2, image := none, waiting := false, op := i.d.op } : StoreReq))
      (m1.setCore i.c (fun k => { k with stores := k.stores ++ new, ticket := k.ticket + ws.length }), none)

/-- FETCH (R269). -/
def effFetch : Effect := fun i m => m.issueFetches i i.indices

/-- The row of `effFetch`. -/
def execFetch (core : CoreNo) (s : State) : Out := s.act (fun m => m.issue core.toNat 0x10 effFetch)

/-- STORE (R270). -/
def effStore : Effect := fun i m => m.issueStores i i.indices

/-- The row of `effStore`. -/
def execStore (core : CoreNo) (s : State) : Out := s.act (fun m => m.issue core.toNat 0x11 effStore)

/-- GATHER: a FETCH whose tile indices come from the list at SRC_A (R271). -/
def effGather : Effect := fun i m => match i.listed i.d.srcA with
    | .inl ix => m.issueFetches i ix
    | .inr f => (m, some f)

/-- The row of `effGather`. -/
def execGather (core : CoreNo) (s : State) : Out := s.act (fun m => m.issue core.toNat 0x12 effGather)

/-- SCATTER: a STORE whose tile indices come from the list at SRC_B (R271). -/
def effScatter : Effect := fun i m => match i.listed i.d.srcB with
    | .inl ix => m.issueStores i ix
    | .inr f => (m, some f)

/-- The row of `effScatter`. -/
def execScatter (core : CoreNo) (s : State) : Out := s.act (fun m => m.issue core.toNat 0x13 effScatter)

/-- The index of a Lehr image meets R148. -/
def indexMeets (img : Mem) : Bool :=
  (List.range 32).all (fun t => !lenBreaks img t && bits (Mem.rdLE img (0x40 + 2 * t) 2) 12 2 = 0) && (lehrIndex img 0).2 = 0

/-- The header check of PUT_PANE (R272): the form and generation of the image that it may store. An accessor of a fabric region, to which no message
brings FORM, DTYPE or generations, checks what the image itself shows (DESIGN CHOICE). -/
def Mod.putForm (m : Mod) (id : Nat) (img : Mem) : Option (PForm × Nat) :=
  let f := Mem.rdLE img 0 1
  let frit := decide (f = 2) && decide (Mem.rdLE img 2 1 ≤ 7)
  let lehr := decide (f = 1) && indexMeets img
  match m.bindRegion id with
  | some g =>
    if g.form = .frit then (if frit && imageDType img == g.dtype then some (.frit, 0) else none)
    else if g.form = .raw then (if lehr && lehrNoTable img then some (.lehr, 0) else none)
    else if lehr && (lehrNoTable img || Tbl.has g.tables.gens (lehrGen img)) then some (.lehr, if lehrNoTable img then 0 else lehrGen img) else none
  | none => if frit then some (.frit, 0) else if lehr then some (.lehr, lehrGen img) else none

/-- PUT_PANE (R272). -/
def effPutPane : Effect := fun i m =>
    match m.window i i.d.binding (bit i.d.ext 58) (tileRef i.k.loops i.d.ext) true with
    | .inr f => (m, some f)
    | .inl (id, sel, pane, tile) =>
      let u := i.unit i.d.srcA
      let n := 16 * i.k.imageUnits u
      let img := Mem.pack 0 (i.k.bytes u n)
      match if tile = 0 then m.putForm id img else none with
      | none => (m, some (windowFault i.d.binding pane))
      | some (form, gen) =>
        let st : StoreReq := { ticket := i.k.ticket, binding := i.d.binding, region := id, sel := sel, pane := pane, offset := n, bytes := [],
                               poisoned := false, image := some (form, gen, img), waiting := false, op := i.d.op }
        (m.setCore i.c (fun k => { k with stores := k.stores ++ [st], ticket := k.ticket + 1 }), none)

/-- The row of `effPutPane`. -/
def execPutPane (core : CoreNo) (s : State) : Out := s.act (fun m => m.issue core.toNat 0x14 effPutPane)

/-! ### Crucible operations (R273, R274) -/

/-- The contents that FILL writes (R273). -/
def fillBytes (d : Desc) : List Byte × Nat :=
  let n := 16 * d.count
  let w := d.type.bytes
  if d.sub = 0 then (List.replicate n 0, 0)
  else if d.sub = 1 then (elemBytes w (List.replicate (n / w) (d.imm % 2 ^ (8 * w))), 0)
  else if d.type = .int32 then (elemBytes 4 ((List.range (n / 4)).map (fun j => (d.imm + j) % 2 ^ 32)), 0)
  else
    let f := DType.fp32.fmt
    packed 4 ((List.range (n / 4)).map (fun (j : Nat) => f.result (FV.sum [f.value d.imm, FV.ofInt (j : Int)])))

/-- FILL (R273). -/
def effFill : Effect := fun i m => let r := fillBytes i.d; m.result i r.1 r.2

/-- The row of `effFill`. -/
def execFill (core : CoreNo) (s : State) : Out := s.act (fun m => m.issue core.toNat 0x20 effFill)

/-- COPY: units as if through a buffer; tags and bodies go with what is known of their origin (R273). -/
def effCopy : Effect := fun i m =>
    let a := i.unit i.d.srcA
    let b := i.unit i.d.dst
    let from_ := i.k.origins.filter (fun o => decide (a ≤ o.1) && decide (o.1 < a + i.d.count))
    (m.setCore i.c (fun k =>
      let k1 := k.put b (i.k.bytes a (16 * i.d.count))
      { k1 with origins := from_.foldl (fun t o => Tbl.put t (o.1 - a + b) o.2) k1.origins }), none)

/-- The row of `effCopy`. -/
def execCopy (core : CoreNo) (s : State) : Out := s.act (fun m => m.issue core.toNat 0x21 effCopy)

/-- CHECKSUM (R274). -/
def effChecksum : Effect := fun i m =>
    let u := i.unit i.d.srcA
    if i.d.aStored then
      match m.slotTiles i.c i.k u i.d.count with
      | (m1, .inl b) => m1.result i (leBytes 4 (crc32c i.d.imm b)) 0
      | (m1, .inr f) => (m1, some f)
    else m.result i (leBytes 4 (crc32c i.d.imm (i.k.bytes u i.d.count))) 0

/-- The row of `effChecksum`. -/
def execChecksum (core : CoreNo) (s : State) : Out := s.act (fun m => m.issue core.toNat 0x53 effChecksum)

/-! ### Vector operations (R275, R276) -/

/-- An integer wrapped to the type, or, under WIDE, as FP32. -/
def intResult (t : DType) (wide : Bool) (v : Int) : Nat × Nat :=
  if wide then DType.fp32.fmt.round (FV.ofInt v) else (toTwos (8 * t.bytes) v, 0)

/-- VEC on integer elements (R275). `c` is the element at DST, in the result type. -/
def vecInt (t : DType) (wide : Bool) (sub a b c imm : Nat) : Nat × Nat :=
  let x := t.int a
  let y := t.int b
  let i : Int := ofTwos 32 imm
  if sub = 5 ∧ wide then DType.fp32.fmt.result (FV.sum [FV.ofInt (x * y), DType.fp32.value c])
  else
    intResult t wide (match sub with
      | 0 => x + y | 1 => x - y | 2 => x * y | 3 => max x y | 4 => min x y | 5 => x * y + t.int c
      | 6 => x * i | 7 => x + i | 8 => -x | _ => if x < 0 then -x else x)

/-- VEC on OPAQUE elements (R275): modulo 2^8, and then, under WIDE, exactly in FP32. A DST element that is no integer, under FMA with
WIDE, is a value that the spec does not reach: a free value. -/
def vecOpaque (wide : Bool) (sub a b c imm : Nat) : Nat × Nat :=
  let x : Int := (a % 256 : Nat)
  let y : Int := (b % 256 : Nat)
  let i : Int := (imm % 256 : Nat)
  let dst : Int := if wide then (match DType.fp32.value c with
      | .fin n m e => roundInt n m e
      | _ => (Config.freeResult (c + 2 ^ 32 * (a + 256 * b)) : Nat)) else (c % 256 : Nat)
  let v : Int := match sub with
    | 0 => x + y | 1 => x - y | 2 => x * y | 3 => max x y | 4 => min x y | 5 => x * y + dst
    | 6 => x * i | 7 => x + i | 8 => -x | _ => x
  let r := (v % 256).toNat
  if wide then DType.fp32.fmt.round (FV.ofInt r) else (r, 0)

/-- VEC on floating elements (R275): rounded once into the result type. -/
def vecFloat (t out : DType) (sub a b c imm : Nat) : Nat × Nat :=
  let f := out.fmt
  let x := t.value a
  let y := t.value b
  let i := DType.fp32.value imm
  match sub with
  | 0 => f.result (FV.sum [x, y])
  | 1 => f.result (FV.sum [x, y.neg])
  | 2 => f.result (x.mul y)
  | 3 => f.round (FV.pick true x y)
  | 4 => f.round (FV.pick false x y)
  | 5 => let p := x.mul y; let r := FV.sum [p.1, out.value c]; f.result (r.1, r.2 || p.2)
  | 6 => f.result (x.mul i)
  | 7 => f.result (FV.sum [x, i])
  | 8 => f.round x.neg
  | 9 => f.round x.abs
  | 10 => fvExp out a x
  | 11 => fvRecip out a x
  | _ => fvRsqrt out a x

def vecOne (t : DType) (wide : Bool) (sub a b c imm : Nat) : Nat × Nat :=
  if t.isFloat then vecFloat t (if wide then .fp32 else t) sub a b c imm
  else if t = .opaque then vecOpaque wide sub a b c imm
  else vecInt t wide sub a b c imm

/-- VEC (R275). -/
def effVec : Effect := fun i m =>
    let t := i.d.type
    let n := i.d.count
    let out := i.d.vecOut
    match m.operand i.c i.k i.d.aStored (i.unit i.d.srcA) t n with
    | (m1, .inr f) => (m1, some f)
    | (m1, .inl as) =>
      match if i.d.sub ≤ 5 then m1.operand i.c i.k i.d.bStored (i.unit i.d.srcB) t n else (m1, .inl (List.replicate n 0)) with
      | (m2, .inr f) => (m2, some f)
      | (m2, .inl bs) =>
        let cs := elems out.bytes (i.k.bytes (i.unit i.d.dst) (n * out.bytes))
        let r := packed out.bytes ((as.zip (bs.zip cs)).map (fun x => vecOne t i.d.flag2 i.d.sub x.1 x.2.1 x.2.2 i.d.imm))
        m2.result i r.1 r.2

/-- The row of `effVec`. -/
def execVec (core : CoreNo) (s : State) : Out := s.act (fun m => m.issue core.toNat 0x30 effVec)

/-- CONVERT (R276). -/
def effConvert : Effect := fun i m =>
    let dt := (DType.ofCode i.d.sub).getD .fp32
    match m.operand i.c i.k i.d.aStored (i.unit i.d.srcA) i.d.type i.d.count with
    | (m1, .inr f) => (m1, some f)
    | (m1, .inl as) => let r := packed dt.bytes (as.map (fun a => dt.convert (i.d.type.value a))); m1.result i r.1 r.2

/-- The row of `effConvert`. -/
def execConvert (core : CoreNo) (s : State) : Out := s.act (fun m => m.issue core.toNat 0x31 effConvert)

/-! ### Matrix and reduce operations (R277 to R280) -/

/-- One element of C after one tile pair (R258, R277): a row of A and a column of B in ascending groups. -/
def mmaCell (da db : DType) (g : Nat) (acc : Nat × Nat) (row col : List Nat) : Nat × Nat :=
  if da = .int8 ∧ db = .int8 then
    (toTwos 32 (ofTwos 32 acc.1 + ((row.zip col).map (fun p => ofTwos 8 p.1 * ofTwos 8 p.2)).foldl (fun a b => a + b) 0), 0)
  else accGroups g acc (products da db row col)

/-- The columns of B: 32 lists of K elements. -/
def colsOf (k : Nat) (trans : Bool) (b : List Nat) : List (List Nat) :=
  if trans then pieces k 32 b
  else
    let rows := pieces 32 k b
    (List.range 32).map (fun j => rows.map (fun r => r.getD j 0))

/-- C after one tile pair. -/
def mmaTile (da db : DType) (trans : Bool) (c : List (Nat × Nat)) (a b : List Byte) : List (Nat × Nat) :=
  let k := 64 / da.bytes
  let rows := pieces k 32 (elems da.bytes a)
  let cols := colsOf k trans (elems db.bytes b)
  let cells := rows.flatMap (fun r => cols.map (fun x => (r, x)))
  (c.zip cells).map (fun p => mmaCell da db (if da.bytes = 1 then 16 else 8) p.1 p.2.1 p.2.2)

/-- MMA (R277). INT8 on one side with FP8 on the other is a product to which the spec gives no value: free values. -/
def effMma : Effect := fun i m =>
    let da := i.d.type
    let db := if i.d.sub = 0 then da else (DType.ofCode i.d.sub).getD da
    match m.tileOperand i.c i.k i.d.aStored (i.unit i.d.srcA) i.d.count with
    | (m1, .inr f) => (m1, some f)
    | (m1, .inl as) =>
      match m1.tileOperand i.c i.k i.d.bStored (i.unit i.d.srcB) i.d.count with
      | (m2, .inr f) => (m2, some f)
      | (m2, .inl bs) =>
        let c0 := if i.d.flag3 then List.replicate 1024 (0, 0) else (elems 4 (i.k.bytes (i.unit i.d.dst) 4096)).map (fun v => (v, 0))
        if (da = .int8) ≠ (db = .int8) then
          let free := (List.range 1024).map (fun j => Config.mixedProduct (as.flatten) (bs.flatten) (c0.map (fun c => c.1)) (i.d.type.code + 256 * i.d.sub) j % 2 ^ 32)
          m2.result i (elemBytes 4 free) 0
        else
          let r := packed 4 ((as.zip bs).foldl (fun c p => mmaTile da db i.d.flag2 c p.1 p.2) c0)
          m2.result i r.1 r.2

/-- The row of `effMma`. -/
def execMma (core : CoreNo) (s : State) : Out := s.act (fun m => m.issue core.toNat 0x40 effMma)

/-- REDUCE on elements (R278): the result bytes and flags. `acc` is the value at DST, when it takes part. -/
def reduceBytes (t : DType) (sub imm : Nat) (xs : List Nat) (acc : Option Nat) : List Byte × Nat :=
  let f := DType.fp32.fmt
  if sub = 0 then
    if t.isFloat then
      let r := accGroups 32 (acc.getD 0x80000000, 0) (xs.map (fun x => (t.value x, false)))
      (leBytes 4 r.1, r.2)
    else (leBytes 4 (toTwos 32 ((xs.map t.int).foldl (fun a b => a + b) (ofTwos 32 (acc.getD 0)))), 0)
  else if sub ≤ 2 then
    if t.isFloat then
      let vs := (match acc with | some a => [f.value a] | none => []) ++ xs.map t.value
      (leBytes 4 (f.round (vs.tail.foldl (FV.pick (sub = 1)) (vs.headD .nan))).1, 0)
    else
      let vs := (match acc with | some a => [ofTwos 32 a] | none => []) ++ xs.map t.int
      (leBytes 4 (toTwos 32 (vs.tail.foldl (fun a b => if sub = 1 then max a b else min a b) (vs.headD 0))), 0)
  else
    let above := fun (a b : FV) => b != .nan && (a == .nan || FV.cmp a b = 1)
    let best := (xs.foldl (fun (s : Nat × Nat × FV) x => let v := t.value x; if s.1 = 0 ∨ above v s.2.2 then (s.1 + 1, s.1, v) else (s.1 + 1, s.2))
      (0, 0, .nan)).2
    let r := f.round best.2
    (leBytes 4 r.1 ++ leBytes 4 ((best.1 + imm) % 2 ^ 32), 0)

/-- REDUCE (R278). -/
def effReduce : Effect := fun i m =>
    match m.operand i.c i.k i.d.aStored (i.unit i.d.srcA) i.d.type i.d.count with
    | (m1, .inr f) => (m1, some f)
    | (m1, .inl xs) =>
      let acc := if i.d.flag2 ∧ i.d.sub ≤ 2 then some (leNat (i.k.bytes (i.unit i.d.dst) 4)) else none
      let r := reduceBytes i.d.type i.d.sub i.d.imm xs acc
      m1.result i r.1 r.2

/-- The row of `effReduce`. -/
def execReduce (core : CoreNo) (s : State) : Out := s.act (fun m => m.issue core.toNat 0x50 effReduce)

/-- The relation of COMPARE (R279): any comparison with NaN is false, except NE. -/
def relates (rel : Nat) (a b : FV) : Bool :=
  if a == .nan ∨ b == .nan then rel = 1
  else
    let c := FV.cmp a b
    match rel with
    | 0 => c = 0 | 1 => c != 0 | 2 => c = -1 | 3 => c != 1 | 4 => c = 1 | _ => c != -1

/-- COMPARE (R279). -/
def effCompare : Effect := fun i m =>
    let t := i.d.type
    let n := i.d.count
    let imm := if t.isFloat then DType.fp32.value i.d.imm else FV.ofInt i.d.immInt
    match m.operand i.c i.k i.d.aStored (i.unit i.d.srcA) t n with
    | (m1, .inr f) => (m1, some f)
    | (m1, .inl as) =>
      match if i.d.flag2 then (m1, .inl []) else m1.operand i.c i.k i.d.bStored (i.unit i.d.srcB) t n with
      | (m2, .inr f) => (m2, some f)
      | (m2, .inl bs) =>
        let vs := if i.d.flag2 then List.replicate n imm else bs.map t.value
        let rs := (as.zip vs).map (fun p => relates (i.d.sub % 8) (t.value p.1) p.2)
        let p := if bit i.d.sub 5 then rs.all id else rs.any id
        let m3 := m2.setCore i.c (fun k => { k with preds := k.preds.set (bits i.d.sub 3 2) p })
        if i.d.flag3 then m3.result i (rs.map (fun b => if b then 1 else 0)) 0 else (m3, none)

/-- The row of `effCompare`. -/
def execCompare (core : CoreNo) (s : State) : Out := s.act (fun m => m.issue core.toNat 0x51 effCompare)

/-- One candidate of TOPK: value, code in the result type, and index. -/
abbrev Ranked := FV × Nat × Nat

/-- The order of TOPK (R280): NaN ranks as the largest, and ties rank the smaller index first. -/
def ranksBefore (smallest : Bool) (a b : Ranked) : Bool :=
  let c : Int := if a.1 == .nan then (if b.1 == .nan then 0 else 1) else if b.1 == .nan then -1 else FV.cmp a.1 b.1
  if c = 0 then decide (ofTwos 32 a.2.2 ≤ ofTwos 32 b.2.2) else (c = -1) = smallest

/-- TOPK (R280). -/
def effTopk : Effect := fun i m =>
    let t := i.d.type
    let n := i.d.count
    let k := i.d.imm
    match m.operand i.c i.k i.d.aStored (i.unit i.d.srcA) t n with
    | (m1, .inr f) => (m1, some f)
    | (m1, .inl xs) =>
      let ixs := if i.d.flag3 then elems 4 (i.k.bytes (i.unit i.d.srcB) (4 * n)) else (List.range n).map (fun j => (j + i.d.ext) % 2 ^ 32)
      let code := fun (x : Nat) => if t.isFloat then (DType.fp32.fmt.round (t.value x)).1 else toTwos 32 (t.int x)
      let best := (xs.zip ixs).foldl (fun (l : List Ranked) x => (insertBy (ranksBefore i.d.flag2) (t.value x.1, code x.1, x.2) l).take k) []
      let none_ : Ranked := (.nan, if t.isFloat then 0xFF800000 else 0x80000000, 0xFFFFFFFF)
      let all := best ++ List.replicate (k - best.length) none_
      m1.result i (elemBytes 4 (all.map (fun r => r.2.1)) ++ elemBytes 4 (all.map (fun r => r.2.2))) 0

/-- The row of `effTopk`. -/
def execTopk (core : CoreNo) (s : State) : Out := s.act (fun m => m.issue core.toNat 0x52 effTopk)

/-! ### Attention partials (R281 to R283) -/

/-- FP32 arithmetic on codes with flags, one rounding a step. -/
def mul32 (a b : Nat) : Nat × Nat := DType.fp32.fmt.result ((DType.fp32.value a).mul (DType.fp32.value b))
def sub32 (a b : Nat) : Nat × Nat := DType.fp32.fmt.result (FV.sum [DType.fp32.value a, (DType.fp32.value b).neg])
def exp32 (a : Nat) : Nat × Nat := fvExp .fp32 a (DType.fp32.value a)
def max32 (a b : Nat) : Nat := (DType.fp32.fmt.round (FV.pick true (DType.fp32.value a) (DType.fp32.value b))).1
/-- Exact sum of exact products, rounded once. -/
def dot32 (l : List (FV × Bool)) : Nat × Nat :=
  let s := FV.sum (l.map (fun t => t.1))
  DType.fp32.fmt.result (s.1, s.2 || l.any (fun t => t.2))
/-- -Inf in FP32. -/
def negInf32 : Nat := 0xFF800000

/-- SDOT (R281). -/
def effSdot : Effect := fun i m =>
    let t := i.d.type
    let d := i.d.rowLen
    let q := elems t.bytes (i.k.bytes (i.unit i.d.srcA) (d * t.bytes))
    match m.operand i.c i.k i.d.bStored (i.unit i.d.srcB) t (i.d.count * d) with
    | (m1, .inr f) => (m1, some f)
    | (m1, .inl xs) =>
      let r := packed 4 ((pieces d i.d.count xs).map (fun row =>
        let a := accGroups 32 (0, 0) (products t t q row)
        let p := mul32 a.1 i.d.imm
        (p.1, a.2 ||| p.2)))
      m1.result i r.1 r.2

/-- The row of `effSdot`. -/
def execSdot (core : CoreNo) (s : State) : Out := s.act (fun m => m.issue core.toNat 0x32 effSdot)

/-- An attention state: M, L and ACC (R282). -/
structure Att where
  max : Nat
  sum : Nat
  acc : List Nat
  deriving DecidableEq, Repr

def Core.att (k : Core) (unit d : Nat) : Att :=
  { max := leNat (k.bytes unit 4), sum := Mem.rdLE k.crucible (16 * unit + 4) 4, acc := elems 4 (k.bytes (unit + 1) (4 * d)) }

def Att.bytes (a : Att) : List Byte := leBytes 4 a.max ++ leBytes 4 a.sum ++ List.replicate 8 0 ++ elemBytes 4 a.acc

/-- A state with L = 0 is empty. -/
def Att.empty (a : Att) : Bool := a.sum % 2 ^ 31 = 0

/-- Scale every element with one rounding, and the flags. -/
def scaleAll (acc : List Nat) (c : Nat) : List Nat × Nat := let r := acc.map (fun a => mul32 a c); (r.map (fun p => p.1), r.foldl (fun f p => f ||| p.2) 0)

/-- Fold scores and value rows into a state (R282); none where the state is unchanged. -/
def Att.fold (a : Att) (t : DType) (ss : List Nat) (rows : List (List Nat)) : Option (Att × Nat) :=
  let m0 := if a.empty then negInf32 else a.max
  let mx := ss.foldl max32 m0
  if mx = negInf32 then none
  else
    let diff := sub32 m0 mx
    let c := if m0 = negInf32 then (0, 0) else (let e := exp32 diff.1; (e.1, e.2 ||| diff.2))
    let l := mul32 a.sum c.1
    let acc := scaleAll a.acc c.1
    let step := fun (st : Nat × List Nat × Nat) (x : Nat × List Nat) =>
      let df := sub32 x.1 mx
      let p := exp32 df.1
      let l := dot32 [(DType.fp32.value st.1, false), (DType.fp32.value p.1, false)]
      let av := (st.2.1.zip x.2).map (fun y => dot32 [(DType.fp32.value y.1, false), (DType.fp32.value p.1).mul (t.value y.2)])
      (l.1, av.map (fun y => y.1), st.2.2 ||| df.2 ||| p.2 ||| l.2 ||| av.foldl (fun f y => f ||| y.2) 0)
    let r := (ss.zip rows).foldl step (l.1, acc.1, c.2 ||| l.2 ||| acc.2)
    some ({ max := mx, sum := r.1, acc := r.2.1 }, r.2.2)

/-- SOFTMAX_PARTIAL (R282). -/
def effSoftmaxPartial : Effect := fun i m =>
    let t := i.d.type
    let d := i.d.rowLen
    let ss := elems 4 (i.k.bytes (i.unit i.d.srcA) (4 * i.d.count))
    match m.operand i.c i.k i.d.bStored (i.unit i.d.srcB) t (i.d.count * d) with
    | (m1, .inr f) => (m1, some f)
    | (m1, .inl xs) =>
      match (i.k.att (i.unit i.d.dst) d).fold t ss (pieces d i.d.count xs) with
      | some (a, fl) => m1.result i a.bytes fl
      | none => (m1, none)

/-- The row of `effSoftmaxPartial`. -/
def execSoftmaxPartial (core : CoreNo) (s : State) : Out := s.act (fun m => m.issue core.toNat 0x33 effSoftmaxPartial)

/-- Merge one state into another (R283); none where the source is empty. -/
def Att.merge (src dst : Att) : Option (Att × Nat) :=
  if src.empty then none
  else if dst.empty then some (src, 0)
  else
    let mx := max32 src.max dst.max
    let d1 := sub32 src.max mx
    let d2 := sub32 dst.max mx
    let c1 := exp32 d1.1
    let c2 := exp32 d2.1
    let mix := fun (x y : Nat) => dot32 [(DType.fp32.value x).mul (DType.fp32.value c1.1), (DType.fp32.value y).mul (DType.fp32.value c2.1)]
    let l := mix src.sum dst.sum
    let acc := (src.acc.zip dst.acc).map (fun p => mix p.1 p.2)
    some ({ max := mx, sum := l.1, acc := acc.map (fun p => p.1) },
      d1.2 ||| d2.2 ||| c1.2 ||| c2.2 ||| l.2 ||| acc.foldl (fun f p => f ||| p.2) 0)

/-- SOFTMAX_MERGE (R283). -/
def effSoftmaxMerge : Effect := fun i m =>
    let d := i.d.rowLen
    match (i.k.att (i.unit i.d.srcA) d).merge (i.k.att (i.unit i.d.dst) d) with
    | some (a, fl) => m.result i a.bytes fl
    | none => (m, none)

/-- The row of `effSoftmaxMerge`. -/
def execSoftmaxMerge (core : CoreNo) (s : State) : Out := s.act (fun m => m.issue core.toNat 0x34 effSoftmaxMerge)

/-! ### Encode and decode (R284 to R286) -/

/-- FRIT_ENCODE (R284). -/
def effFritEncode : Effect := fun i m =>
    match m.carriedTiles i .encode (i.unit i.d.srcA) 32 with
    | (m1, .inl ts) => m1.result i (fritEncode i.d.type (ts.map (fun t => t.1)) (ts.map (fun t => t.2))) 0
    | (m1, .inr f) => (m1, some f)

/-- The row of `effFritEncode`. -/
def execFritEncode (core : CoreNo) (s : State) : Out := s.act (fun m => m.issue core.toNat 0x60 effFritEncode)

/-- LEHR_ENCODE (R285). -/
def effLehrEncode : Effect := fun i m =>
    match m.lehrImage i with
    | (m1, .inl img) => m1.result i img 0
    | (m1, .inr f) => (m1, some f)

/-- The row of `effLehrEncode`. -/
def execLehrEncode (core : CoreNo) (s : State) : Out := s.act (fun m => m.issue core.toNat 0x61 effLehrEncode)

/-- Tiles of a pane image in the crucible, expanded (R286): poison and format errors are consumed. -/
def Mod.imageTilesAt (m : Mod) (i : Issue) (img : Mem) (table : Option Mem) (first : Nat) : Nat → Mod × (List Byte ⊕ CoreFault)
  | 0 => (m, .inl [])
  | n + 1 =>
    let bad : CoreFault := { status := .poisoned, reason := 3, at_ := none }
    let t := if i.d.sub = 1 then
        (if Mem.rdLE img 0 1 = 2 ∧ imageDType img = i.d.type ∧ first < 32 then (fritDecode img first, false) else (none, true))
      else if Mem.rdLE img 0 1 = 1 ∧ imageDType img = i.d.type ∧ first < 32 then lehrTileDecode img table first else (none, true)
    match t with
    | (some b, _) =>
      (match m.imageTilesAt i img table (first + 1) n with
        | (m1, .inl r) => (m1, .inl (b ++ r))
        | x => x)
    | (none, e) => (if e then m.coreFormatError i.c .none else m, .inr bad)

/-- DECODE (R286). -/
def effDecode : Effect := fun i m =>
    let u := i.unit i.d.srcA
    let out := fun (x : Mod × (List Byte ⊕ CoreFault)) => match x with
      | (m1, .inl b) => m1.result i b 0
      | (m1, .inr f) => (m1, some f)
    if i.d.sub = 0 then out (m.slotTiles i.c i.k u i.d.count)
    else
      let img := Mem.pack 0 (i.k.bytes u (16 * i.k.imageUnits u))
      let table := ((i.v.bindings[i.d.binding]?).bind (fun b => m.bindRegion b.2)).bind (fun g => (Tbl.find g.tables.gens (lehrGen img)).map (fun t => t.image))
      out (m.imageTilesAt i img table i.d.imm i.d.count)

/-- The row of `effDecode`. -/
def execDecode (core : CoreNo) (s : State) : Out := s.act (fun m => m.issue core.toNat 0x62 effDecode)

end Sys2Proof.Machine
end

