-- ==== Sys2Proof/Machine/Streams.lean ====
section
/-! DEFINITION. The Regulator's settings, admission and scaling, the Escapement's targets, and the paced and ingest streams
(spec/11_regulation_streams.md R346 to R378). -/
namespace Sys2Proof.Machine

/-! ### Capacities (R349, R350) -/

/-- Pin rate of a T0 channel in Gb/s after its guard-band steps (R400). -/
def Mod.t0Rate (m : Mod) (g : Nat) : Nat := 40 - 4 * (m.unitStep (0x2000 + g))

/-- Flit rate of a fabric port in MB/s (R293). -/
def FabPort.rateMB (p : FabPort) : Nat := if p.carries then (if p.mode = 2 then 25000 else 12500) * p.lanes else 0

/-- Per-direction rate of a host port in MB/s. -/
def HostPort.rateMB (p : HostPort) : Nat := if p.mode = .down then 0 else p.width * p.rate * 125

/-- The derated capacity C in MB/s of a resource and index, or the T0 pool in MiB for T0_RESIDENCY. -/
def Mod.capacityC (m : Mod) (res ix : Nat) : Nat :=
  let clock := fun (v : Nat) => v * (16 - m.pow.bSteps) / 16
  let bridges := fun (v : Nat) => v * (8 - m.boot.halfBridges) / 8
  match res with
  | 1 => clock (bridges (sumOf ((m.t0.channels.filter (fun g => !m.t0.offline.contains g)).map (fun g => m.t0Rate g * 1000)) * 85 / 100))
  | 2 => clock (bridges (sumOf ((List.range 8).map (fun d =>
      if (m.t1.getD d T1Port.init).state = .inService then 115200 / 2 ^ m.unitStep (0x3000 + d) else 0))))
  | 3 => clock (if m.t2.inService then sumOf ((List.range 32).map (fun c =>
      if m.t2.lostChannels.contains c then 0 else (9 - m.unitStep (0x4000 + c)) * 320)) else 0)
  | 4 => clock (sumOf (m.fab.ports.map FabPort.rateMB) * 9 / 10)
  | 5 => clock ((m.port ix).rateMB * 85 / 100)
  | 6 => m.t0Pool / 1048576
  | _ => 0

/-! ### Settings and sums (R351, R356 to R358) -/

/-- MIN, MAX and WEIGHT of a master as last set. -/
def Mod.nominal (m : Mod) (key : Nat) : Nat × Nat × Nat :=
  match Tbl.find m.reg.pendingMasters key with
  | some x => x
  | none =>
    match Tbl.find m.reg.masters key with
    | some x => (x.min, x.max, x.weight)
    | none => (engineMin (key / 2 ^ 28) (key % 2 ^ 16), 0, 16)

/-- Every master with settings, a spend or a default minimum at a resource and index. -/
def Mod.mastersAt (m : Mod) (res ix : Nat) : List Nat :=
  let at_ := fun (k : Nat) => k / 2 ^ 16 = res * 4096 + ix
  let l := (Tbl.keys m.reg.masters).filter at_ ++ (Tbl.keys m.reg.pendingMasters).filter at_ ++ ([0x3007, 0x3009].map (regKey res ix))
  l.foldl (fun a k => if a.contains k then a else a ++ [k]) []

/-- The reservations of streams at a resource and index: master and MB/s. -/
def Mod.reserves (m : Mod) (res ix : Nat) : List (Nat × Nat) :=
  m.streams.flatMap (fun t => (t.2.reserve.filter (fun v => v.1 = res * 4096 + ix)).map (fun v => v.2))

/-- The sum of nominal minimums that R356 holds against 80% of the capacity: of a resource in MB/s, of T0_MIN in MiB. -/
def Mod.sumMin (m : Mod) (res ix : Nat) : Nat :=
  if res = 6 then ceilDiv (sumOf (m.mem.parts.map (fun p => p.2.t0Min))) 1048576
  else sumOf ((m.mastersAt res ix).map (fun k => (m.nominal k).1)) + sumOf ((m.reserves res ix).map (fun v => v.2))

/-- A change of a sum is refused: it rises, and beyond 80% of the capacity (R356). -/
def Mod.overshoots (m : Mod) (res ix old new : Nat) : Bool := decide (old < new) && decide (8 * m.capacityC res ix < 10 * new)

/-- NO_RESOURCE of R356. -/
def admission (record res ix : Nat) : Reply := { status := .noResource, detail := record + res * 256 + ix * 65536 }

/-- k that the present sum and capacity call for (R357). -/
def Mod.kNow (m : Mod) (res ix : Nat) : Nat :=
  let s := m.sumMin res ix
  if s = 0 then 1000 else min 1000 (800 * m.capacityC res ix / s)

/-- A master ID of R347. -/
def validMaster (v : Nat) : Bool :=
  match v / 4096 with
  | 0 => decide (v % 4096 < 64) | 1 => decide (v % 4096 < 64) | 2 => decide (v % 4096 < 64) | 3 => decide (v % 4096 < 11) | _ => false

/-! ### WINDOW_BOUNDARY (R351, R354, R357) -/

/-- The resources and indices that k scales. -/
def scaledKeys : List (Nat × Nat) := [(1, 0), (2, 0), (3, 0), (4, 0), (5, 0), (5, 1), (5, 2), (5, 3), (6, 0)]

/-- A new window: new settings and k take effect, spends are zero again, the requests that were held may go, and each change of k raises
REGULATOR_SCALED; an allotment is divided anew (R354). -/
def Mod.newWindow (m : Mod) : Mod :=
  let g := m.reg
  let set := g.pendingMasters.foldl (fun (t : Tbl MasterSet) (p : Nat × (Nat × Nat × Nat)) =>
    Tbl.updD t p.1 (MasterSet.init (p.1 / 2 ^ 28) (p.1 % 2 ^ 16)) (fun x => { x with min := p.2.1, max := p.2.2.1, weight := p.2.2.2 })) g.masters
  let spent := Tbl.mapV set (fun _ (x : MasterSet) => { x with last := x.spend, spend := 0 })
  let win := g.pendingWindow.getD (g.windowNs, g.ageLimitNs)
  let live := m.mvs.filter (fun v => v.2.state == .running || v.2.state == .stopping)
  let divided := Tbl.mapV m.mem.parts (fun p _ => (live.filter (fun v => v.2.partition = p)).length)
  let m1 := { m with mvs := Tbl.mapV m.mvs (fun _ v => { v with spends := [] }), reg := { g with masters := spent, divided := divided, pendingMasters := [], windowNs := win.1, ageLimitNs := win.2, pendingWindow := none } }
  let m2 := m1.each (List.range 16) (fun m i => if (m.fport i).egress = [] then m else m.pump i ((m.fport i).egress.length + 1))
  let m3 := m2.each scaledKeys (fun m x =>
    let key := x.1 * 4096 + x.2
    let k := m.kNow x.1 x.2
    if k = Tbl.findD m.reg.scale key 1000 then m
    else
      let m3 := { m with reg := { m.reg with scale := Tbl.put m.reg.scale key k } }
      m3.raise 0x0901 64 (x.1 + x.2 * 256 + k * 65536 + (m.capacityC x.1 x.2 % 2 ^ 32) * 2 ^ 32) 0 0)
  m3.retryWrites.serveReads .window

/-- WINDOW_BOUNDARY (R351). -/
def execWindowBoundary (s : State) : Out := s.act Mod.newWindow

/-! ### REG_SET_MINIMUMS, REG_SET_SHARES, REG_SET_WINDOW, REG_SET_LATENCY_TARGET, REG_QUERY (R358 to R363) -/

/-- One record of REG_SET_MINIMUMS: its key and settings. -/
def Req.minRecord (r : Req) (i : Nat) : Nat × (Nat × Nat × Nat) :=
  let o := 8 + 16 * i
  (regKey (r.arg (o + 2) 1) (r.arg (o + 3) 1) (r.arg o 2), (r.arg (o + 4) 4, r.arg (o + 8) 4, if r.arg (o + 12) 1 = 0 then 16 else r.arg (o + 12) 1))

/-- The ARGS offset of the first field of a record that lies outside its values. -/
def Mod.minFault (m : Mod) (r : Req) (i : Nat) : Option Nat :=
  let o := 8 + 16 * i
  let res := r.arg (o + 2) 1
  if !validMaster (r.arg o 2) then some o
  else if res = 0 ∨ 5 < res then some (o + 2)
  else if (if res = 5 then 3 < r.arg (o + 3) 1 else r.arg (o + 3) 1 ≠ 0) then some (o + 3)
  else if m.capacityC res (r.arg (o + 3) 1) < r.arg (o + 4) 4 then some (o + 4)
  else if r.arg (o + 8) 4 ≠ 0 ∧ r.arg (o + 8) 4 < r.arg (o + 4) 4 then some (o + 8)
  else if r.arg (o + 13) 3 ≠ 0 then some (o + 13)
  else none

/-- REG_SET_MINIMUMS (R358): all records or none. -/
def cmdRegSetMinimums : Cmd := fun r m =>
  let n := r.arg 0 1
  if n = 0 ∨ 14 < n then badArg m 0
  else if r.arg 1 7 ≠ 0 then badArg m 1
  else
    match (List.range n).findSome? (m.minFault r) with
    | some o => badArg m o
    | none =>
      let recs := (List.range n).map r.minRecord
      let set := recs.foldl (fun (t : Tbl (Nat × Nat × Nat)) p => Tbl.put t p.1 p.2) m.reg.pendingMasters
      let m1 := { m with reg := { m.reg with pendingMasters := set } }
      match (List.range n).find? (fun i =>
        let key := (r.minRecord i).1
        let res := key / 2 ^ 28
        let ix := key / 2 ^ 16 % 4096
        m.overshoots res ix (m.sumMin res ix) (m1.sumMin res ix)) with
      | some i => let key := (r.minRecord i).1; (m, admission i (key / 2 ^ 28) (key / 2 ^ 16 % 4096))
      | none => done m1

/-- REG_SET_SHARES (R359). Writes that wait for a frame try again under the new shares (R114). -/
def cmdRegSetShares : Cmd := fun r m =>
  let p := r.partD
  let lo := r.arg 0 4 * 1048576
  let whole := r.arg 4 4 = 0xFFFFFFFF
  let hi := if whole then m.t0Pool else r.arg 4 4 * 1048576
  let sumQ := fun (m : Mod) => sumOf (m.mem.parts.map (fun x => x.2.queueMin))
  if hi < lo then badArg m 0
  else if r.arg 0xA 2 = 0 ∨ 3072 < r.arg 0xA 2 then badArg m 0xA
  else if r.arg 0xA 2 < r.arg 8 2 then badArg m 8
  else if hi < m.chargesT0 p then fail m .capacity
  else
    let m1 := m.setPart p (fun x => { x with t0Min := lo, t0Max := if whole then none else some hi, queueMin := r.arg 8 2, queueMax := r.arg 0xA 2 })
    if m.overshoots 6 0 (m.sumMin 6 0) (m1.sumMin 6 0) then (m, admission 0 6 0)
    else if sumQ m < sumQ m1 ∧ 2457 < sumQ m1 then (m, admission 0 7 0)
    else done m1.retryWrites.retryHeals

/-- REG_SET_WINDOW (R360). -/
def cmdRegSetWindow : Cmd := fun r m =>
  let w := if r.arg 0 4 = 0 then 4000 else r.arg 0 4
  let a := if r.arg 4 4 = 0 then 20000 else r.arg 4 4
  if w < 500 ∨ 64000 < w ∨ w % 100 ≠ 0 then badArg m 0
  else if a < 1000 ∨ 200000 < a then badArg m 4
  else done { m with reg := { m.reg with pendingWindow := some (w, a) } }

/-- REG_SET_LATENCY_TARGET (R361). -/
def cmdRegSetLatencyTarget : Cmd := fun r m =>
  let t := r.arg 4 4
  if 3 < r.arg 0 1 then badArg m 0
  else if r.arg 1 3 ≠ 0 then badArg m 1
  else if t ≠ 0 ∧ (t < 200 ∨ 1000000 < t) then badArg m 4
  else done (m.setPort (r.arg 0 1) (fun p => { p with latencyTarget := t }))

/-- The partition whose master an ID is. -/
def Mod.masterPart (m : Mod) (v : Nat) : Option Nat :=
  match v / 4096 with
  | 0 => m.ldPart (v % 4096)
  | 3 => none
  | _ => some (v % 4096)

/-- REG_QUERY (R363). The master's minimum includes the reservations of its streams (R365). -/
def cmdRegQuery : Cmd := fun r m =>
  let res := r.arg 0 1
  let ix := r.arg 1 1
  let v := r.arg 2 2
  if res = 0 ∨ 5 < res then badArg m 0
  else if (if res = 5 then 3 < ix else ix ≠ 0) then badArg m 1
  else if !validMaster v then badArg m 2
  else if !r.manager ∧ (m.masterPart v = none ∨ m.masterPart v ≠ m.ownPart r.owner) then fail m .notPermitted
  else
    let key := regKey res ix v
    let n := m.nominal key
    let cur := Tbl.findD m.reg.masters key (MasterSet.init res v)
    let own := (m.reserves res ix).filter (fun x => x.1 = v)
    done m (le 4 (m.capacityC res ix) ++ le 4 (m.sumMin res ix) ++ le 2 (Tbl.findD m.reg.scale (res * 4096 + ix) 1000) ++ le 2 0 ++ le 4 m.reg.windowNs ++
      le 4 m.reg.ageLimitNs ++ le 4 (n.1 + sumOf (own.map (fun x => x.2))) ++ le 4 n.2.1 ++
      le 4 (m.scaled res ix cur.min + sumOf (own.map (fun x => m.scaled res ix x.2))) ++ le 4 cur.last ++ le 1 n.2.2)

/-! ### What a stream's arguments say (R364, R371) -/

def Stream.arg (t : Stream) (off n : Nat) : Nat := Mem.rdLE t.args off n
def Stream.slots (t : Stream) : Nat := 2 ^ t.arg 6 1
def Stream.period (t : Stream) : Nat := t.arg 0x38 4
def Stream.lead (t : Stream) : Nat := t.arg 0x3C 4
/-- Tiles in all; none until stopped (R364). -/
def Stream.total (t : Stream) : Option Nat := if t.arg 0x18 4 = 0 then none else some (t.arg 0x18 4 * t.arg 0x14 4)
/-- The region tile index of tile `n` (R366). -/
def Stream.tileIndex (t : Stream) (n : Nat) : Int := (t.arg 8 8 : Int) + ofTwos 32 (t.arg 0x10 4) * ((n % t.arg 0x14 4 : Nat) : Int)

/-- The holder LD of a context. -/
def Mod.holderOf (m : Mod) (slot : Nat) : Nat := ((Tbl.find m.ctxs slot).bind (fun c => c.holder)).getD 0

/-- The region that gives a stream's tiles their type. -/
def Mod.streamRegion (m : Mod) (t : Stream) : Option Region := m.bindRegion t.region

/-! ### LTR (R370) -/

/-- SLACK of a paced stream. -/
def Mod.slack (m : Mod) (t : Stream) : Nat :=
  t.lead - 1000 - (if (m.streamRegion t).elim false (fun g => g.residency == Residency.pinT0) then 2000 else 250000)

/-- A latency as LatencyScale × 1,024 + value: the finest scale whose value fits in 10 bits, rounded down. -/
def ltrCode (ns : Nat) : Nat :=
  match (List.range 6).find? (fun s => decide (ns / 32 ^ s < 1024)) with
  | some s => s * 1024 + ns / 32 ^ s
  | none => 5 * 1024 + 1023

/-- The nanoseconds of an encoded latency. -/
def ltrNs (c : Nat) : Nat := c % 1024 * 32 ^ (c / 1024)

/-- The encoded LTR value of a host port. -/
def Mod.ltrOf (m : Mod) (h : Nat) : Option Nat :=
  let l := m.streams.filter (fun t => t.2.paced && (t.2.state == StreamState.open || t.2.state == StreamState.stopping) && m.holderOf t.1 / 16 = h)
  match l.map (fun t => m.slack t.2) with
  | [] => none
  | x :: xs => some (ltrCode (xs.foldl min x))

/-- LTR Mechanism Enable: bit 10 of Device Control 2 of function 0 of the port's LD 0 (PRESUMED place: log 5). -/
def Mod.ltrEnabled (m : Mod) (h : Nat) : Bool := bit (Mem.rdLE (m.ld (16 * h)).f0.cfg 0x70 2) 10

/-- Send an LTR message when the value has changed. -/
def Mod.syncLtr (m : Mod) (h : Nat) : Mod :=
  if !m.ltrEnabled h ∨ (m.port h).ltr = m.ltrOf h then m
  else (m.setPort h (fun p => { p with ltr := m.ltrOf h })).send (.ltr h (m.ltrOf h))

/-! ### STREAM_OPEN_PACED and STREAM_OPEN_INGEST (R364, R365, R371) -/

/-- CONTEXT_ID and REGION_ID of an open: the region and the version, or the ARGS offset at fault (R236, R365, R371). -/
def Mod.streamSel (m : Mod) (r : Req) (writable : Bool) : (Nat × VerSel) ⊕ Nat :=
  let id := r.arg 4 2
  if !m.bindable r.partD id then .inr 4
  else if r.arg 0 4 = 0 then (if m.bindNothing (65536, id) then .inr 0 else .inl (id, .head))
  else
    match m.liveCtx (r.arg 0 4) r.partD with
    | none => .inr 0
    | some (s, c) =>
      match c.obj with
      | .view g v => if g = id ∧ !writable then .inl (id, .sealed v) else .inr 0
      | .working g _ _ => if g = id then .inl (id, .working s) else .inr 0
      | _ => .inr 0

/-- The first field of STREAM_OPEN_PACED outside its values. -/
def Mod.pacedFault (m : Mod) (r : Req) : Option Nat :=
  let n := 2 ^ r.arg 6 1
  let checks : List (Bool × Nat) :=
    [(r.arg 6 1 < 2 || 16 < r.arg 6 1, 6), (r.arg 7 1 != 0, 7), (r.arg 0x14 4 = 0, 0x14), (r.arg 0x1C 4 = 0 || decide (n < r.arg 0x1C 4), 0x1C),
     (r.arg 0x20 8 % 4096 != 0, 0x20), (r.arg 0x28 8 % 64 != 0, 0x28), (decide (r.arg 0x38 4 < 50) || decide (1000000000 < r.arg 0x38 4), 0x38),
     (decide (r.arg 0x3C 4 < 2000) || decide ((n - 1) * r.arg 0x38 4 < r.arg 0x3C 4), 0x3C),
     (r.arg 0x30 8 != 0 && decide (r.arg 0x30 8 < m.ftc + r.arg 0x3C 4), 0x30)]
  (checks.find? (fun c => c.1)).map (fun c => c.2)

/-- The first of a stream's reservations that R356 refuses. -/
def Mod.reserveFault (m : Mod) (l : List (Nat × Nat × Nat)) : Option Reply :=
  (l.find? (fun v =>
    let res := v.1 / 4096
    let ix := v.1 % 4096
    let add := sumOf ((l.filter (fun w => w.1 = v.1)).map (fun w => w.2.2))
    m.overshoots res ix (m.sumMin res ix) (m.sumMin res ix + add))).map (fun v => admission 0 (v.1 / 4096) (v.1 % 4096))

/-- A stream just opened. -/
def Stream.init (paced : Bool) (r : Req) (slot region : Nat) (sel : VerSel) : Stream :=
  { paced := paced, ctxSlot := slot, partition := r.partD, state := .open, args := Mem.slice r.slot 0x10 240, region := region, sel := sel, next := 0,
    delivered := 0, holes := 0, lastHole := 0, stopAt := none, fetched := [], cutoffs := 0, startFtc := 0, frames := [], overflow := 0,
    inOverflow := false, drained := 0, reserve := [] }

/-- STREAM_OPEN_PACED (R364, R365). -/
def cmdStreamOpenPaced : Cmd := fun r m =>
  if slotArgLen r.slot ≠ 68 then fail m .badArgument 0x04
  else
    match m.streamSel r false with
    | .inr o => badArg m o
    | .inl (id, sel) =>
      let g := m.bindRegion id
      if g.elim false (fun g => g.dtype == DType.opaque || (g.form == RegForm.frit && g.dtype == DType.fp32)) then badArg m 4
      else
        match m.pacedFault r, r.ld with
        | some o, _ => badArg m o
        | none, none => fail m .notPermitted
        | none, some l =>
          let mb := ceilDiv 2048000 (r.arg 0x38 4)
          let low := g.elim false (fun g => m.residency g == Residency.pinLow)
          let reserve := (5 * 4096 + l / 16, l, mb) :: (if low then [(2 * 4096, l, mb), (3 * 4096, l, mb)] else [(4096, l, mb)])
          if 256 ≤ (m.streams.filter (fun t => t.2.paced)).length then fail m .noResource
          else
            match m.reserveFault reserve with
            | some e => (m, e)
            | none =>
              match m.newCtx r .none (.stream 0) none with
              | (m1, .inr e) => (m1, e)
              | (m1, .inl s) =>
                let start := if r.arg 0x30 8 = 0 then m.ftc + r.arg 0x3C 4 else r.arg 0x30 8
                let t := { Stream.init true r s id sel with startFtc := start, reserve := reserve }
                let m2 := m1.setCtx s (fun c => { c with obj := .stream s })
                ((({ m2 with streams := Tbl.put m2.streams s t }).syncLtr (l / 16)), { status := .ok, context := m2.idOf s })

/-- The staging area of an ingest stream: free raw frames of T0, the highest first. -/
def Mod.stagingArea (m : Mod) (n : Nat) : List Nat :=
  let used := m.t0Used
  (((List.range (m.t0Total / 256)).reverse.map (fun i => i * 256)).filter (fun f => !meets used f 256)).take n

/-- STREAM_OPEN_INGEST (R371). -/
def cmdStreamOpenIngest : Cmd := fun r m =>
  match m.streamSel r true with
  | .inr o => badArg m o
  | .inl (id, sel) =>
    let mib := r.arg 0x10 4
    if r.arg 6 2 ≠ 0 then badArg m 6
    else if mib < 64 ∨ 16384 < mib ∨ mib % 64 ≠ 0 then badArg m 0x10
    else
      match r.ld with
      | none => fail m .notPermitted
      | some l =>
        let reserve := [(4096, l, r.arg 8 4), (if m.t1Usable then 2 * 4096 else 3 * 4096, 0x300A, r.arg 0xC 4)]
        if 64 ≤ (m.streams.filter (fun t => !t.2.paced)).length then fail m .noResource
        else
          match m.reserveFault reserve with
          | some e => (m, e)
          | none =>
            let area := m.stagingArea (mib * 16)
            if 524288 < m.stagingFrames.length + mib * 16 ∨ m.t0Free < mib * 1048576 ∨ area.length < mib * 16 then fail m .capacity
            else
              match m.newCtx r .none (.stream 0) none with
              | (m1, .inr e) => (m1, e)
              | (m1, .inl s) =>
                let t := { Stream.init false r s id sel with reserve := reserve, frames := area }
                let m2 := m1.setCtx s (fun c => { c with obj := .stream s })
                ({ m2 with streams := Tbl.put m2.streams s t }, { status := .ok, context := m2.idOf s })

/-! ### Stop, close and status (R369, R373, R375, R376) -/

/-- The stream that CONTEXT_ID at ARGS offset 0 names. -/
def Mod.streamArg (m : Mod) (r : Req) : Option (Nat × Stream) :=
  match m.liveCtx (r.arg 0 4) r.partD with
  | some (s, c) => (match c.obj with | .stream _ => (Tbl.find m.streams s).map (fun t => (s, t)) | _ => none)
  | none => none

/-- Stop a stream that is OPEN (R369, R373). A paced stream that has no tile left ends instead (R378). -/
def Mod.stopStream (m : Mod) (s : Nat) (t : Stream) : Mod :=
  if t.state ≠ .open then m
  else if t.paced then
    let left := t.total.map (fun n => n - t.next)
    if left = some 0 then m
    else
      let d := min (t.arg 0x1C 4) (left.getD (t.arg 0x1C 4))
      (m.setStream s (fun t => { t with state := .stopping, stopAt := some (t.next + d), fetched := t.fetched.filter (fun f => decide (f.1 < t.next + d)) })).syncLtr
        (m.holderOf s / 16)
  else (m.setStream s (fun t => { t with state := .stopping })).drainCheck s

/-- STREAM_STOP (R369). -/
def cmdStreamStop : Cmd := fun r m =>
  match m.streamArg r with
  | none => badArg m 0
  | some (s, t) => done (m.stopStream s t)

/-- Close a stream: it ends at once, its staging and its reservations are released, and it writes nothing more (R373, R376). -/
def Mod.closeStream (m : Mod) (s : Nat) : Mod :=
  let h := m.holderOf s / 16
  let m1 := { m with streams := Tbl.del m.streams s }
  let m2 := m1.setFm (fun e => { e with requests := e.requests.filter (fun q => !(q.kind = 10 && q.src == WriteSrc.ingest s)) })
  (((m2.freeCtx s).syncLtr h).retryWrites).sendWaiting

/-- STREAM_CLOSE (R376). -/
def cmdStreamClose : Cmd := fun r m =>
  match m.streamArg r with
  | none => badArg m 0
  | some (s, _) => done (m.closeStream s)

def StreamState.code : StreamState → Nat
  | .open => 0 | .stopping => 1 | .stopped => 2 | .ended => 3

/-- STREAM_STATUS (R375). -/
def cmdStreamStatus : Cmd := fun r m =>
  match m.streamArg r with
  | none => badArg m 0
  | some (s, t) =>
    let eff := match t.reserve with | v :: _ => m.scaled (v.1 / 4096) (v.1 % 4096) v.2.2 | [] => 0
    let staged := (m.stagedIn t).length
    let ltr := if t.paced then (m.ltrOf (m.holderOf s / 16)).elim 0 ltrNs else 0
    (m, { status := .ok, context := m.idOf s,
          data := le 1 t.state.code ++ le 1 (b2n (!t.paced)) ++ le 2 0 ++ le 4 eff ++ le 8 (if t.paced then t.delivered else staged * 65536) ++
            le 8 (if t.paced then t.holes else t.overflow) ++ le 8 (if t.paced then t.next else t.drained) ++ le 8 t.lastHole ++
            le 4 (ceilDiv staged 16) ++ le 4 ltr })

/-! ### Paced delivery (R366 to R369) -/

/-- One past the last tile to deliver. -/
def Stream.bound (t : Stream) : Option Nat := match t.stopAt with | some n => some n | none => t.total

/-- Keep the outcome of a fetch. -/
def Mod.fetchedTile (m : Mod) (s n outcome : Nat) (bytes : List Byte) : Mod :=
  m.setStream s (fun t => { t with fetched := (t.fetched.filter (fun f => f.1 != n)) ++ [(n, outcome, bytes)] })

/-- Fetch a tile of a local pane as a core tile fetch (R111, R113, R366), expanded to raw. -/
def Mod.pacedLocal (m : Mod) (s n r : Nat) (sel : VerSel) (pane tile : Nat) : Mod :=
  match Tbl.find m.mem.regions r with
  | none => m.fetchedTile s n 4 []
  | some g =>
    if (g.extentAt pane).isNone then m.fetchedTile s n 4 []
    else
      match m.recAt r sel pane with
      | none => m.fetchedTile s n 1 (List.replicate 2048 0)
      | some (k, x) =>
        if (m.readWaits (.host (m.holderOf s) 0) k x [] none).isSome then m
        else
          let m1 := if x.tier = .t0 then m.bump k else if x.tier = .unbacked then m else m.readMiss k x (m.holderOf s)
          let m2 := m1.countRead x (tile * 32) (m.holderOf s) true
          let y := (Tbl.find m2.mem.recs k).getD x
          let t := m2.rawTile { x with state := y.state, poison := y.poison } tile
          let l := m.holderOf s
          let m3 := if t.formatError then m2.logErr { unit := 0x6000 + l / 16, code := 0x060B, sev := .contained, opn := .tileFetch 0, address := pane * 1024 + tile * 32,
                                                       space := .regionPane, partition := g.owner, region := r, context := m.idOf s } else m2
          if t.poisoned then (m3.healPoisonRead k).fetchedTile s n 2 [] else m3.fetchedTile s n 1 t.body

/-- The number of the next tile that a paced stream fetches: fetches run ahead of the tiles written. -/
def Stream.nextFetch (t : Stream) : Nat := match t.fetched.getLast? with | some f => max t.next (f.1 + 1) | none => t.next

/-- Begin the fetch of the next tile of a paced stream (R366). A window fault is found here (R368). -/
def Mod.pacedFetch (m : Mod) (s : Nat) : Mod :=
  match Tbl.find m.streams s with
  | none => m
  | some t =>
    let n := t.nextFetch
    if !t.paced ∨ (t.state ≠ .open ∧ t.state ≠ .stopping) ∨ t.bound.elim false (fun b => decide (b ≤ n)) then m
    else
      match t.tileIndex n with
      | .negSucc _ => m.fetchedTile s n 4 []
      | .ofNat i =>
        let pane := i / 32
        if t.region < 0x8000 then m.pacedLocal s n t.region t.sel pane (i % 32)
        else
          let fr := t.region - 0x8000
          match (Tbl.find m.fm.regions fr).bind (fun f => (f.entry pane).map (fun e => (f, e))) with
          | none => m.fetchedTile s n 4 []
          | some (f, e) =>
            if e.home = m.fab.deviceId ∧ !f.accessor then
              let sel := m.partSel t.sel
              (m.reachPart fr sel false).pacedLocal s n f.localRegion sel (f.localPane e pane) (i % 32)
            else
              let v := m.refVersion t.sel
              (m.fetchedTile s n 0 []).request 10 e.home 0 0x12 0 (regionFlow fr) (refBytes i v.1 v.2 m.fab.deviceId (f.stripeGen % 65536) 5) n (.ingest s)
                (0x8000 + fr) t.partition

/-- PACED_TILE_FETCH (R366): D(n) − LEAD_NS of the next tile whose fetch has not begun. -/
def execPacedTileFetch (slot : SlotNo) (s : State) : Out := s.act (fun m => m.pacedFetch slot.toNat)

/-- A ring record (R367) of the slot of tile `n`. -/
def Mod.pacedRecord (m : Mod) (s : Nat) (t : Stream) (n kind reason index : Nat) : Mod :=
  let l := m.holderOf s
  let d := (m.streamRegion t).elim 0 (fun g => g.dtype.code)
  (m.dmaWrite l (t.arg 0x28 8 + 16 * (n % t.slots)) (leBytes 4 n ++ leBytes 1 kind ++ leBytes 1 reason ++ leBytes 1 d ++ leBytes 1 0 ++ leBytes 8 index)).count
    0x000A (0x6000 + l / 16) l (some t.partition) 16

/-- After the record of tile `n`: PROGRESS each PROGRESS_EVERY tiles (R364, R374). -/
def Mod.progress (m : Mod) (s : Nat) (t : Stream) : Mod :=
  if t.arg 0x40 4 ≠ 0 ∧ t.next % t.arg 0x40 4 = 0 then m.bulk s 0x0813 t.delivered 0 else m

/-- The next tile is delivered. -/
def Mod.pacedDelivered (m : Mod) (s : Nat) (t : Stream) (bytes : List Byte) : Mod :=
  let l := m.holderOf s
  let n := t.next
  let m1 := (m.dmaWrite l (t.arg 0x20 8 + 2048 * (n % t.slots)) bytes).count 0x000A (0x6000 + l / 16) l (some t.partition) 2048
  let m2 := m1.pacedRecord s t n 1 0 (t.tileIndex n).toNat
  let t1 := { t with next := n + 1, delivered := t.delivered + 1, fetched := t.fetched.filter (fun f => f.1 != n) }
  (m2.setStream s (fun _ => t1)).progress s t1

/-- Write the next tile: its data, and then its record behind it (R366, R367). -/
def Mod.pacedWrite (m : Mod) (s : Nat) : Mod :=
  match Tbl.find m.streams s with
  | none => m
  | some t =>
    if t.state ≠ .open ∧ t.state ≠ .stopping then m
    else
      match t.fetched.find? (fun f => f.1 = t.next) with
      | some (_, 1, bytes) =>
        if m.overMax 5 (m.holderOf s / 16) (m.holderOf s) none then m else m.pacedDelivered s t bytes
      | _ => m

/-- PACED_TILE_WRITE (R366): the time for the next tile's data has come. -/
def execPacedTileWrite (slot : SlotNo) (s : State) : Out := s.act (fun m => m.pacedWrite slot.toNat)

/-- The next tile is abandoned with a HOLE. -/
def Mod.pacedHole (m : Mod) (s : Nat) (t : Stream) : Mod :=
  let n := t.next
  let reason := match t.fetched.find? (fun f => f.1 = n) with | some f => (if f.2.1 < 2 then 1 else f.2.1) | none => 1
  let l := m.holderOf s
  let m1 := m.pacedRecord s t n 2 reason (t.tileIndex n).toNat
  let t1 := { t with next := n + 1, holes := t.holes + 1, lastHole := n % 2 ^ 32, cutoffs := n + 1, fetched := t.fetched.filter (fun f => f.1 != n) }
  let m2 := ((m1.setStream s (fun _ => t1)).bulk s 0x0810 (n % 2 ^ 32) reason).count 0x0044 (0x6000 + l / 16) l (some t.partition) 1
  (m2.traceEv (0x6000 + l / 16) 0x0B t.partition reason (m.idOf s) 0 (n % 2 ^ 32)).progress s t1

/-- The cutoff of the next tile whose cutoff has not passed: a tile with no record gets a HOLE and is abandoned (R368). -/
def Mod.pacedCutoff (m : Mod) (s : Nat) : Mod :=
  match Tbl.find m.streams s with
  | none => m
  | some t =>
    if !t.paced ∨ (t.state ≠ .open ∧ t.state ≠ .stopping) ∨ t.bound.elim false (fun b => decide (b ≤ t.cutoffs)) then m
    else if t.cutoffs < t.next then m.setStream s (fun t => { t with cutoffs := t.cutoffs + 1 })
    else
      m.pacedHole s t

/-- PACED_CUTOFF (R368). -/
def execPacedCutoff (slot : SlotNo) (s : State) : Out := s.act (fun m => m.pacedCutoff slot.toNat)

/-- PACED_STOP_RECORD (R369): the deadline of tile n0 + d of a stopping stream. -/
def execPacedStopRecord (slot : SlotNo) (s : State) : Out :=
  s.act (fun m =>
    let n := slot.toNat
    match Tbl.find m.streams n with
    | none => m
    | some t =>
      if !t.paced ∨ t.state ≠ .stopping ∨ t.stopAt ≠ some t.next then m
      else
        ((((m.pacedRecord n t t.next 3 0 0).setStream n (fun t => { t with state := .stopped, fetched := [] })).bulk n 0x0811 (t.next % 2 ^ 32) 0).syncLtr
          (m.holderOf n / 16)))

/-- PACED_END_RECORD (R369): the deadline after the last tile of the last pass. -/
def execPacedEndRecord (slot : SlotNo) (s : State) : Out :=
  s.act (fun m =>
    let n := slot.toNat
    match Tbl.find m.streams n with
    | none => m
    | some t =>
      if !t.paced ∨ t.state ≠ .open ∨ t.total ≠ some t.next then m
      else
        ((((m.pacedRecord n t t.next 4 0 0).setStream n (fun t => { t with state := .ended, fetched := [] })).bulk n 0x0812 (t.next % 2 ^ 32) 0).syncLtr
          (m.holderOf n / 16)))

/-! ### The drain of ingest staging (R373, R612, R613) -/

/-- Drain one staged pane: an eviction, or, for a PIN_T0 region, a move into an ordinary frame that the maximum share can take. -/
def Mod.drainPane (m : Mod) (k : Nat) (x : PaneRec) : Mod :=
  match Tbl.find m.mem.regions x.region with
  | none => m
  | some g =>
    if m.residency g ≠ .pinT0 then m.startEvict k
    else if x.state ≠ .stable ∨ x.old ≠ none ∨ x.sealEncode ∨ x.unpacking ≠ none ∨ !m.shareOk g.owner 65536 then m
    else
      match m.t0Alloc true 256 256 with
      | some f => m.setRec k (fun x => { x with state := .movingUp, demand := true, dest := some { tier := .t0, loc := f, sectors := 256 } })
      | none => m

/-- INGEST_DRAIN_IDLE (R373): a staged pane of the stream falls due for the drain. -/
def execIngestDrainIdle (slot : SlotNo) (record : Nat) (s : State) : Out :=
  s.act (fun m =>
    match Tbl.find m.streams slot.toNat with
    | none => m
    | some t =>
      match (m.stagedIn t).find? (fun x => x.1 = record) with
      | some (k, x) => m.drainPane k x
      | none => m.drainCheck slot.toNat)

/-! ### The rows -/

/-- STREAM_OPEN_PACED (R364). -/
def execStreamOpenPaced (ch : ChanNo) (s : State) : Out := s.mailbox ch 0x0800 anyForm cmdStreamOpenPaced
/-- STREAM_OPEN_INGEST (R371). -/
def execStreamOpenIngest (ch : ChanNo) (s : State) : Out := s.mailbox ch 0x0801 anyForm cmdStreamOpenIngest
/-- STREAM_STOP (R369). -/
def execStreamStop (ch : ChanNo) (s : State) : Out := s.mailbox ch 0x0802 anyForm cmdStreamStop
/-- STREAM_CLOSE (R376). -/
def execStreamClose (ch : ChanNo) (s : State) : Out := s.mailbox ch 0x0803 anyForm cmdStreamClose
/-- STREAM_STATUS (R375). -/
def execStreamStatus (ch : ChanNo) (s : State) : Out := s.mailbox ch 0x0804 anyForm cmdStreamStatus
/-- REG_SET_MINIMUMS (R358). -/
def execRegSetMinimums (ch : ChanNo) (s : State) : Out := s.mailbox ch 0x0900 anyForm cmdRegSetMinimums
/-- REG_SET_SHARES (R359). -/
def execRegSetShares (ch : ChanNo) (s : State) : Out := s.mailbox ch 0x0901 anyForm cmdRegSetShares
/-- REG_SET_WINDOW (R360). -/
def execRegSetWindow (ch : ChanNo) (s : State) : Out := s.mailbox ch 0x0902 anyForm cmdRegSetWindow
/-- REG_SET_LATENCY_TARGET (R361). -/
def execRegSetLatencyTarget (ch : ChanNo) (s : State) : Out := s.mailbox ch 0x0903 anyForm cmdRegSetLatencyTarget
/-- REG_QUERY (R363). -/
def execRegQuery (ch : ChanNo) (s : State) : Out := s.mailbox ch 0x0904 anyForm cmdRegQuery

end Sys2Proof.Machine
end

