-- ==== Sys2Proof/Machine/FabRequests.lean ====
section
/-! DEFINITION. Line and tile requests of the fabric-wide memory space: what a home answers, and what the answers, refusals, redirects and
timeouts do at the origin (spec/10_fabric_memory_space.md R327 to R336, R343; spec/15_integrity_poison.md R477, R478). -/
namespace Sys2Proof.Machine

/-! ### Taking packets -/

/-- A packet leaves the receive buffers of a port, and its credits are to be returned (R303). -/
def FabPort.release (f : FabPort) (p : Packet) : FabPort :=
  { f with arrived := dropFirst p f.arrived, owed := if p.q.free then f.owed else f.owed.modify p.vc (· + p.credits) }

/-- Two packets of one flow and one class (R307). -/
def Packet.sameFlow (p q : Packet) : Bool :=
  p.src = q.src && p.dest = q.dest && p.flow = q.flow && p.cls = q.cls && p.isLocal = q.isLocal

/-- The first packet that passes a test and has none of its flow and class before it, which keeps their order (R307); `seen` are those before. -/
def firstDue (ok : Packet → Bool) : List Packet → List Packet → Option Packet
  | _, [] => none
  | seen, q :: qs => if ok q && !seen.any q.sameFlow then some q else firstDue ok (q :: seen) qs

/-- The next packet for this module that has arrived on a port and passes the test, taken off the port. -/
def Mod.take (m : Mod) (port : Nat) (p : Packet → Bool) : Option (Packet × Mod) :=
  (firstDue (fun q => (q.dest = m.fab.deviceId || q.isLocal) && p q) [] (m.fport port).arrived).map
    (fun q => (q, m.setFport port (fun f => f.release q)))

/-- Handle the next packet of an opcode that has arrived on a port. -/
def Mod.onPacket (m : Mod) (port op : Nat) (f : Packet → Mod → Mod) : Mod :=
  match m.take port (fun q => q.op = op) with
  | some (q, m1) => f q m1
  | none => m

/-- Bytes of a packet's payload as a number. -/
def Packet.num (p : Packet) (off n : Nat) : Nat := leNat ((p.payload.drop off).take n)

/-- The fields of the reference at the start of a payload (R333). -/
def Packet.index (p : Packet) : Nat := p.num 0 8
def Packet.version (p : Packet) : Nat := p.num 8 4
def Packet.wctx (p : Packet) : Nat := p.num 12 4
def Packet.origin (p : Packet) : Nat := p.num 16 2
def Packet.refFlags (p : Packet) : Nat := p.num 20 1
/-- The FREGION_ID of a region packet. -/
def Packet.fregion (p : Packet) : Nat := p.flow % 16384

/-- The selector that a reference names in a local part (R333). -/
def Packet.sel (p : Packet) : VerSel :=
  if p.version = 0xFFFFFFFF then .head else if p.version = 0xFFFFFFFE then .part (p.origin * 2 ^ 32 + p.wctx) else .sealed p.version

/-- The 8 B of a stripe map entry (R329). -/
def StripeEntry.num (e : StripeEntry) : Nat := e.home % 16384 + 2 ^ 15 * b2n e.moving + 2 ^ 16 * e.localUnit
def StripeEntry.ofNum (v gen : Nat) : StripeEntry := { home := bits v 0 14, gen := gen, localUnit := bits v 16 32, moving := bit v 15 }

/-! ### The home (R328, R335, R336) -/

/-- REDIRECT with the present entry of a unit. -/
def Mod.redirect (m : Mod) (p : Packet) (f : FabRegion) (unit : Nat) : Mod :=
  m.sendPacket (m.packetTo p.src 1 p.flow 0x17 p.tag (leBytes 4 f.stripeGen ++ leBytes 4 unit ++ leBytes 8 ((Tbl.find f.stripe unit).elim 0 StripeEntry.num)))

/-- The local region, version and pane of a region packet that this module homes; otherwise the module has answered it. -/
def Mod.atHome (m : Mod) (p : Packet) (pane : Nat) (write : Bool) : Mod × Option (Nat × VerSel × Nat) :=
  let no := fun (reason : Nat) => (m.nack p.flow p.src p.tag reason, none)
  match Tbl.find m.fm.regions p.fregion with
  | none => no 3
  | some f =>
    if f.accessor ∨ 16384 ≤ p.flow then no 3
    else
      match f.entry pane with
      | none => no 4
      | some e =>
        if e.home ≠ m.fab.deviceId then (m.redirect p f (pane / 2 ^ f.log2Stripe), none)
        else
          let q := f.localPane e pane
          if ((Tbl.find m.mem.regions f.localRegion).bind (fun g => g.extentAt q)).isNone then no 4
          else (m.reachPart p.fregion p.sel write, some (f.localRegion, p.sel, q))

/-- A grant lets the packet's source reach a region (R328). -/
def Mod.granted (m : Mod) (r : Nat) (p : Packet) (write : Bool) : Bool :=
  m.fm.grants.any (fun g => g.1 = r && (g.2.1 = 0xFFFF || g.2.1 = p.src) && (g.2.2.1 = 0xFF || g.2.2.1 = p.srcPart) && (!write || g.2.2.2 = 2))

/-- The region, region pane index and byte in the pane of a fabric address that a packet may access; otherwise the module has refused
it (R327, R328). -/
def Mod.absHome (m : Mod) (p : Packet) (port : Nat) (write : Bool) : Mod × Option (Nat × Nat × Nat) :=
  let a := p.index
  if bits a 48 2 ≠ 0 ∨ a / 2 ^ 50 ≠ m.fab.deviceId then (m.nack p.flow p.src p.tag 1, none)
  else
    let place := ((Tbl.find m.mem.extents (a % 2 ^ 48 / 2 ^ 28)).bind (fun e => e.region)).bind (fun o =>
      if (Tbl.find m.mem.regions o.1).elim false (fun g => !g.striped) then some (o.1, o.2 * 4096 + a / 65536 % 4096, a % 65536) else none)
    match place with
    | some x =>
      if m.granted x.1 p write then (m, some x)
      else
        ((m.logErr { unit := 0x5000 + port, code := 0x0508, sev := .info, opn := .remote, address := a, space := .fabric, partition := m.ownerOf x.1,
                     region := x.1 }).nack p.flow p.src p.tag 2, none)
    | none =>
      ((m.logErr { unit := 0x5000 + port, code := 0x0508, sev := .info, opn := .remote, address := a, space := .fabric }).nack p.flow p.src p.tag 2, none)

/-- LINE_RD at its home (R335). -/
def onLineRd (port : BitVec 4) (check : Media) : Packet → Mod → Mod := fun p m =>
    if bit p.refFlags 1 then
      match m.absHome p port.toNat false with
      | (m1, some (r, pane, off)) => m1.remoteLine p.flow p.src p.tag p.srcPart r .head pane (off / 64) check
      | (m1, none) => m1
    else
      match m.atHome p (p.index / 1024) false with
      | (m1, some (r, sel, pane)) => m1.remoteLine p.flow p.src p.tag p.srcPart r sel pane (p.index % 1024) check
      | (m1, none) => m1

/-- The row of `onLineRd`. -/
def execLineRd (port : BitVec 4) (check : Media) (s : State) : Out := s.act (fun m => m.onPacket port.toNat 0x10 (onLineRd port check))

/-- TILE_RD at its home (R336). -/
def onTileRd (port : BitVec 4) (check : Media) : Packet → Mod → Mod := fun p m =>
    let fl := p.refFlags
    if bit fl 1 then
      match m.absHome p port.toNat false with
      | (m1, some (r, pane, off)) => m1.remoteTile p.flow p.src p.tag p.srcPart r .head pane (off / 2048) (bit fl 0) (bit fl 2) (bit fl 3) check
      | (m1, none) => m1
    else
      match m.atHome p (p.index / 32) false with
      | (m1, some (r, sel, pane)) => m1.remoteTile p.flow p.src p.tag p.srcPart r sel pane (p.index % 32) (bit fl 0) (bit fl 2) (bit fl 3) check
      | (m1, none) => m1

/-- The row of `onTileRd`. -/
def execTileRd (port : BitVec 4) (check : Media) (s : State) : Out := s.act (fun m => m.onPacket port.toNat 0x12 (onTileRd port check))

/-- A write of another module to a local pane (R335): a write to the head of a VERSIONING ON region is discarded and logged, as a plain
access is (R197, R328). -/
def Mod.remoteWrite (m : Mod) (p : Packet) (r : Nat) (sel : VerSel) (pane off : Nat) (bytes : List Byte) (poison : Bool) : Mod :=
  let ver := (Tbl.find m.mem.regions r).elim false (fun g => g.versioning)
  let fixed := match sel with | .part _ => false | _ => ver
  if m.writesStopped then (m.drainDiscard none r pane (off / 64)).sendPacket (m.packetTo p.src 1 p.flow 0x16 p.tag [])
  else if fixed then
    let unit := match m.recAt r sel pane with | some (k, _) => walkerOf k | none => walkerOf pane
    (m.logErr { unit := unit, code := 0x0805, sev := .info, opn := .remote, address := pane * 1024 + off / 64, space := .regionPane, partition := m.ownerOf r,
                region := r }).sendPacket (m.packetTo p.src 1 p.flow 0x16 p.tag [])
  else
    m.submit { src := .remote p.flow p.src p.tag p.srcPart, region := r, sel := sel, pane := pane, offset := off, bytes := bytes, enable := [], poisoned := poison,
               wait := .frame }

/-- LINE_WR at its home (R335). -/
def onLineWr (port : BitVec 4) : Packet → Mod → Mod := fun p m =>
    let data := ((p.payload.drop 32) ++ List.replicate 64 0).take 64
    if bit p.refFlags 1 then
      match m.absHome p port.toNat true with
      | (m1, some (r, pane, off)) => m1.remoteWrite p r .head pane (off / 64 * 64) data p.poison
      | (m1, none) => m1
    else
      match m.atHome p (p.index / 1024) true with
      | (m1, some (r, sel, pane)) => m1.remoteWrite p r sel pane (p.index % 1024 * 64) data p.poison
      | (m1, none) => m1

/-- The row of `onLineWr`. -/
def execLineWr (port : BitVec 4) (s : State) : Out := s.act (fun m => m.onPacket port.toNat 0x11 (onLineWr port))

/-- The raw tile of a TILE_WR payload: raw as it is, or a tag and body expanded (R332); and whether it is poisoned. -/
def Mod.writtenTile (m : Mod) (p : Packet) : List Byte × Bool :=
  let d := p.payload.drop 32
  if d.length = 2048 then (d, p.poison)
  else
    match m.expandTag (d.take 16) (d.drop 16) with
    | .ok b => (b, p.poison)
    | _ => (List.replicate 2048 0, true)

/-- TILE_WR at its home (R335). -/
def onTileWr (port : BitVec 4) : Packet → Mod → Mod := fun p m =>
    let t := m.writtenTile p
    if bit p.refFlags 1 then
      match m.absHome p port.toNat true with
      | (m1, some (r, pane, off)) => m1.remoteWrite p r .head pane (off / 2048 * 2048) t.1 t.2
      | (m1, none) => m1
    else
      match m.atHome p (p.index / 32) true with
      | (m1, some (r, sel, pane)) => m1.remoteWrite p r sel pane (p.index % 32 * 2048) t.1 t.2
      | (m1, none) => m1

/-- The row of `onTileWr`. -/
def execTileWr (port : BitVec 4) (s : State) : Out := s.act (fun m => m.onPacket port.toNat 0x13 (onTileWr port))

/-! ### Answers at the origin (R335, R336, R343) -/

/-- A device has answered: it is reachable. -/
def Mod.reached (m : Mod) (dev : Nat) : Mod := if m.fab.unreachable.contains dev then m.setFab (fun f => { f with unreachable := f.unreachable.erase dev }) else m

/-- A core's fetch by its ticket. -/
def Mod.fetchOf (m : Mod) (c ticket : Nat) : Option FetchReq := (m.core c).fetches.find? (fun f => f.ticket = ticket)

/-- A check that a core's request fails: the run ends with it (R245, R343). -/
def Mod.failCore (m : Mod) (c : Nat) (st : Status) (reason : Nat) (place : Option (Nat × Nat)) : Mod :=
  if (m.runOf c).isNone then m
  else m.setCore c (fun k => { k with fault := match k.fault with | some f => some f | none => some (st, reason, place) })

/-- The element type that a fetch's slot gets when its tile is poisoned. -/
def Mod.fetchDType (m : Mod) (f : FetchReq) : DType := (m.bindRegion f.region).elim DType.opaque (fun g => g.dtype)

/-- Discard a host write to a fabric pane, with its record, and complete it (R343). -/
def Mod.hostLost (m : Mod) (q : RemoteReq) (l tag : Nat) : Mod := (m.discarded l q.context (q.address / 1024) (q.address % 1024) none).hostCmp l tag

/-- A request of an indirect buffer fails: the command that waits for it completes, or the load ends (R58, R469). -/
def Mod.bufFail (m : Mod) (key : Nat) (st : Status) : Mod :=
  if 4096 ≤ key then m.loadUnread (key - 4096) st
  else
    let at_ := match m.bufs.find? (fun b => b.key = key) with | some b => b.descAt | none => 0x10
    ((m.dropBufs key).post key { status := st, detail := if st = .badArgument then at_ else 0 }).serveUnknown m.gaffer.order.length

/-- A store of a core is dropped for want of space (R134, R245). -/
def Mod.storeDropped (m : Mod) (c ticket : Nat) : Mod :=
  let m1 := match (m.core c).movement with
    | some v => m.setMv v (fun x => { x with droppedTiles := satInc (2 ^ 32 - 1) x.droppedTiles, dropCore := some (x.dropCore.getD c) })
    | none => m
  m1.dropStore c ticket

/-- Answer a VERSION_OP (R334). -/
def Mod.vopRsp (m : Mod) (dest fr tag : Nat) (st : Status) (version : Nat) (data : List Byte) : Mod :=
  m.sendPacket (m.packetTo dest 1 (regionFlow fr) 0x1A tag (leBytes 2 st.code ++ leBytes 2 0 ++ leBytes 4 version ++ data))

/-- A record that this module sent has been placed, or has not: the answer to REHOME_SEND goes out with the last, or with a failure. -/
def Mod.recordAnswered (m : Mod) (fr unit : Nat) (failed : Option Status) : Mod :=
  match m.fm.unitMoves.find? (fun x => x.fregion = fr && x.unit = unit && x.sending) with
  | none => m
  | some x =>
    let gone := m.setFm (fun e => { e with unitMoves := e.unitMoves.filter (fun y => y != x) })
    match failed with
    | some st =>
      (gone.setFm (fun e => { e with requests := e.requests.filter (fun q => !(q.kind = 7 && q.context = 0x8000 + fr && q.address = unit)) })).vopRsp x.registrar fr x.token st 0 []
    | none =>
      if x.left ≤ 1 then gone.vopRsp x.registrar fr x.token .ok 0 []
      else m.setFm (fun e => { e with unitMoves := e.unitMoves.map (fun y => if y = x then { y with left := y.left - 1 } else y) })

/-- How a request fails: NACK with a reason, or the home is unreachable (reason 0). The request has been settled (R343). -/
def Mod.requestFailed (m : Mod) (q : RemoteReq) (reason : Nat) : Mod :=
  let denied := decide (1 ≤ reason) && decide (reason ≤ 4)
  match q.kind, q.src with
  | 0, .host l tag => m.hostData l tag q.context q.address none
  | 1, .host l tag => if reason = 5 then m.hostCmp l tag else m.hostLost q l tag
  | 9, .host l tag => m.hostLost q l tag
  | 2, .core c ticket =>
    (match m.fetchOf c ticket with
      | none => m
      | some f =>
        if denied then m.failCore c .notPermitted 1 (some (f.binding, f.pane))
        else m.fillSlot c f ((StoredTile.zero (m.fetchDType f) true).tag 0) [])
  | 3, .core c ticket =>
    if reason = 5 then m.storeDropped c ticket
    else if denied then (m.failCore c .notPermitted 1 (((m.core c).stores.find? (fun s => s.ticket = ticket)).map (fun s => (s.binding, s.pane)))).dropStore c ticket
    else (m.failCore c .aborted 0x0B none).dropStore c ticket
  | 4, _ => m.healFail q.context (if reason = 0 then 3 else 1)
  | 5, _ => m.bufFail (q.context / 8) (if reason = 6 then .poisoned else .badArgument)
  | 7, _ => m.recordAnswered (q.context - 0x8000) q.address (some (if reason = 5 then .capacity else .timeout))
  | 10, .ingest s =>
    m.setStream s (fun t => { t with fetched := t.fetched.map (fun f => if f.1 = q.address ∧ f.2.1 = 0 then
      (f.1, (if reason = 0 then 3 else if reason = 6 then 2 else 4), []) else f) })
  | _, _ => m

/-- A member has become unreachable: FAB_MEMBER_LOST once, to each partition that has joined a region with it (R343). -/
def Mod.memberLost (m : Mod) (dev : Nat) : Mod :=
  if m.fab.unreachable.contains dev then m
  else
    let joined := m.fm.regions.filter (fun f => f.2.registrar = dev || f.2.members.contains dev || f.2.stripe.any (fun e => e.2.home = dev))
    if joined = [] then m
    else
      let parts := joined.foldl (fun a f => if a.contains f.2.partition then a else a ++ [f.2.partition]) []
      (m.setFab (fun f => { f with unreachable := f.unreachable ++ [dev] })).each parts (fun m p => m.raise 0x0D05 p dev 0 0)

/-- Write a partial line that has been read: the merged line goes to its home, with the poison that a partial write keeps or adds
(R386, R335). -/
def Mod.mergeLine (m : Mod) (q : RemoteReq) (line : List Byte) (poison : Bool) : Mod :=
  let merged := (List.range 64).map (fun i => if q.enable.getD i false then q.data.getD i 0 else line.getD i 0)
  m.request (match q.src with | .host _ _ => 1 | _ => 6) q.device 0 0x11 0 q.packet.flow (q.packet.payload.take 32 ++ merged) q.address q.src q.context q.packet.srcPart
    (poison || q.packet.poison)

/-- The tiles of a scrub's comparison are handled with the scrub; a heal's tile is kept, and poison ends the heal (R477, R478). -/
def Mod.healTile (m : Mod) (k t : Nat) (bytes : List Byte) (poison : Bool) : Mod :=
  if poison then m.healFail k 2
  else m.setSvc (fun v => { v with heals := v.heals.map (fun h => if h.record = k then { h with tiles := Tbl.put h.tiles t (Mem.pack 0 (bytes.take 2048)) } else h) })

/-- LINE_DATA (R335). -/
def onLineData : Packet → Mod → Mod := fun p m =>
    match m.requestOf p.tag with
    | none => m
    | some q =>
      if q.device ≠ p.src then m
      else
        let m1 := (m.settleRequest p.tag).reached p.src
        let data := (p.payload ++ List.replicate 64 0).take 64
        match q.kind, q.src with
        | 0, .host l tag => m1.hostData l tag q.context q.address (if p.poison then none else some data)
        | 9, _ => m1.mergeLine q data p.poison
        | 5, _ =>
          if p.poison then m1.bufFail (q.context / 8) .poisoned
          else
            match m1.bufAt (q.context / 8) (q.context % 8) with
            | none => m1
            | some b =>
              let lo := max q.address b.address
              let hi := min (q.address + 64) (b.address + b.length)
              m1.bufArrived b.key b.index (lo - b.address) ((data.drop (lo - q.address)).take (hi - lo))
        | _, _ => m1

/-- The row of `onLineData`. -/
def execLineData (port : BitVec 4) (s : State) : Out := s.act (fun m => m.onPacket port.toNat 0x14 onLineData)

/-- The local table store slot of a table of another module, installing it where it is new and a slot is free (R336). -/
def Mod.foreignSlot (m : Mod) (dev fr : Nat) (image : Mem) : Mod × Option Nat :=
  let gen := Mem.rdLE image 2 1 % 16
  match m.fm.foreignTables.find? (fun t => t.2.1 = (dev, fr, gen) && t.2.2 == image) with
  | some (s, _) => (m, some s)
  | none =>
    match m.freeSlot with
    | (none, m1) => (m1, none)
    | (some s, m1) =>
      let m2 := m1.setMem (fun e => { e with tableSlots := e.tableSlots ++ [s] })
      (m2.setFm (fun e => { e with foreignTables := Tbl.put e.foreignTables s ((dev, fr, gen), image) }), some s)

/-- A tile of a core's fetch has come: its table is held here, and its tag names the local slot; with no slot free it is asked for raw
(R336). -/
def Mod.fetchArrived (m : Mod) (q : RemoteReq) (p : Packet) (c : Nat) (f : FetchReq) : Mod :=
  let attached := bit q.packet.refFlags 3
  let d := if attached then p.payload.drop 144 else p.payload
  let tag := d.take 16
  let body := d.drop 16
  let b := fun (i : Nat) => (tag.getD i 0).toNat
  let flag := if p.poison ∧ !bit (b 2) 2 then tag.set 2 (BitVec.ofNat 8 (b 2 + 4)) else tag
  if b 0 = 1 ∧ LMode.isTable (b 2 % 4) ∧ attached then
    match m.foreignSlot p.src (q.context - 0x8000) (Mem.pack 0 (p.payload.take 144)) with
    | (m1, some s) => m1.fillSlot c f (flag.take 4 ++ leBytes 2 s ++ flag.drop 6) body
    | (m1, none) =>
      let pl := q.packet.payload
      m1.request 2 q.device 0 0x12 0 q.packet.flow (pl.set 20 5) q.address q.src q.context q.packet.srcPart
  else m.fillSlot c f flag body

/-- TILE_DATA (R336, R366, R477). -/
def Mod.tileArrived (m : Mod) (q : RemoteReq) (p : Packet) : Mod :=
  match q.kind, q.src with
  | 2, .core c ticket => (match m.fetchOf c ticket with | some f => m.fetchArrived q p c f | none => m)
  | 4, _ => m.healTile q.context q.address (match m.expandTag (p.payload.take 16) (p.payload.drop 16) with | .ok b => b | _ => []) p.poison
  | 10, .ingest s =>
    let out := match m.expandTag (p.payload.take 16) (p.payload.drop 16) with | .ok b => if p.poison then (2, []) else (1, b) | _ => (2, [])
    m.setStream s (fun t => { t with fetched := t.fetched.map (fun f => if f.1 = q.address ∧ f.2.1 = 0 then (f.1, out.1, out.2) else f) })
  | _, _ => m

/-- TILE_DATA (R336). -/
def onTileData : Packet → Mod → Mod := fun p m =>
    match m.requestOf p.tag with
    | none => m
    | some q => if q.device ≠ p.src then m else ((m.settleRequest p.tag).reached p.src).tileArrived q p

/-- The row of `onTileData`. -/
def execTileData (port : BitVec 4) (s : State) : Out := s.act (fun m => m.onPacket port.toNat 0x15 onTileData)

/-- A write has been acknowledged (R335): a host's completes, and a core store commits once every tile of it has been. -/
def Mod.writeAcked (m : Mod) (q : RemoteReq) : Mod :=
  match q.kind, q.src with
  | 1, .host l tag => m.hostCmp l tag
  | 3, .core c ticket => if m.fm.requests.any (fun r => r.kind = 3 && r.src == q.src) then m else m.dropStore c ticket
  | 7, _ => m.recordAnswered (q.context - 0x8000) q.address none
  | _, _ => m

/-- WR_ACK (R335). -/
def onWrAck : Packet → Mod → Mod := fun p m =>
    match m.requestOf p.tag with
    | none => m
    | some q => if q.device ≠ p.src then m else ((m.settleRequest p.tag).reached p.src).writeAcked q

/-- The row of `onWrAck`. -/
def execWrAck (port : BitVec 4) (s : State) : Out := s.act (fun m => m.onPacket port.toNat 0x16 onWrAck)

/-! ### REDIRECT (R335) -/

/-- Install a stripe map entry that is newer than the replica's (R335). -/
def Mod.installEntry (m : Mod) (fr unit gen v : Nat) : Mod :=
  m.setFm (fun e => { e with regions := Tbl.upd e.regions fr (fun f =>
    if unit < f.units ∧ (f.stripeGen < gen ∨ (Tbl.find f.stripe unit).elim true (fun x => decide (x.gen < gen))) then
      { f with stripe := Tbl.put f.stripe unit (StripeEntry.ofNum v gen), stripeGen := max f.stripeGen gen } else f) })

/-- The selector of this module for the reference of its own packet. -/
def ownSel (p : Packet) : VerSel :=
  if p.version = 0xFFFFFFFF then .head else if p.version = 0xFFFFFFFE then .working (p.wctx % 65536) else .sealed p.version

/-- Send a request again to the home that the replica now gives, or serve it here when the unit is homed here. -/
def Mod.resend (m : Mod) (q : RemoteReq) : Mod :=
  let fr := q.context - 0x8000
  let sel := ownSel q.packet
  let pl := q.packet.payload
  match q.kind, q.src with
  | 0, .host l tag => m.hostFabricRead l tag fr sel (q.address / 1024) (q.address % 1024) .good
  | 1, .host l tag => m.hostFabricWrite l tag fr sel (q.address / 1024) (q.address % 1024) ((pl.drop 32).take 64) [] q.packet.poison
  | 9, .host l tag => m.hostFabricWrite l tag fr sel (q.address / 1024) (q.address % 1024) q.data q.enable q.packet.poison
  | 10, .ingest s =>
    (m.setStream s (fun t => { t with fetched := t.fetched.filter (fun f => f.1 != q.address) })).pacedFetch s
  | _, _ =>
    match (Tbl.find m.fm.regions fr).bind (fun f => (f.entry (q.address / 32)).map (fun e => (f, e))) with
    | none => m.requestFailed q 4
    | some (f, e) =>
      match q.kind, q.src with
      | 2, .core c ticket =>
        (match m.fetchOf c ticket with
          | none => m
          | some x =>
            if e.home = m.fab.deviceId ∧ !f.accessor then
              m.setCore c (fun k => { k with fetches := k.fetches.map (fun y => if y.ticket = x.ticket then { y with asked := false } else y) })
            else m.askTile c x fr e.home f.stripeGen)
      | 3, .core c ticket =>
        if e.home = m.fab.deviceId ∧ !f.accessor then
          let psel := m.partSel sel
          let m1 := (m.reachPart fr psel true)
          m1.submit { src := .core c ticket, region := f.localRegion, sel := psel, pane := f.localPane e (q.address / 32), offset := q.address % 32 * 2048,
                      bytes := pl.drop 32, enable := [], poisoned := q.packet.poison, wait := .frame }
        else m.request 3 e.home 2 0x13 0 q.packet.flow pl q.address q.src q.context q.packet.srcPart q.packet.poison
      | _, _ => m

/-- REDIRECT (R335). -/
def onRedirect : Packet → Mod → Mod := fun p m =>
    match m.requestOf p.tag with
    | none => m
    | some q =>
      if q.device ≠ p.src then m
      else (((m.settleRequest p.tag).reached p.src).installEntry p.fregion (p.num 4 4) (p.num 0 4) (p.num 8 8)).resend q

/-- The row of `onRedirect`. -/
def execRedirect (port : BitVec 4) (s : State) : Out := s.act (fun m => m.onPacket port.toNat 0x17 onRedirect)

/-- NACK (R343). -/
def onNack : Packet → Mod → Mod := fun p m =>
    match m.requestOf p.tag with
    | none => m
    | some q => if q.device ≠ p.src then m else ((m.settleRequest p.tag).reached p.src).requestFailed q (p.num 0 1)

/-- The row of `onNack`. -/
def execNack (port : BitVec 4) (s : State) : Out := s.act (fun m => m.onPacket port.toNat 0x1F onNack)

/-- The egress port of a packet, 0 where it has none. -/
def Mod.egressOf (m : Mod) (p : Packet) : Nat := (m.routeOf p).elim 0 (fun x => x.1)

/-- The effect of the row of `execRemoteRequestTimeout` where it acts. -/
def Mod.requestLate (m : Mod) (tag : Nat) (q : RemoteReq) : Mod :=
  let m1 := (m.settleRequest tag).logErr
    { unit := 0x5000 + m.egressOf q.packet, code := 0x0507, sev := .contained, opn := .remote, address := q.packet.index, space := .fabric,
      partition := q.packet.srcPart, region := q.context % 65536 }
  (m1.memberLost q.device).requestFailed q 0

/-- REMOTE_REQUEST_TIMEOUT (R335): no answer within 4 ms for a line, or 8 ms for a tile: the home is unreachable. -/
def execRemoteRequestTimeout (tag : Nat) (s : State) : Out :=
  s.act (fun m => match m.requestOf tag with
    | none => m
    | some q =>
      if !q.sent then m
      else m.requestLate tag q)

/-- UNREACHABLE (R317): the answer to a request that could not be routed. -/
def onUnreachable : Packet → Mod → Mod := fun p m =>
    match m.requestOf p.tag with
    | none => m
    | some q => ((m.settleRequest p.tag).memberLost q.device).requestFailed q 0

/-- The row of `onUnreachable`. -/
def execUnreachable (port : BitVec 4) (s : State) : Out := s.act (fun m => m.onPacket port.toNat 0x03 onUnreachable)

/-! ### Heals (R477, R478) -/

/-- The frame of a heal becomes the home of its pane. -/
def Mod.healed (m : Mod) (k : Nat) (h : Heal) (x : PaneRec) (g : Region) : Mod :=
  let tiles := (List.range 32).map (fun t => Mem.block (Tbl.findD h.tiles t []) 0 2048)
  let e := g.encode tiles (List.replicate 32 false)
  let img := Mem.pack 0 e.2.2
  let body := if g.form = .frit ∧ e.1 ≠ .zero then (List.range 32).flatMap (fun t => (fritDecode img t).getD (List.replicate 2048 0)) else tiles.flatMap id
  let y := { x.inFrame h.frame.loc (Mem.pack 0 body) [] with unpacking := none, sealEncode := false }
  let m1 := (m.setSvc (fun v => { v with heals := v.heals.filter (fun z => z.record != k) })).setRec k (fun _ => y)
  let m2 := if g.durable then (m1.parkImage k y g true).1 else m1
  (((m2.traceMove k x x.tier .t0 false).logErr
    { unit := walkerOf k, code := 0x0802, sev := .info, opn := .heal, address := x.pane * 1024, space := .regionPane, partition := g.owner,
      region := x.region, count := h.poisonedReads }).setSvc (fun v =>
      { v with scrub := v.scrub.map (fun p => if p.heal ∧ (p.bad.contains k ∨ (p.mode = 0 ∧ p.region = x.region)) then { p with healed := p.healed + 1 } else p) })).retryWrites

/-- The Lehr engine of a heal reads the frame that it makes final (R477): what the check of a read of a tile reports there. -/
def Mod.healRead (m : Mod) (k : Nat) (read : Media) : Mod :=
  match Tbl.find m.mem.recs k with
  | some x => if read = .good ∨ x.tier ≠ .t0 then m else let c := m.choose 32; c.2.mediaRead k x (c.1 * 32) true read .heal
  | none => m

/-- Commit of a heal whose 32 tiles have come: the frame, in a FRIT region with the decoded values, becomes the home, and a DURABLE
region gets a new T2 image. -/
def Mod.healCommit (m : Mod) (k : Nat) (read : Media) : Mod :=
  match m.svc.heals.find? (fun h => h.record = k), Tbl.find m.mem.recs k with
  | some h, some x =>
    (match Tbl.find m.mem.regions x.region with
      | none => m
      | some g =>
        if h.tiles.length ≠ 32 ∨ h.frame.sectors = 0 then m
        else
          (m.healed k h x g).healRead k read)
  | _, _ => m

/-- HEAL_COMMIT (R477). -/
def execHealCommit (record : Nat) (read : Media) (s : State) : Out :=
  s.act (fun m => m.healCommit record read)

/-- HEAL_TIMEOUT (R478): 20 ms have passed from the detection. -/
def execHealTimeout (record : Nat) (s : State) : Out := s.act (fun m => m.healFail record 4)

end Sys2Proof.Machine
end

