-- ==== Sys2Proof/Machine/VersionCmds.lean ====
section
/-! DEFINITION. The commands of versions, on local and on fabric regions (spec/06_extents_sharing_versions.md R202 to R214), the
VERSION_OP exchanges that carry them, and the seals of fabric regions (spec/10_fabric_memory_space.md R334, R338 to R340). -/
namespace Sys2Proof.Machine

/-! ### VERSION_OP (R334) -/

/-- The payload of a VERSION_OP. -/
def vopBytes (version wctx origin gen op flags arg0 arg1 : Nat) (data : List Byte) : List Byte :=
  refBytes 0 version wctx origin (gen % 65536) 0 ++ leBytes 1 op ++ leBytes 1 flags ++ leBytes 2 0 ++ leBytes 4 arg0 ++ leBytes 8 arg1 ++ data

/-- The operation header's fields of a VERSION_OP. -/
def Packet.vop (p : Packet) : Nat := p.num 0x20 1
def Packet.vopFlags (p : Packet) : Nat := p.num 0x21 1
def Packet.arg0 (p : Packet) : Nat := p.num 0x24 4
def Packet.arg1 (p : Packet) : Nat := p.num 0x28 8
def Packet.vopData (p : Packet) : List Byte := p.payload.drop 0x30
/-- The key of the working version that a reference names. -/
def Packet.key (p : Packet) : Nat := p.origin * 2 ^ 32 + p.wctx

/-- Send a VERSION_OP and remember what waits for its answer. -/
def Mod.sendVop (m : Mod) (dest part : Nat) (w : VopWait) (version wctx origin flags arg0 arg1 : Nat) (data : List Byte) : Mod :=
  let tag := m.fm.nextTag
  let gen := (Tbl.find m.fm.regions w.fregion).elim 0 (fun f => f.stripeGen)
  (m.setFm (fun e => { e with vops := Tbl.put e.vops tag w, nextTag := (tag + 1) % 2 ^ 32 })).sendPacket
    (m.packetTo dest 0 (regionFlow w.fregion) 0x19 tag (vopBytes version wctx origin gen w.op flags arg0 arg1 data) part)

/-- Send an operation of the registrar, or of this module, that no command waits for. -/
def Mod.tellVop (m : Mod) (dest fr op : Nat) (version wctx origin flags arg0 : Nat) : Mod :=
  m.sendVop dest 0 { op := op, fregion := fr, device := dest, ch := 65536, ctx := 65536, arg := arg0 } version wctx origin flags arg0 0 []

/-- Handle the first VERSION_OP of an operation that has arrived on a port: with the fabric region where this module has joined it,
and NACK reason 3 otherwise. -/
def Mod.onVop (m : Mod) (port op : Nat) (f : Packet → FabRegion → Mod → Mod) : Mod :=
  match m.take port (fun q => q.op = 0x19 && q.vop = op) with
  | none => m
  | some (q, m1) =>
    match Tbl.find m1.fm.regions q.fregion with
    | some g => f q g m1
    | none => m1.nack q.flow q.src q.tag 3

/-- The same for an operation of the registrar, which answers from its local part. -/
def Mod.atRegistrar (m : Mod) (port op : Nat) (f : Packet → FabRegion → Region → Mod → Mod) : Mod :=
  m.onVop port op (fun q x m =>
    match Tbl.find m.mem.regions x.localRegion with
    | some g => if x.registrar = m.fab.deviceId then f q x g m else m.nack q.flow q.src q.tag 3
    | none => m.nack q.flow q.src q.tag 3)

def Mod.setFreg (m : Mod) (fr : Nat) (f : FabRegion → FabRegion) : Mod := m.setFm (fun e => { e with regions := Tbl.upd e.regions fr f })

/-- The members of a fabric region other than the registrar itself. -/
def FabRegion.others (f : FabRegion) (self : Nat) : List Nat := f.members.filter (fun d => d != self)

/-! ### Working versions that go (R212) -/

/-- The writes and copies that wait for a working version go with it: the writes complete, discarded. -/
def Mod.dropSel (m : Mod) (r : Nat) (sel : VerSel) : Mod :=
  let gone := m.mem.heldWrites.filter (fun w => w.region = r && w.sel == sel)
  (m.setMem (fun e => { e with heldWrites := e.heldWrites.filter (fun w => !(w.region = r && w.sel == sel)),
                               cows := e.cows.filter (fun c => !(c.region = r && c.sel == sel)) })).each gone (fun m w => m.writeDone w)

/-- Discard a local working version and close its context (R212). -/
def Mod.discardWorking (m : Mod) (slot r : Nat) : Mod := (((m.dropSel r (.working slot)).freeCtx slot).gcRegion r).spaceFreed

/-- Discard this member's part of a fabric working version. -/
def Mod.discardPart (m : Mod) (fr key : Nat) : Mod :=
  match Tbl.find m.fm.regions fr with
  | none => m
  | some f =>
    let m1 := m.setFreg fr (fun f => { f with parts := Tbl.del f.parts key, bases := Tbl.del f.bases key, prepared := match f.prepared with | some p => if p.2 = key then none else some p | none => none })
    (((m1.dropSel f.localRegion (.part key)).gcRegion f.localRegion)).spaceFreed

/-! ### Seals of a fabric region at a member (R339) -/

/-- Step 3: this member's part of the working version becomes a prepared version, whose number it has then seen (R334). -/
def Mod.sealPrepare (m : Mod) (fr n key : Nat) : Mod :=
  let m1 := (m.ensurePart fr key).setFreg fr (fun f => { f with prepared := some (n, key) })
  match Tbl.find m1.fm.regions fr with
  | some f => m1.setRegion f.localRegion (fun g => { g with nextVersion := max g.nextVersion (n + 1) })
  | none => m1

/-- Step 6: seal the prepared version, and let the writes that waited go to the new working version. A version sealed without moving
the head is a checkpoint, and each member but the origin, whose command runs it, gives its panes their images (R214, R338). -/
def Mod.sealApply (m : Mod) (fr n : Nat) (head : Bool) : Mod :=
  match Tbl.find m.fm.regions fr with
  | none => m
  | some f =>
    match f.prepared, Tbl.find m.mem.regions f.localRegion with
    | some (v, key), some g =>
      if v ≠ n then m
      else
        let m1 := (m.sealMap f.localRegion g n (m.vmap f.localRegion (.part key)) (!head) false head).lateWrites f.localRegion n (.part key) true key
        let m2 := m1.setFreg fr (fun f => { f with prepared := none })
        let m3 := if head ∨ key / 2 ^ 32 = m.fab.deviceId then m2 else m2.each (m2.recsOf f.localRegion n) (fun m k => (m.imageFor k g).1)
        m3.retryWrites
    | _, _ => m

/-- The prepared version becomes the working version again, and the writes that waited are applied to it. -/
def Mod.sealAbort (m : Mod) (fr n : Nat) : Mod :=
  match (Tbl.find m.fm.regions fr).bind (fun f => f.prepared) with
  | some (v, _) => if v = n then (m.setFreg fr (fun f => { f with prepared := none })).retryWrites else m
  | none => m

/-! ### Seals at the registrar (R339) -/

/-- The point of no return of a seal: the registrar seals its own part and writes the head, tells the members, and answers the
origin. -/
def Mod.sealCommit (m : Mod) (fr : Nat) : Mod :=
  match Tbl.find m.fm.regions fr with
  | none => m
  | some f =>
    match f.sealing with
    | none => m
    | some s =>
      let m1 := (m.setFreg fr (fun f => { f with sealing := none, holders := f.holders.map (fun h => if s.publish && h.working && h.device = s.origin && h.token = s.wctx then { h with version := s.number } else h) })).sealApply fr s.number s.publish
      let m2 := m1.each (f.others m.fab.deviceId) (fun m d => m.tellVop d fr 0x11 0xFFFFFFFE s.wctx s.origin (b2n s.publish) s.number)
      m2.vopRsp s.origin fr s.token .ok s.number []

/-- A REHOME of the region is in step 3 (R342). -/
def Mod.rehomeSending (m : Mod) (fr : Nat) : Bool := m.fm.rehomes.any (fun h => h.fregion = fr && h.phase = 2)

/-- Begin the seals that wait, in their order of arrival, one at a time (R339). -/
def Mod.pumpSeals (m : Mod) (fr : Nat) : Nat → Mod
  | 0 => m
  | fuel + 1 =>
    match Tbl.find m.fm.regions fr with
    | none => m
    | some f =>
      match f.queuedSeals, Tbl.find m.mem.regions f.localRegion with
      | s :: rest, some g =>
        if f.sealing.isSome ∨ m.rehomeSending fr then m
        else
          let m1 := m.setFreg fr (fun f => { f with queuedSeals := rest })
          if s.publish ∧ s.base ≠ g.head then (m1.vopRsp s.origin fr s.token .conflict g.head []).pumpSeals fr fuel
          else if m1.sealRefused f.localRegion g s.publish then (m1.vopRsp s.origin fr s.token .noResource 0 []).pumpSeals fr fuel
          else
            let n := g.nextVersion
            let others := f.others m.fab.deviceId
            let m2 := (m1.setRegion f.localRegion (fun g => { g with nextVersion := n + 1 })).setFreg fr (fun f => { f with
              sealing := some { s with number := n, awaited := others } })
            let m3 := (m2.sealPrepare fr n (s.origin * 2 ^ 32 + s.wctx)).each others (fun m d => m.tellVop d fr 0x10 0xFFFFFFFE s.wctx s.origin 0 n)
            if others = [] then (m3.sealCommit fr).pumpSeals fr fuel else m3
      | _, _ => m

/-- Begin the seals that wait. -/
def Mod.runSeals (m : Mod) (fr : Nat) : Mod := m.pumpSeals fr ((Tbl.find m.fm.regions fr).elim 0 (fun f => f.queuedSeals.length + 1))

/-- A member has acknowledged SEAL_PREPARE. -/
def Mod.sealAcked (m : Mod) (fr n dev : Nat) : Mod :=
  match (Tbl.find m.fm.regions fr).bind (fun f => f.sealing) with
  | none => m
  | some s =>
    if s.number ≠ n ∨ !s.awaited.contains dev then m
    else
      let left := s.awaited.erase dev
      let m1 := m.setFreg fr (fun f => { f with sealing := some { s with awaited := left } })
      if left = [] then (m1.sealCommit fr).runSeals fr else m1

/-- A seal whose acknowledgement is late is aborted. -/
def Mod.sealLate (m : Mod) (fr : Nat) (f : FabRegion) (s : FabSeal) (d : Nat) : Mod :=
  let m1 := ((m.setFreg fr (fun f => { f with sealing := none })).setRegion f.localRegion (fun g =>
    { g with nextVersion := if g.nextVersion = s.number + 1 then s.number else g.nextVersion })).sealAbort fr s.number
  let m2 := m1.each (f.others m.fab.deviceId) (fun m x => m.tellVop x fr 0x12 0xFFFFFFFE s.wctx s.origin 0 s.number)
  (m2.vopRsp s.origin fr s.token .timeout d []).runSeals fr

/-! ### Listing versions (R213) -/

/-- SEAL_ACK_TIMEOUT (R339): a member has not acknowledged within 100 ms: the seal is aborted, N is released, and the command ends with
TIMEOUT and that member's ID. -/
def Mod.sealTimeout (m : Mod) (fr : Nat) : Mod :=
  match Tbl.find m.fm.regions fr with
  | none => m
  | some f =>
    match f.sealing with
    | none => m
    | some s =>
      match s.awaited with
      | [] => m
      | d :: _ =>
        m.sealLate fr f s d

/-- A pane of a version is under its seal encode (R211). -/
def Mod.encoding (m : Mod) (r v : Nat) : Bool := (m.recsOf r v).any (fun k => (Tbl.find m.mem.recs k).elim false (fun x => x.sealEncode))

/-- The 232 B of VERSION_LIST. -/
def Mod.versionList (m : Mod) (r : Nat) (g : Region) (first : Nat) (views : Nat → Nat) : List Byte :=
  let all := m.retainedOf r g
  let l := (all.filter (fun v => decide (first ≤ v.1))).take 28
  let entry := fun (v : Nat × Ver) =>
    v.1 + 2 ^ 32 * (min (views v.1) 65535) + 2 ^ 48 * b2n (g.head = v.1) + 2 ^ 49 * b2n v.2.checkpoint + 2 ^ 50 * b2n v.2.orphan +
      2 ^ 51 * b2n v.2.durableDone + 2 ^ 52 * b2n (m.encoding r v.1)
  le 4 g.head ++ le 2 l.length ++ le 2 all.length ++ (l.flatMap (fun v => le 8 (entry v)) ++ List.replicate 224 0).take 224

/-- The retained version that a VERSION field names: 0xFFFFFFFF is the head. -/
def Mod.versionArg (m : Mod) (r : Nat) (g : Region) (v : Nat) : Option Nat :=
  let n := if v = 0xFFFFFFFF then g.head else v
  match Tbl.find g.vers n with
  | some x => if m.retained r g n x then some n else none
  | none => none

/-- Mark a version CHECKPOINT, and begin its persistence in a DURABLE region that has not persisted it (R214, R215), or clear its CHECKPOINT
and ORPHAN retention. -/
def Mod.markCheckpoint (m : Mod) (r v : Nat) : Mod :=
  m.setRegion r (fun g => { g with
    vers := Tbl.upd g.vers v (fun x => { x with checkpoint := true }),
    persisting := if g.durable && !g.persisting.contains v && (Tbl.find g.vers v).elim false (fun x => !x.durableDone) then g.persisting ++ [v] else g.persisting })
def Mod.releaseVersion (m : Mod) (r v : Nat) : Mod :=
  m.setRegion r (fun g => { g with vers := Tbl.upd g.vers v (fun x => { x with checkpoint := false, orphan := false }) })

/-! ### The operations at the registrar (R338) -/

/-- VOP_OPEN_VIEW: resolves HEAD, records one view holder, and returns the version. -/
def onVopOpenView : Packet → FabRegion → Region → Mod → Mod := fun q f g m =>
    match m.versionArg f.localRegion g q.arg0 with
    | some v =>
      (m.setFreg q.fregion (fun f => { f with holders := f.holders ++ [{ device := q.src, token := 0, version := v, working := false }] })).vopRsp q.src q.fregion q.tag .ok v []
    | none => m.vopRsp q.src q.fregion q.tag .badArgument 0 []

/-- The row of `onVopOpenView`. -/
def execVopOpenView (port : BitVec 4) (s : State) : Out := s.act (fun m => m.atRegistrar port.toNat 0x01 onVopOpenView)

/-- Remove one element that passes the test. -/
def removeOne {α : Type} (p : α → Bool) : List α → List α
  | [] => []
  | a :: l => if p a then l else a :: removeOne p l

/-- VOP_CLOSE_VIEW: removes the holder. -/
def onVopCloseView : Packet → FabRegion → Region → Mod → Mod := fun q _ _ m =>
    (m.setFreg q.fregion (fun f => { f with holders := removeOne (fun h => !h.working && h.device = q.src && h.version = q.arg0) f.holders })).vopRsp
      q.src q.fregion q.tag .ok q.arg0 []

/-- The row of `onVopCloseView`. -/
def execVopCloseView (port : BitVec 4) (s : State) : Out := s.act (fun m => m.atRegistrar port.toNat 0x02 onVopCloseView)

/-- VOP_OPEN_WORKING: returns the base, which is the resolved source version. -/
def onVopOpenWorking : Packet → FabRegion → Region → Mod → Mod := fun q f g m =>
    match (if g.versioning then m.versionArg f.localRegion g q.arg0 else none) with
    | some v =>
      (m.setFreg q.fregion (fun f => { f with holders := f.holders ++ [{ device := q.src, token := q.wctx, version := v, working := true }] })).vopRsp q.src q.fregion q.tag .ok v []
    | none => m.vopRsp q.src q.fregion q.tag .badArgument 0 []

/-- The row of `onVopOpenWorking`. -/
def execVopOpenWorking (port : BitVec 4) (s : State) : Out := s.act (fun m => m.atRegistrar port.toNat 0x03 onVopOpenWorking)

/-- A seal that a VERSION_OP asks for joins the queue. -/
def Mod.queueSeal (m : Mod) (q : Packet) (publish : Bool) : Mod :=
  (m.setFreg q.fregion (fun f => { f with queuedSeals := f.queuedSeals ++ [{ number := 0, origin := q.src, wctx := q.wctx, token := q.tag, publish := publish,
                                                                              base := q.arg0, awaited := [] }] })).runSeals q.fregion

/-- VOP_PUBLISH (R339). -/
def onVopPublish : Packet → FabRegion → Region → Mod → Mod := fun q _ _ m => m.queueSeal q true

/-- The row of `onVopPublish`. -/
def execVopPublish (port : BitVec 4) (s : State) : Out := s.act (fun m => m.atRegistrar port.toNat 0x04 onVopPublish)

/-- The head becomes a checkpoint here. The origin's own command gives its panes their images; any other member does so at once (R214, R338). -/
def Mod.headCheckpoint (m : Mod) (r : Nat) (g : Region) (origin : Bool) : Mod :=
  let m1 := m.markCheckpoint r g.head
  if origin then m1 else m1.each (m1.recsOf r g.head) (fun m k => (m.imageFor k g).1)

/-- CHECKPOINT at the registrar (R338): of a working version, a seal that does not move the head; of the head, a mark, of which every other
member is told by the same operation (DESIGN CHOICE: log 77). -/
def onVopCheckpoint : Packet → FabRegion → Region → Mod → Mod := fun q f g m =>
    if q.arg0 = 0xFFFFFFFE then m.queueSeal q false
    else if !g.versioning then m.vopRsp q.src q.fregion q.tag .badArgument 0 []
    else
      let m1 := m.headCheckpoint f.localRegion g (q.src = m.fab.deviceId)
      let m2 := m1.each (f.others m.fab.deviceId) (fun m d => m.tellVop d q.fregion 0x05 g.head 0 q.src 0 0)
      m2.vopRsp q.src q.fregion q.tag .ok g.head []

/-- CHECKPOINT at a member: the registrar, whose own operation it is, has marked the head; the member runs its local part of R214. -/
def onMemberCheckpoint : Packet → FabRegion → Mod → Mod := fun q f m =>
  match Tbl.find m.mem.regions f.localRegion with
  | none => m.nack q.flow q.src q.tag 3
  | some g => (m.headCheckpoint f.localRegion g (q.origin = m.fab.deviceId)).vopRsp q.src q.fregion q.tag .ok g.head []

/-- The row of `onVopCheckpoint`. -/
def execVopCheckpoint (port : BitVec 4) (s : State) : Out :=
  s.act (fun m => m.onVop port.toNat 0x05 (fun q f m =>
    match Tbl.find m.mem.regions f.localRegion with
    | none => m.nack q.flow q.src q.tag 3
    | some g =>
      if f.registrar = m.fab.deviceId then onVopCheckpoint q f g m
      else if f.registrar = q.src ∧ q.arg0 = 0 then onMemberCheckpoint q f m
      else m.nack q.flow q.src q.tag 3))

/-- VOP_DISCARD_WORKING: the registrar discards its part and tells every member; a member discards its own (R334, R338). -/
def onVopDiscardWorking : Packet → FabRegion → Mod → Mod := fun q f m =>
    let m1 := m.discardPart q.fregion q.key
    let m2 := if f.registrar = m.fab.deviceId then
        (m1.setFreg q.fregion (fun f => { f with holders := f.holders.filter (fun h => !(h.working && h.device = q.origin && h.token = q.wctx)) })).each
          (f.others m.fab.deviceId) (fun m d => m.tellVop d q.fregion 0x06 0xFFFFFFFE q.wctx q.origin 0 0)
      else m1
    m2.vopRsp q.src q.fregion q.tag .ok 0 []

/-- The row of `onVopDiscardWorking`. -/
def execVopDiscardWorking (port : BitVec 4) (s : State) : Out := s.act (fun m => m.onVop port.toNat 0x06 onVopDiscardWorking)

/-- VOP_VERSION_RELEASE. -/
def onVopVersionRelease : Packet → FabRegion → Region → Mod → Mod := fun q f g m =>
    match (if q.arg0 = 0xFFFFFFFF then none else m.versionArg f.localRegion g q.arg0) with
    | some v => (m.releaseVersion f.localRegion v).vopRsp q.src q.fregion q.tag .ok v []
    | none => m.vopRsp q.src q.fregion q.tag .badArgument 0 []

/-- The row of `onVopVersionRelease`. -/
def execVopVersionRelease (port : BitVec 4) (s : State) : Out := s.act (fun m => m.atRegistrar port.toNat 0x07 onVopVersionRelease)

/-- VOP_VERSION_LIST. -/
def onVopVersionList : Packet → FabRegion → Region → Mod → Mod := fun q f g m =>
    m.vopRsp q.src q.fregion q.tag .ok g.head (m.versionList f.localRegion g q.arg0 (fun v => (f.holders.filter (fun h => !h.working && h.version = v)).length))

/-- The row of `onVopVersionList`. -/
def execVopVersionList (port : BitVec 4) (s : State) : Out := s.act (fun m => m.atRegistrar port.toNat 0x08 onVopVersionList)

/-! ### The operations at a member (R338, R339) -/

/-- SEAL_PREPARE. -/
def onSealPrepare : Packet → FabRegion → Mod → Mod := fun q _ m => (m.sealPrepare q.fregion q.arg0 q.key).vopRsp q.src q.fregion q.tag .ok q.arg0 []

/-- The row of `onSealPrepare`. -/
def execSealPrepare (port : BitVec 4) (s : State) : Out := s.act (fun m => m.onVop port.toNat 0x10 onSealPrepare)

/-- SEAL_COMMIT. -/
def onSealCommit : Packet → FabRegion → Mod → Mod := fun q _ m => (m.sealApply q.fregion q.arg0 (bit q.vopFlags 0)).vopRsp q.src q.fregion q.tag .ok q.arg0 []

/-- The row of `onSealCommit`. -/
def execSealCommit (port : BitVec 4) (s : State) : Out := s.act (fun m => m.onVop port.toNat 0x11 onSealCommit)

/-- SEAL_ABORT. -/
def onSealAbort : Packet → FabRegion → Mod → Mod := fun q _ m => (m.sealAbort q.fregion q.arg0).vopRsp q.src q.fregion q.tag .ok q.arg0 []

/-- The row of `onSealAbort`. -/
def execSealAbort (port : BitVec 4) (s : State) : Out := s.act (fun m => m.onVop port.toNat 0x12 onSealAbort)

/-- VERSION_FREE: the member frees its local part of the version. -/
def onVersionFree : Packet → FabRegion → Mod → Mod := fun q f m => (m.freeVersion f.localRegion q.arg0).vopRsp q.src q.fregion q.tag .ok q.arg0 []

/-- The row of `onVersionFree`. -/
def execVersionFree (port : BitVec 4) (s : State) : Out := s.act (fun m => m.onVop port.toNat 0x13 onVersionFree)

/-- SEAL_ACK_TIMEOUT (R339). -/
def execSealAckTimeout (fregion : Nat) (s : State) : Out := s.act (fun m => m.sealTimeout fregion)

/-- PREPARED_SEAL_TIMEOUT (R339): a member aborts by itself a version that it has held prepared for 1 s. -/
def execPreparedSealTimeout (fregion : Nat) (s : State) : Out :=
  s.act (fun m => match Tbl.find m.fm.regions fregion with
    | some f => if f.registrar = m.fab.deviceId then m else (match f.prepared with | some p => m.sealAbort fregion p.1 | none => m)
    | none => m)

/-- The effect of the row of `execVersionRetired` where it acts. -/
def Mod.retire (m : Mod) (region version : Nat) : Mod :=
  let fs := m.fm.regions.filter (fun f => !f.2.accessor && f.2.localRegion = region && f.2.registrar = m.fab.deviceId)
  (m.freeVersion region version).each fs (fun m f => m.each (f.2.others m.fab.deviceId) (fun m d => m.tellVop d f.1 0x13 0xFFFFFFFF 0 0 0 version))

/-- VERSION_RETIRED: a version that is no longer retained is freed within 1 ms (R207); the registrar of a fabric region tells every
member (R338). -/
def execVersionRetired (region : Nat) (version : Nat) (s : State) : Out :=
  s.act (fun m => match Tbl.find m.mem.regions region with
    | none => m
    | some g =>
      match Tbl.find g.vers version with
      | none => m
      | some x =>
        if m.retained region g version x then m
        else m.retire region version)

/-! ### The commands -/

/-- A command of the channel waits for its VERSION_RSP. -/
def Mod.vopWaiting (m : Mod) (ch : Nat) : Bool := m.fm.vops.any (fun v => v.2.ch = ch)

/-- Send a command's operation to the registrar; the command stays in service until its answer (R338). -/
def Mod.askRegistrar (m : Mod) (r : Req) (fr : Nat) (f : FabRegion) (op ctx version wctx flags arg0 arg1 : Nat) (data : List Byte) : Mod × Reply :=
  (m.sendVop f.registrar r.partD { op := op, fregion := fr, device := f.registrar, ch := r.ch, ctx := ctx, arg := arg0 } version wctx
    (if wctx = 0 then 0 else m.fab.deviceId) flags arg0 arg1 data, { status := .pending })

/-- The window that OPEN_VIEW and OPEN_WORKING ask for (R198, R199, R208). -/
def Mod.windowArg (m : Mod) (r : Req) : Option Window ⊕ Reply :=
  let n := r.arg 0xC 4
  let first := r.arg 8 4
  if n = 0 then .inl none
  else
    match r.ld with
    | none => .inr { status := .notPermitted }
    | some l =>
      let fit := m.mem.extents.filter (fun e => decide (first ≤ e.1) && decide (e.1 < first + n) && e.2.heldLds.contains l && e.2.region.isNone && !m.inWindow e.1)
      if fit.length = n then .inl (some { ld := l, extent := first, count := n, firstOrdinal := r.arg 0x10 4 }) else .inr { status := .badArgument, detail := 0x18 }

/-- OPEN_VIEW and OPEN_WORKING on a local region (R203, R208). -/
def Mod.openLocal (m : Mod) (r : Req) (id : Nat) (working : Bool) : Mod × Reply :=
  match m.reachRegion r id 0 with
  | .inr rep => (m, rep)
  | .inl g =>
    if r.arg 2 2 ≠ 0 then badArg m 2
    else if working ∧ !g.versioning then badArg m 0
    else
      match m.versionArg id g (r.arg 4 4) with
      | none => badArg m 4
      | some v =>
        match m.windowArg r with
        | .inr rep => (m, rep)
        | .inl w =>
          let obj := if working then Obj.working id g.head (m.vmap id (.sealed v)) else Obj.view id v
          match m.newCtx r .none obj w with
          | (m1, .inr rep) => (m1, rep)
          | (m1, .inl n) => (m1, { status := .ok, context := m1.idOf n, data := le 4 (if working then g.head else v) })

/-- This module knows a fabric region to have VERSIONING OFF: its local part has (R203, R330). An accessor, to which no message tells it, leaves
the check to the registrar. -/
def Mod.knownOff (m : Mod) (fr : Nat) : Bool := (m.bindRegion (0x8000 + fr)).elim false (fun g => !g.versioning)

/-- The same on a fabric region: the context is made here, and the registrar resolves the version (R338). -/
def Mod.openFabric (m : Mod) (r : Req) (fr : Nat) (f : FabRegion) (working : Bool) : Mod × Reply :=
  if r.arg 2 2 ≠ 0 then badArg m 2
  else if working ∧ m.knownOff fr then badArg m 0
  else
    match m.windowArg r with
    | .inr rep => (m, rep)
    | .inl w =>
      match m.newCtx r .none .none w with
      | (m1, .inr rep) => (m1, rep)
      | (m1, .inl n) =>
        m1.askRegistrar r fr f (if working then 3 else 1) n (if working then 0xFFFFFFFE else 0xFFFFFFFF) (if working then m1.idOf n else 0) 0 (r.arg 4 4) 0 []

def cmdOpen (working : Bool) : Cmd := fun r m =>
  if m.vopWaiting r.ch then (m, { status := .pending })
  else
    match m.fabArg r (r.arg 0 2) with
    | some (fr, f) => m.openFabric r fr f working
    | none => m.openLocal r (r.arg 0 2) working

/-- OPEN_VIEW and OPEN_WORKING (R208). -/
def cmdOpenView : Cmd := fun r m => cmdOpen false r m
def cmdOpenWorking : Cmd := fun r m => cmdOpen true r m

/-- A loaded movement or a stream holds the context (R238). -/
def Mod.ctxBound (m : Mod) (slot : Nat) : Bool :=
  m.mvs.any (fun v => v.2.state != MvState.loading && v.2.bindings.any (fun b => b.1 = slot)) || m.streams.any (fun t => t.2.arg 0 4 != 0 && t.2.arg 0 4 % 65536 = slot)

/-- CLOSE_VIEW (R212). -/
def cmdCloseView : Cmd := fun r m =>
  if m.vopWaiting r.ch then (m, { status := .pending })
  else
    match m.liveCtx (r.arg 0 4) r.partD with
    | none => badArg m 0
    | some (n, c) =>
      match c.obj with
      | .view id v =>
        if m.ctxBound n then fail m .busy
        else if id < 0x8000 then done (m.freeCtx n)
        else
          (match Tbl.find m.fm.regions (id - 0x8000) with
            | some f => m.askRegistrar r (id - 0x8000) f 2 n v 0 0 v 0 []
            | none => done (m.freeCtx n))
      | _ => badArg m 0

/-- DISCARD_WORKING (R212). -/
def cmdDiscardWorking : Cmd := fun r m =>
  if m.vopWaiting r.ch then (m, { status := .pending })
  else
    match m.liveCtx (r.arg 0 4) r.partD with
    | none => badArg m 0
    | some (n, c) =>
      match c.obj with
      | .working id _ _ =>
        if m.ctxBound n then fail m .busy
        else if id < 0x8000 then done (m.discardWorking n id)
        else
          (match Tbl.find m.fm.regions (id - 0x8000) with
            | some f => m.askRegistrar r (id - 0x8000) f 6 n 0xFFFFFFFE (m.idOf n) 0 0 0 []
            | none => done (m.freeCtx n))
      | _ => badArg m 0

/-- PUBLISH (R209). -/
def cmdPublish : Cmd := fun r m =>
  if m.vopWaiting r.ch then (m, { status := .pending })
  else
    match m.liveCtx (r.arg 0 4) r.partD with
    | none => badArg m 0
    | some (n, c) =>
      match c.obj with
      | .working id b _ =>
        let base := if r.arg 4 4 = 0xFFFFFFFF then b else r.arg 4 4
        if 0x8000 ≤ id then
          (match Tbl.find m.fm.regions (id - 0x8000) with
            | some f => m.askRegistrar r (id - 0x8000) f 4 n 0xFFFFFFFE (m.idOf n) 0 base 0 []
            | none => badArg m 0)
        else
          (match Tbl.find m.mem.regions id with
            | none => badArg m 0
            | some g =>
              if base ≠ g.head then (m, { status := .conflict, data := le 4 g.head })
              else
                match m.sealWorking n false false true with
                | (some v, m1) => done m1.retryWrites (le 4 v)
                | (none, m1) => fail m1 .noResource)
      | _ => badArg m 0

/-- CHECKPOINT (R214). -/
def cmdCheckpoint : Cmd := fun r m =>
  if m.vopWaiting r.ch then (m, { status := .pending })
  else
    let id := r.arg 0 2
    let ctx := r.arg 4 4
    match m.fabArg r id with
    | some (fr, f) =>
      if r.arg 2 2 ≠ 0 then badArg m 2
      else if m.knownOff fr then badArg m 0
      else
        let go := fun (version wctx arg0 : Nat) =>
          match m.newCtx r .none .none none with
          | (m1, .inr rep) => (m1, rep)
          | (m1, .inl n) => m1.askRegistrar r fr f 5 n version wctx 0 arg0 0 []
        (match m.verArg r id ctx with
          | some (.working n) => go 0xFFFFFFFE (m.idOf n) 0xFFFFFFFE
          | some .head => go 0xFFFFFFFF 0 0
          | _ => badArg m 4)
    | none =>
      match m.reachRegion r id 0 with
      | .inr rep => (m, rep)
      | .inl g =>
        if r.arg 2 2 ≠ 0 then badArg m 2
        else if !g.versioning then badArg m 0
        else
          let go := fun (doSeal : Mod → Option Nat × Mod) =>
            match m.newCtx r (.checkpoint id 0 0) .none none with
            | (m1, .inr rep) => (m1, rep)
            | (m1, .inl n) =>
              (match doSeal m1 with
                | (some v, m2) => (m2.setCtx n (fun c => { c with work := .checkpoint id v 0, pastPonr := true }), { status := .accepted, context := m2.idOf n })
                | (none, _) => fail m .noResource)
          match m.verArg r id ctx with
          | some .head => go (fun m => (some g.head, m.markCheckpoint id g.head))
          | some (.working w) => go (fun m => match m.sealWorking w true false false with | (v, m1) => (v, m1.retryWrites))
          | _ => badArg m 4

/-- VERSION_LIST (R213). -/
def cmdVersionList : Cmd := fun r m =>
  if m.vopWaiting r.ch then (m, { status := .pending })
  else
    let id := r.arg 0 2
    match m.fabArg r id with
    | some (fr, f) => if r.arg 2 2 ≠ 0 then badArg m 2 else m.askRegistrar r fr f 8 65536 0xFFFFFFFF 0 0 (r.arg 4 4) 0 []
    | none =>
      match m.reachRegion r id 0 with
      | .inr rep => (m, rep)
      | .inl g => if r.arg 2 2 ≠ 0 then badArg m 2 else done m (m.versionList id g (r.arg 4 4) (m.viewsOf id))

/-- VERSION_RELEASE (R213). -/
def cmdVersionRelease : Cmd := fun r m =>
  if m.vopWaiting r.ch then (m, { status := .pending })
  else
    let id := r.arg 0 2
    match m.fabArg r id with
    | some (fr, f) => if r.arg 2 2 ≠ 0 then badArg m 2 else m.askRegistrar r fr f 7 65536 (r.arg 4 4) 0 0 (r.arg 4 4) 0 []
    | none =>
      match m.reachRegion r id 0 with
      | .inr rep => (m, rep)
      | .inl g =>
        if r.arg 2 2 ≠ 0 then badArg m 2
        else
          match (if r.arg 4 4 = 0xFFFFFFFF then none else m.versionArg id g (r.arg 4 4)) with
          | some v => done (m.releaseVersion id v)
          | none => badArg m 4

/-! ### The rows -/

/-- OPEN_VIEW (R208). -/
def execOpenView (ch : ChanNo) (s : State) : Out := s.mailbox ch 0x0400 anyForm cmdOpenView
/-- CLOSE_VIEW (R212). -/
def execCloseView (ch : ChanNo) (s : State) : Out := s.mailbox ch 0x0401 anyForm cmdCloseView
/-- OPEN_WORKING (R208). -/
def execOpenWorking (ch : ChanNo) (s : State) : Out := s.mailbox ch 0x0402 anyForm cmdOpenWorking
/-- PUBLISH (R209). -/
def execPublish (ch : ChanNo) (s : State) : Out := s.mailbox ch 0x0403 anyForm cmdPublish
/-- DISCARD_WORKING (R212). -/
def execDiscardWorking (ch : ChanNo) (s : State) : Out := s.mailbox ch 0x0404 anyForm cmdDiscardWorking
/-- CHECKPOINT (R214). -/
def execCheckpoint (ch : ChanNo) (s : State) : Out := s.mailbox ch 0x0405 anyForm cmdCheckpoint
/-- VERSION_LIST (R213). -/
def execVersionList (ch : ChanNo) (s : State) : Out := s.mailbox ch 0x0406 anyForm cmdVersionList
/-- VERSION_RELEASE (R213). -/
def execVersionRelease (ch : ChanNo) (s : State) : Out := s.mailbox ch 0x0407 anyForm cmdVersionRelease

end Sys2Proof.Machine
end

