-- ==== Sys2Proof/Machine/FabMem.lean ====
section
/-! DEFINITION. Joining and leaving fabric regions, exports, the registrar, stripe maps and REHOME (spec/10_fabric_memory_space.md R329,
R330, R334, R339, R342, R344, R345). -/
namespace Sys2Proof.Machine

/-! ### Answers of waiting commands -/

/-- The status of a code (R82). -/
def Status.ofCode (n : Nat) : Status :=
  match n with
  | 0x00 => .ok | 0x01 => .pending | 0x02 => .accepted | 0x10 => .badOpcode | 0x11 => .badArgument | 0x12 => .notPermitted
  | 0x13 => .noResource | 0x14 => .notReady | 0x15 => .conflict | 0x16 => .busy | 0x17 => .poisoned | 0x18 => .timeout
  | 0x19 => .aborted | 0x1A => .fenced | 0x1B => .capacity | _ => .aborted

/-- The command of a channel that waited completes. -/
def Mod.answer (m : Mod) (ch : Nat) (rep : Reply) : Mod :=
  if 65536 ≤ ch then m else (m.post ch rep).serveUnknown m.gaffer.order.length

/-! ### Units of the local part -/

/-- Panes of a stripe unit. -/
def FabRegion.span (f : FabRegion) : Nat := 2 ^ f.log2Stripe

/-- A local pane lies in a local unit. -/
def FabRegion.inUnit (f : FabRegion) (u pane : Nat) : Bool := pane / f.span = u

/-- Free every record and name of a local unit, in every version (R342 step 6). -/
def Mod.freeUnit (m : Mod) (fr u : Nat) : Mod :=
  match Tbl.find m.fm.regions fr with
  | none => m
  | some f =>
    let r := f.localRegion
    let cut := fun (t : Tbl Nat) => t.filter (fun p => !f.inUnit u p.1)
    let m1 := m.setRegion r (fun g => { g with vers := Tbl.mapV g.vers (fun _ v => { v with map := cut v.map }) })
    let m2 := m1.setFreg fr (fun f => { f with parts := Tbl.mapV f.parts (fun _ t => cut t) })
    let m3 := m2.setMem (fun e => { e with cows := e.cows.filter (fun c => !(c.region = r && f.inUnit u c.pane)),
                                           recs := e.recs.filter (fun x => !(x.2.region = r && f.inUnit u x.2.pane)) })
    m3.spaceFreed

/-- A write that waits for a unit goes on to the unit's new home (R342, R344): a remote one is answered with REDIRECT, and one of this
module is sent again. -/
def Mod.moveWrite (m : Mod) (fr unit : Nat) (f : FabRegion) (w : HeldWrite) : Mod :=
  let pane := unit * f.span + w.pane % f.span
  let sel := match w.sel with
    | .part key => if key / 2 ^ 32 = m.fab.deviceId then VerSel.working (key % 65536) else w.sel
    | s => s
  let fab := (Tbl.find m.fm.regions fr).getD f
  match w.src with
  | .remote flow dev tag _ =>
    m.sendPacket (m.packetTo dev 1 flow 0x17 tag (leBytes 4 fab.stripeGen ++ leBytes 4 unit ++ leBytes 8 ((Tbl.find fab.stripe unit).elim 0 StripeEntry.num)))
  | .host l tag => m.hostFabricWrite l tag fr sel pane (w.offset / 64) w.bytes w.enable w.poisoned
  | .core c ticket =>
    (match Tbl.find fab.stripe unit with
      | some e =>
        let v := m.refVersion sel
        let parts := w.image.elim [(w.offset / 2048, w.bytes, w.poisoned)] (fun im => (List.range 32).zip (m.imageTiles f.localRegion im))
        m.each parts (fun m t =>
          m.request 3 e.home 2 0x13 0 (regionFlow fr) (refBytes (pane * 32 + t.1) v.1 v.2 m.fab.deviceId (fab.stripeGen % 65536) 4 ++ t.2.1)
            (pane * 32 + t.1) (.core c ticket) (0x8000 + fr) 0 t.2.2)
      | none => m.writeDone w)
  | _ => m.writeDone w

/-- The home of a unit has moved from this module: its writes go on, and its local unit is freed (R342 step 6). -/
def Mod.leaveUnit (m : Mod) (fr unit : Nat) (f : FabRegion) (u : Nat) : Mod :=
  let mine := fun (w : HeldWrite) => w.region = f.localRegion && f.inUnit u w.pane
  let held := m.mem.heldWrites.filter mine
  let m1 := m.setMem (fun e => { e with heldWrites := e.heldWrites.filter (fun w => !mine w) })
  (m1.each held (fun m w => m.moveWrite fr unit f w)).freeUnit fr u

/-! ### Stripe maps (R329, R332, R334) -/

/-- Install one entry of a MAP_UPDATE, unless the replica's is newer: the end of a REHOME frees the unit at its source, and a unit that
was reserved here for a REHOME that ended without its commit (R342, R344). -/
def Mod.installMap (m : Mod) (fr gen unit v : Nat) : Mod :=
  match Tbl.find m.fm.regions fr with
  | none => m
  | some f =>
    let new := StripeEntry.ofNum v gen
    let old := Tbl.find f.stripe unit
    if f.units ≤ unit ∨ old.elim false (fun x => decide (gen < x.gen)) then m
    else
      let self := m.fab.deviceId
      let m1 := m.setFreg fr (fun f => { f with stripe := Tbl.put f.stripe unit new, stripeGen := max f.stripeGen gen })
      let m2 := match old with
        | some o => if o.home = self ∧ new.home ≠ self ∧ !f.accessor then m1.leaveUnit fr unit f o.localUnit else m1
        | none => m1
      if new.moving then m2
      else
        let got := m2.fm.unitMoves.filter (fun x => x.fregion = fr && x.unit = unit && !x.sending)
        let m3 := m2.setFm (fun e => { e with unitMoves := e.unitMoves.filter (fun x => !(x.fregion = fr && x.unit = unit)) })
        let m4 := if new.home = self then m3 else m3.each got (fun m x => m.freeUnit fr x.localUnit)
        m4.retryWrites

/-- The records of a MAP_UPDATE payload: unit and entry. -/
def Packet.mapRecords (p : Packet) : List (Nat × Nat) := (List.range (min (p.num 4 4) 185)).map (fun i => (p.num (8 + 12 * i) 4, p.num (12 + 12 * i) 8))

/-- Send entries of a stripe map to a device, at most 184 to a packet. -/
def Mod.sendMap (m : Mod) (fr dest gen : Nat) (es : List (Nat × StripeEntry)) : Mod :=
  m.each (groups 184 es) (fun m l => m.sendPacket (m.packetTo dest 3 (regionFlow fr) 0x18 0
    (leBytes 4 gen ++ leBytes 4 l.length ++ l.flatMap (fun e => leBytes 4 e.1 ++ leBytes 8 e.2.num))))

/-- Write an entry of the stripe map at the registrar, and send it to everyone who has joined. -/
def Mod.writeEntry (m : Mod) (fr unit gen : Nat) (e : StripeEntry) : Mod :=
  let m1 := m.installMap fr gen unit e.num
  match Tbl.find m1.fm.regions fr with
  | some f => m1.each (f.others m.fab.deviceId ++ f.accessors) (fun m d => m.sendMap fr d gen [(unit, e)])
  | none => m1

/-! ### Completing a join (R330, R334) -/

/-- The head of the fabric region as a new member's local part takes it. -/
def Region.atHead (g : Region) (head : Nat) : Region :=
  { g with head := head, nextVersion := max g.nextVersion (head + 1),
           vers := if Tbl.has g.vers head then g.vers else Tbl.put g.vers head { map := [], checkpoint := false, orphan := false, durableDone := false, published := true } }

/-- A fabric region as a module joins it. -/
def FabRegion.init (w : JoinWait) (gen units log2 rotation : Nat) : FabRegion :=
  { accessor := w.purpose = 1, partition := w.partition, registrar := w.registrar, localRegion := w.localRegion, log2Stripe := log2, units := units,
    stripeGen := gen, rotation := rotation, stripe := w.entries, members := [], accessors := [], holders := [], sealing := none, queuedSeals := [],
    parts := [], bases := [], prepared := none }

/-- Become the registrar once every answer is in: the members, the head and the version counter; the announcement (R339 steps 3 and 4). -/
def Mod.takeDone (m : Mod) (fr : Nat) (t : TakeWait) : Mod :=
  match Tbl.find m.fm.regions fr with
  | none => m
  | some f =>
    let self := m.fab.deviceId
    let m1 := m.setFreg fr (fun f => { f with registrar := self, members := self :: t.members, sealing := none, queuedSeals := [], holders := [] })
    let m2 := m1.setRegion f.localRegion (fun g => { (g.atHead (max g.head t.head)) with nextVersion := max (max g.nextVersion (t.top + 1)) (max g.head t.head + 1) })
    let m3 := m2.setFm (fun e => { e with takes := Tbl.del e.takes fr })
    (m3.each t.members (fun m d => m.sendPacket (m.packetTo d 3 (regionFlow fr) 0x18 0 (leBytes 4 ((Tbl.find m.fm.regions fr).elim 0 (fun f => f.stripeGen)) ++ leBytes 4 0)))).answer
      t.ch { status := .ok }

/-- A join completes once the answer has come and every entry of its STRIPE_GEN is held. -/
def Mod.joinCheck (m : Mod) (fr : Nat) : Mod :=
  match Tbl.find m.fm.joins fr with
  | none => m
  | some w =>
    match w.answer with
    | none => m
    | some (gen, units, log2, rot, head) =>
      if (w.entries.filter (fun e => e.2.gen = gen)).length < units then m
      else
        let m1 := m.setFm (fun e => { e with joins := Tbl.del e.joins fr })
        if w.purpose = 2 then
          let m2 := m1.setFreg fr (fun f => { f with stripe := w.entries, stripeGen := gen })
          match Tbl.find m2.fm.takes fr with
          | some t => m2.takeDone fr t
          | none => m2
        else
          let m2 := m1.setFm (fun e => { e with regions := Tbl.put e.regions fr (FabRegion.init w gen units log2 rot) })
          let m3 := if w.purpose = 0 then m2.setRegion w.localRegion (fun g => g.atHead head) else m2
          m3.answer w.ch { status := .ok }

/-- MAP_UPDATE (R334, R344): entries for a join in progress, or for a region that this module has joined; one from another member
announces it as the registrar (R339). -/
def onMapUpdate : Packet → Mod → Mod := fun p m =>
    let fr := p.fregion
    let gen := p.num 0 4
    let m1 := if Tbl.has m.fm.joins fr then
        (m.setFm (fun e => { e with joins := Tbl.upd e.joins fr (fun w => { w with entries := p.mapRecords.foldl (fun t x => Tbl.put t x.1 (StripeEntry.ofNum x.2 gen)) w.entries }) })).joinCheck fr
      else m
    let m2 := m1.each p.mapRecords (fun m x => m.installMap fr gen x.1 x.2)
    m2.setFreg fr (fun f => { f with registrar := p.src })

/-- The row of `onMapUpdate`. -/
def execMapUpdate (port : BitVec 4) (s : State) : Out := s.act (fun m => m.onPacket port.toNat 0x18 onMapUpdate)

/-! ### FAB_REGION_JOIN (R330) -/

/-- The form of a FAB_REGION_JOIN: its KIND. -/
def joinForm (k : Nat) (slot : Mem) : Bool := if k = 7 then decide (7 ≤ slotArg slot 0 1) else slotArg slot 0 1 = k

/-- The first field that a KIND does not use and that is not zero (R330). -/
def Req.unused (r : Req) (used : List Nat) : Option Nat :=
  let all := [(1, 1), (2, 2), (4, 2), (6, 2), (8, 1), (9, 3), (0xC, 4), (0x10, 16), (0x20, 2), (0x22, 1), (0x23, 1)]
  reserved r (all.filter (fun f => !used.contains f.1))

/-- The initial entries in the MAP buffer. -/
def mapEntries (n : Nat) (bs : List Byte) : Tbl StripeEntry :=
  (List.range n).map (fun i => (i, StripeEntry.ofNum (leNat ((bs.drop (8 * i)).take 8)) 1))

/-- The checks that JOIN_MEMBER and JOIN_ACCESSOR share. -/
def Mod.joinFault (m : Mod) (r : Req) : Option Reply :=
  let fr := r.arg 2 2
  if 16384 ≤ fr ∨ Tbl.has m.fm.regions fr ∨ Tbl.has m.fm.joins fr then some { status := .badArgument, detail := 0x12 }
  else if m.fab.deviceId = 0xFFFF then some { status := .notPermitted, detail := 0x0D10 }
  else if 16384 ≤ r.arg 6 2 then some { status := .badArgument, detail := 0x16 }
  else if 1024 ≤ m.fm.regions.length + m.fm.joins.length then some { status := .noResource }
  else none

/-- Ask the registrar for its map (R334). -/
def Mod.askJoin (m : Mod) (r : Req) (op : Nat) (w : JoinWait) (data : List Byte) : Mod × Reply :=
  let fr := r.arg 2 2
  ((m.setFm (fun e => { e with joins := Tbl.put e.joins fr w })).sendVop w.registrar r.partD
    { op := op, fregion := fr, device := w.registrar, ch := r.ch, ctx := 65536, arg := w.localRegion } 0xFFFFFFFF 0 0 0 0 0 data, { status := .pending })

/-- The attributes that a member's local part must share with the registrar's (R330, R334). -/
def Region.joinAttrs (g : Region) : List Byte := le 1 g.form.code ++ le 1 g.dtype.code ++ le 1 (b2n g.versioning) ++ le 1 (b2n g.durable) ++ le 1 (b2n g.elastic)

/-- JOIN_MEMBER (R330). -/
def cmdJoinMember : Cmd := fun r m =>
  if m.vopWaiting r.ch ∨ m.fm.joins.any (fun w => w.2.ch = r.ch) then (m, { status := .pending })
  else
    match m.joinFault r with
    | some rep => (m, rep)
    | none =>
      let id := r.arg 4 2
      match m.ownRegion r id 4 with
      | .inr rep => (m, rep)
      | .inl g =>
        if !g.striped ∨ m.fm.regions.any (fun f => !f.2.accessor && f.2.localRegion = id) then badArg m 4
        else if r.arg 6 2 = m.fab.deviceId then
          let n := r.arg 0xC 4
          match r.unused [2, 4, 6, 8, 0xC, 0x10] with
          | some o => badArg m o
          | none =>
            if 12 < r.arg 8 1 then badArg m 8
            else if n = 0 ∨ 1048576 < n then badArg m 0xC
            else
              match r.buffer 0x10 with
              | .inr o => badArg m o
              | .inl (a, len, space) =>
                if len ≠ 8 * n then badArg m 0x18
                else
                  match m.readBuffer r.ch 0 0x20 r.owner r.partD a len space with
                  | (m1, .waiting) => (m1, { status := .pending })
                  | (m1, .refused st) => fail m1 st (if st = .badArgument then 0x20 else 0)
                  | (m1, .ready bs) =>
                    let w : JoinWait := { purpose := 0, partition := r.partD, localRegion := id, registrar := m.fab.deviceId, ch := r.ch, entries := mapEntries n bs, answer := none }
                    let f := { FabRegion.init w 1 n (r.arg 8 1) g.rotation with members := [m.fab.deviceId] }
                    done ((m1.setFm (fun e => { e with regions := Tbl.put e.regions (r.arg 2 2) f })).setRegion id (fun g => g.atHead 0))
        else
          match r.unused [2, 4, 6] with
          | some o => badArg m o
          | none =>
            m.askJoin r 0x18 { purpose := 0, partition := r.partD, localRegion := id, registrar := r.arg 6 2, ch := r.ch, entries := [], answer := none }
              (le 2 id ++ g.joinAttrs)

/-- JOIN_ACCESSOR (R330). -/
def cmdJoinAccessor : Cmd := fun r m =>
  if m.vopWaiting r.ch ∨ m.fm.joins.any (fun w => w.2.ch = r.ch) then (m, { status := .pending })
  else
    match m.joinFault r, r.unused [2, 6] with
    | some rep, _ => (m, rep)
    | none, some o => badArg m o
    | none, none =>
      m.askJoin r 0x19 { purpose := 1, partition := r.partD, localRegion := 65535, registrar := r.arg 6 2, ch := r.ch, entries := [], answer := none } []

/-- A joined region that FREGION_ID names for the target partition. -/
def Mod.joined (m : Mod) (r : Req) (off : Nat) : Option (Nat × FabRegion) :=
  match Tbl.find m.fm.regions (r.arg off 2) with
  | some f => if f.partition = r.partD ∧ r.arg off 2 < 16384 then some (r.arg off 2, f) else none
  | none => none

/-- A context or a loaded movement of the module reaches the region, or a home lies in its local part (R330). -/
def Mod.regionBusy (m : Mod) (fr : Nat) (f : FabRegion) : Bool :=
  let id := 0x8000 + fr
  (!f.accessor && f.stripe.any (fun e => e.2.home = m.fab.deviceId)) ||
    m.ctxs.any (fun c => c.2.state != CtxState.free && (match c.2.obj with | .view g _ => g = id | .working g _ _ => g = id | _ => false)) ||
    m.mvs.any (fun v => v.2.bindings.any (fun b => b.2 = id)) || m.streams.any (fun t => t.2.region = id)

/-- Drop the replica of a region that this module leaves. -/
def Mod.dropFreg (m : Mod) (fr : Nat) : Mod :=
  match Tbl.find m.fm.regions fr with
  | none => m
  | some f =>
    let m1 := m.setFm (fun e => { e with regions := Tbl.del e.regions fr, unitMoves := e.unitMoves.filter (fun x => x.fregion != fr) })
    if f.accessor then m1 else (m1.gcRegion f.localRegion).spaceFreed

/-- LEAVE (R330). The registrar leaves without asking. -/
def cmdFabRegionLeave : Cmd := fun r m =>
  if m.vopWaiting r.ch then (m, { status := .pending })
  else
    match m.joined r 2, r.unused [2] with
    | none, _ => badArg m 2
    | some _, some o => badArg m o
    | some (fr, f), none =>
      if m.regionBusy fr f then fail m .busy
      else if f.registrar = m.fab.deviceId then done (m.dropFreg fr)
      else m.askRegistrar r fr f 0x1B 65536 0xFFFFFFFF 0 0 0 0 []

/-- The region, PEER and PEER_PART of EXPORT and UNEXPORT, or the refusal. -/
def Mod.grantArg (m : Mod) (r : Req) : (Nat × Nat × Nat) ⊕ Reply :=
  match m.ownRegion r (r.arg 4 2) 4 with
  | .inr rep => .inr rep
  | .inl g =>
    if g.striped then .inr { status := .badArgument, detail := 0x14 }
    else if 16384 ≤ r.arg 0x20 2 ∧ r.arg 0x20 2 ≠ 0xFFFF then .inr { status := .badArgument, detail := 0x30 }
    else if 64 ≤ r.arg 0x22 1 ∧ r.arg 0x22 1 ≠ 0xFF then .inr { status := .badArgument, detail := 0x32 }
    else .inl (r.arg 4 2, r.arg 0x20 2, r.arg 0x22 1)

def grantMatches (k : Nat × Nat × Nat) (g : Nat × Nat × Nat × Nat) : Bool := g.1 = k.1 && g.2.1 = k.2.1 && g.2.2.1 = k.2.2

/-- EXPORT (R330): a grant to the same peer takes the new ACCESS. -/
def cmdFabRegionExport : Cmd := fun r m =>
  match m.grantArg r, r.unused [4, 0x20, 0x22, 0x23] with
  | .inr rep, _ => (m, rep)
  | .inl _, some o => badArg m o
  | .inl k, none =>
    let a := r.arg 0x23 1
    if a ≠ 1 ∧ a ≠ 2 then badArg m 0x23
    else
      let rest := m.fm.grants.filter (fun g => !grantMatches k g)
      if 4096 ≤ rest.length then fail m .noResource
      else done (m.setFm (fun e => { e with grants := rest ++ [(k.1, k.2.1, k.2.2, a)] }))

/-- UNEXPORT (R330). -/
def cmdFabRegionUnexport : Cmd := fun r m =>
  match m.grantArg r, r.unused [4, 0x20, 0x22] with
  | .inr rep, _ => (m, rep)
  | .inl _, some o => badArg m o
  | .inl k, none =>
    if m.fm.grants.any (grantMatches k) then done (m.setFm (fun e => { e with grants := e.grants.filter (fun g => !grantMatches k g) })) else badArg m 4

/-- Every answer to the queries of a TAKE_REGISTRAR is in: fetch a newer map, or become the registrar. -/
def Mod.takeCheck (m : Mod) (fr : Nat) : Mod :=
  match Tbl.find m.fm.takes fr, Tbl.find m.fm.regions fr with
  | some t, some f =>
    if t.awaited ≠ [] then m
    else if f.stripeGen < t.gen then
      let w : JoinWait := { purpose := 2, partition := f.partition, localRegion := f.localRegion, registrar := t.source, ch := t.ch, entries := [], answer := none }
      (m.setFm (fun e => { e with joins := Tbl.put e.joins fr w })).sendVop t.source f.partition
        { op := 0x19, fregion := fr, device := t.source, ch := t.ch, ctx := 65536, arg := 0 } 0xFFFFFFFF 0 0 0 0 0 []
    else m.takeDone fr t
  | _, _ => m

/-- The devices to which a packet can be routed. -/
def Mod.routed (m : Mod) : List Nat :=
  (m.fab.routes.filter (fun e => bit e.2 31 && ((List.range (bits e.2 28 2 + 1)).any (fun s => (m.fport (bits e.2 (4 * s) 4)).state == FabState.up)))).map (fun e => e.1)

/-- TAKE_REGISTRAR (R339). A member holds no list of the others, so it asks every device that it can reach, those that it knows as homes or as
the registrar among them; one that is no member does not answer with OK. -/
def cmdTakeRegistrar : Cmd := fun r m =>
  if m.fm.takes.any (fun t => t.2.ch = r.ch) then (m, { status := .pending })
  else
    match m.joined r 2, r.unused [2] with
    | none, _ => badArg m 2
    | some _, some o => badArg m o
    | some (fr, f), none =>
      if f.accessor ∨ Tbl.has m.fm.takes fr then badArg m 2
      else if f.registrar = m.fab.deviceId then done m
      else
        let m0 := match f.prepared with | some p => m.sealAbort fr p.1 | none => m
        let known := (f.registrar :: f.stripe.map (fun e => e.2.home)).filter (fun d => !m.fab.unreachable.contains d)
        let ask := (known ++ m.routed).foldl (fun a d => if d = m.fab.deviceId ∨ a.contains d then a else a ++ [d]) []
        let t : TakeWait := { ch := r.ch, awaited := ask, members := [], gen := 0, source := 0, head := 0, top := 0 }
        let m1 := m0.setFm (fun e => { e with takes := Tbl.put e.takes fr t })
        let m2 := m1.each ask (fun m d => m.tellVop d fr 0x1A 0xFFFFFFFF 0 0 0 0)
        if ask = [] then
          -- with nobody to ask the command completes at once, so its answer is not left to `takeDone`
          done ((m2.setFm (fun e => { e with takes := Tbl.upd e.takes fr (fun t => { t with ch := 65536 }) })).takeCheck fr)
        else (m2, { status := .pending })

/-! ### JOIN, MAP_FETCH, REGISTRAR_QUERY and LEAVE (R334) -/

/-- The DATA of JOIN and MAP_FETCH. -/
def joinData (f : FabRegion) (head : Nat) : List Byte := le 4 f.stripeGen ++ le 4 f.units ++ le 1 f.log2Stripe ++ le 1 0 ++ le 2 f.rotation ++ le 4 head

/-- Send the whole map, then the answer that closes the transfer. -/
def Mod.sendWholeMap (m : Mod) (q : Packet) (f : FabRegion) (head : Nat) : Mod :=
  (m.sendMap q.fregion q.src f.stripeGen f.stripe).vopRsp q.src q.fregion q.tag .ok 0 (joinData f head)

/-- JOIN at the registrar. -/
def onJoin : Packet → FabRegion → Region → Mod → Mod := fun q f g m =>
    if (q.vopData.drop 2).take 5 ≠ g.joinAttrs then m.vopRsp q.src q.fregion q.tag .badArgument 0 []
    else
      (m.setFreg q.fregion (fun f => { f with members := if f.members.contains q.src then f.members else f.members ++ [q.src] })).sendWholeMap q f g.head

/-- The row of `onJoin`. -/
def execJoin (port : BitVec 4) (s : State) : Out := s.act (fun m => m.atRegistrar port.toNat 0x18 onJoin)

/-- MAP_FETCH: the registrar answers an accessor; any member answers a module that takes the registrar's part (R339). -/
def onMapFetch : Packet → FabRegion → Mod → Mod := fun q f m =>
    let head := (Tbl.find m.mem.regions f.localRegion).elim 0 (fun g => g.head)
    if f.registrar = m.fab.deviceId then
      (m.setFreg q.fregion (fun f => { f with accessors := if f.accessors.contains q.src then f.accessors else f.accessors ++ [q.src] })).sendWholeMap q f head
    else if f.accessor then m.nack q.flow q.src q.tag 3
    else m.sendWholeMap q f head

/-- The row of `onMapFetch`. -/
def execMapFetch (port : BitVec 4) (s : State) : Out := s.act (fun m => m.onVop port.toNat 0x19 onMapFetch)

/-- REGISTRAR_QUERY (R334, R339). -/
def onRegistrarQuery : Packet → FabRegion → Mod → Mod := fun q f m =>
    let g := Tbl.find m.mem.regions f.localRegion
    if f.accessor then m.nack q.flow q.src q.tag 3
    else m.vopRsp q.src q.fregion q.tag .ok 0 (le 4 f.stripeGen ++ le 4 (g.elim 0 (fun g => g.head)) ++ le 4 (g.elim 0 (fun g => g.nextVersion - 1)))

/-- The row of `onRegistrarQuery`. -/
def execRegistrarQuery (port : BitVec 4) (s : State) : Out := s.act (fun m => m.onVop port.toNat 0x1A onRegistrarQuery)

/-- LEAVE at the registrar: BUSY while the stripe map names the member as a home. -/
def onLeave : Packet → FabRegion → Region → Mod → Mod := fun q f _ m =>
    if f.stripe.any (fun e => e.2.home = q.src) then m.vopRsp q.src q.fregion q.tag .busy 0 []
    else
      (m.setFreg q.fregion (fun f => { f with members := f.members.filter (fun d => d != q.src), accessors := f.accessors.filter (fun d => d != q.src), holders := f.holders.filter (fun h => h.device != q.src) })).vopRsp q.src q.fregion q.tag .ok 0 []

/-- The row of `onLeave`. -/
def execLeave (port : BitVec 4) (s : State) : Out := s.act (fun m => m.atRegistrar port.toNat 0x1B onLeave)

/-! ### REHOME at the registrar (R342) -/

def Mod.rehomeOf (m : Mod) (fr : Nat) : Option Rehome := m.fm.rehomes.find? (fun h => h.fregion = fr)
def Mod.setRehome (m : Mod) (fr : Nat) (f : Rehome → Rehome) : Mod :=
  match m.rehomeOf fr with
  | some h => m.setFm (fun e => { e with rehomes := e.rehomes.map (fun x => if x = h then f x else x) })
  | none => m

/-- The REHOME ends: its answer goes to the module that forwarded it, and the next one of the region begins. -/
def Mod.rehomeEnd (m : Mod) (fr : Nat) (h : Rehome) : Mod :=
  let gen := (Tbl.find m.fm.regions fr).elim 0 (fun f => f.stripeGen)
  (m.setFm (fun e => { e with rehomes := e.rehomes.filter (fun x => x != h) })).vopRsp h.requester fr h.token (h.failed.getD .ok) 0 (le 4 h.moved ++ le 4 gen)

/-- Begin the next unit, or end the REHOME; a unit that its destination already holds needs no move. One REHOME of a region runs at a
time. -/
def Mod.rehomeStep (m : Mod) (fr : Nat) : Nat → Mod
  | 0 => m
  | fuel + 1 =>
    match m.rehomeOf fr, Tbl.find m.fm.regions fr with
    | some h, some f =>
      if h.phase ≠ 0 then m
      else if h.left = 0 ∨ h.cancelled then (m.rehomeEnd fr h).rehomeStep fr fuel
      else
        match Tbl.find f.stripe h.unit with
        | some e =>
          if e.home = h.dest then (m.setRehome fr (fun h => { h with unit := h.unit + 1, left := h.left - 1 })).rehomeStep fr fuel
          else
            let m1 := (m.setRehome fr (fun h => { h with phase := 1 })).writeEntry fr h.unit f.stripeGen { e with moving := true, gen := f.stripeGen }
            m1.tellVop h.dest fr 0x1D 0xFFFFFFFF 0 0 0 h.unit
        | none => (m.setRehome fr (fun h => { h with unit := h.unit + 1, left := h.left - 1 })).rehomeStep fr fuel
    | _, _ => m

/-- Steps that cannot exceed the units left, over all the region's REHOMEs. -/
def Mod.rehomeRun (m : Mod) (fr : Nat) : Mod := m.rehomeStep fr (sumOf (m.fm.rehomes.map (fun h => h.left + 2)))

/-- The present unit fails: its entry is restored, and the REHOME goes on with the next. -/
def Mod.rehomeFail (m : Mod) (fr : Nat) (st : Status) : Mod :=
  match m.rehomeOf fr, Tbl.find m.fm.regions fr with
  | some h, some f =>
    if h.phase = 0 then m
    else
      let m1 := match Tbl.find f.stripe h.unit with
        | some e => m.writeEntry fr h.unit f.stripeGen { e with moving := false, gen := f.stripeGen }
        | none => m
      ((m1.setRehome fr (fun h => { h with phase := 0, unit := h.unit + 1, left := h.left - 1, failed := some (h.failed.getD st) })).rehomeRun fr).runSeals fr
  | _, _ => m

/-- REHOME_FORWARD at the registrar. -/
def onRehomeForward : Packet → FabRegion → Region → Mod → Mod := fun q f _ m =>
    let first := q.arg0
    let n := q.arg1 % 2 ^ 32
    let dest := bits q.arg1 32 16
    let meets := m.fm.rehomes.any (fun h => h.fregion = q.fregion && decide (h.unit < first + n) && decide (first < h.unit + h.left))
    if n = 0 ∨ f.units < first + n ∨ !f.members.contains dest then m.vopRsp q.src q.fregion q.tag .badArgument 0 []
    else if meets then m.vopRsp q.src q.fregion q.tag .busy 0 []
    else
      let h : Rehome := { fregion := q.fregion, unit := first, left := n, dest := dest, requester := q.src, token := q.tag, phase := 0, localUnit := 0,
                          moved := 0, failed := none, cancelled := false }
      (m.setFm (fun e => { e with rehomes := e.rehomes ++ [h] })).rehomeRun q.fregion

/-- The row of `onRehomeForward`. -/
def execRehomeForward (port : BitVec 4) (s : State) : Out := s.act (fun m => m.atRegistrar port.toNat 0x1C onRehomeForward)

/-- REHOME_UNIT_COMMIT (R342 step 5): the entry is written once the destination has placed every record and no seal of the region is
prepared. -/
def execRehomeUnitCommit (fregion : Nat) (unit : Nat) (s : State) : Out :=
  s.act (fun m => match m.rehomeOf fregion, Tbl.find m.fm.regions fregion with
    | some h, some f =>
      if h.phase ≠ 3 ∨ h.unit ≠ unit ∨ f.sealing.isSome then m
      else
        let gen := f.stripeGen + 1
        let m1 := m.setRehome fregion (fun h => { h with phase := 0, unit := h.unit + 1, left := h.left - 1, moved := h.moved + 1 })
        ((m1.writeEntry fregion unit gen { home := h.dest, gen := gen, localUnit := h.localUnit, moving := false }).rehomeRun fregion).runSeals fregion
    | _, _ => m)

/-- REHOME (R342): the command is forwarded to the registrar under a context of its own. -/
def cmdRehome : Cmd := fun r m =>
  match m.joined r 0 with
  | none => badArg m 0
  | some (fr, f) =>
    if 16384 ≤ r.arg 2 2 then badArg m 2
    else if f.units ≤ r.arg 4 4 then badArg m 4
    else if r.arg 8 4 = 0 ∨ f.units < r.arg 4 4 + r.arg 8 4 then badArg m 8
    else
      match m.newCtx r .rehome .none none with
      | (m1, .inr rep) => (m1, rep)
      | (m1, .inl n) =>
        (m1.sendVop f.registrar r.partD { op := 0x1C, fregion := fr, device := f.registrar, ch := 65536, ctx := n, arg := 0 } 0xFFFFFFFF 0 0 0 (r.arg 4 4)
          (r.arg 8 4 + 2 ^ 32 * r.arg 2 2) [], { status := .accepted, context := m1.idOf n })

/-! ### REHOME at the destination -/

/-- A free unit slot of the local part: whole units of live panes that no entry and no reservation uses. -/
def Mod.freeLocalUnit (m : Mod) (f : FabRegion) (fr : Nat) : Option Nat :=
  match Tbl.find m.mem.regions f.localRegion with
  | none => none
  | some g =>
    let used := fun (u : Nat) => f.stripe.any (fun e => e.2.home = m.fab.deviceId && e.2.localUnit = u) ||
      m.fm.unitMoves.any (fun x => x.fregion = fr && !x.sending && x.localUnit = u)
    (List.range (g.endPane / f.span)).find? (fun u => (g.extentAt (u * f.span)).isSome && !used u)

/-- REHOME_RESERVE (R342 step 2, R78). -/
def onRehomeReserve : Packet → FabRegion → Mod → Mod := fun q f m =>
    if m.boot.readiness = .draining then m.vopRsp q.src q.fregion q.tag .notPermitted 0 []
    else
      match m.freeLocalUnit f q.fregion with
      | none => m.vopRsp q.src q.fregion q.tag .capacity 0 []
      | some u =>
        let x : UnitMove := { fregion := q.fregion, unit := q.arg0, peer := (Tbl.find f.stripe q.arg0).elim 0 (fun e => e.home), sending := false, token := 0,
                              registrar := q.src, left := 0, localUnit := u, parts := [] }
        (m.setFm (fun e => { e with unitMoves := e.unitMoves ++ [x] })).vopRsp q.src q.fregion q.tag .ok 0 (le 4 u)

/-- The row of `onRehomeReserve`. -/
def execRehomeReserve (port : BitVec 4) (s : State) : Out := s.act (fun m => m.onVop port.toNat 0x1D onRehomeReserve)

/-- A version's name in a record of REHOME_DATA. -/
def VerSel.wire : VerSel → Nat
  | .sealed v => v
  | .part key => 2 ^ 63 + key
  | _ => 0
def VerSel.ofWire (n : Nat) : VerSel := if bit n 63 then .part (n - 2 ^ 63) else .sealed n

/-- A pane record as REHOME_DATA carries it: its form, whether it is poisoned or unbacked, its counter, its TIER, the versions that name it, the
poisoned lines or tiles, its Lehr table, and its stored bytes. -/
def Mod.wireRecord (m : Mod) (k : Nat) (x : PaneRec) (f : FabRegion) : List Byte :=
  let vers := (Tbl.find m.mem.regions x.region).elim [] (fun g => (g.vers.filter (fun v => mapNames v.2.map x.pane k)).map (fun v => VerSel.sealed v.1)) ++
    (f.parts.filter (fun p => mapNames p.2 x.pane k)).map (fun p => VerSel.part p.1)
  let none := x.tier = .unbacked ∨ x.state = .poisoned
  let body := if none ∨ x.form = .zero then [] else Mem.block x.img 0 (x.sectors * 256)
  let table := if x.form = .lehr ∧ !none then Mem.block ((m.tableOf x.region (lehrGen x.img)).getD []) 0 144 else []
  le 1 x.form.code ++ le 1 (b2n (x.state = .poisoned) + 2 * b2n (x.tier = .unbacked)) ++ le 2 vers.length ++ le 1 x.counter ++ le 1 x.tier.code ++ le 2 x.poison.length ++
    vers.flatMap (fun v => le 8 v.wire) ++ x.poison.flatMap (le 2) ++ table ++ body

/-- What a record of REHOME_DATA becomes at its destination: encoded as an eviction would, or decoded for a frame in T0. -/
structure WireRec where
  poisoned : Bool
  unbacked : Bool
  counter : Nat
  tier : Tier
  vers : List VerSel
  tiles : List (List Byte)
  lines : List Nat
  form : PForm
  body : List Byte

/-- Read a record of REHOME_DATA. -/
def WireRec.read (bs : List Byte) : WireRec :=
  let num := fun (o n : Nat) => leNat ((bs.drop o).take n)
  let nv := num 2 2
  let np := num 6 2
  let o1 := 8 + 8 * nv
  let o2 := o1 + 2 * np
  let form := if num 0 1 = 1 then PForm.lehr else if num 0 1 = 2 then .frit else if num 0 1 = 3 then .zero else .raw
  let bad := (List.range np).map (fun i => num (o1 + 2 * i) 2)
  let table := if form = .lehr then Mem.pack 0 ((bs.drop o2).take 144) else []
  let body := bs.drop (o2 + (if form = .lehr then 144 else 0))
  let img := Mem.pack 0 body
  let tile := fun (t : Nat) =>
    match form with
    | .raw => some (Mem.block img (t * 2048) 2048)
    | .frit => if bad.contains t then none else fritDecode img t
    | .lehr => if bad.contains t then none else (lehrTileDecode img (some table) t).1
    | .zero => some (List.replicate 2048 0)
  let ts := (List.range 32).map tile
  { poisoned := bit (num 1 1) 0, unbacked := bit (num 1 1) 1, counter := num 4 1,
    tier := if num 5 1 = 1 then .t1 else if num 5 1 = 2 then .t2 else .t0, vers := (List.range nv).map (fun i => VerSel.ofWire (num (8 + 8 * i) 8)),
    tiles := ts.map (fun b => b.getD (List.replicate 2048 0)),
    lines := (if form = .raw then bad else []) ++ (List.range 32).flatMap (fun t => if (ts.getD t none).isNone then (List.range 32).map (fun l => t * 32 + l) else []),
    form := form, body := body }

/-- Name a record in the versions of its set. -/
def Mod.nameIn (m : Mod) (fr r pane k : Nat) (vs : List VerSel) : Mod :=
  m.each vs (fun m v =>
    let m1 := match v with
      | .part key => m.ensurePart fr key
      | .sealed n => m.setRegion r (fun g => if Tbl.has g.vers n then g else
          { g with vers := Tbl.put g.vers n { map := [], checkpoint := false, orphan := false, durableDone := false, published := true }, nextVersion := max g.nextVersion (n + 1) })
      | _ => m
    m1.setVmap r v (fun t => Tbl.put t pane k))

/-- Step 4 of R342: place one record: in T0 for PIN_T0, in T2 with its image staged for DURABLE, and otherwise as an eviction would;
none where there is no room. A POISONED record keeps its last TIER (R104). -/
def Mod.placeRecord (m : Mod) (fr r pane : Nat) (g : Region) (w : WireRec) : Option Mod :=
  let k := m.mem.nextRec
  let ext := (g.extentAt pane).getD 0
  let base := { PaneRec.fresh r pane ext 0 false m.mem.promoSeq m.localTime with counter := w.counter }
  let add := fun (m : Mod) (x : PaneRec) =>
    (m.setMem (fun e => { e with recs := Tbl.put e.recs k x, nextRec := k + 1, promoSeq := e.promoSeq + 1 })).nameIn fr r pane k w.vers
  let low : Tier := if m.t2Usable then .t2 else if m.t1Usable then .t1 else .t0
  if w.poisoned then some (add m { base with state := .poisoned, tier := w.tier, form := .raw, loc := 0, sectors := 0 })
  else if w.unbacked then some (add m { base with tier := .unbacked, form := .raw, loc := 0, sectors := 0 })
  else
    let tp := tilePoison w.lines
    let e := if w.form = .frit then (PForm.frit, 0, w.body) else g.encode w.tiles tp
    let n := e.2.2.length / 256
    let frame := fun (m : Mod) => (m.t0Alloc (m.residency g == Residency.pinT0) 256 256).map (fun s => add m (base.inFrame s (Mem.pack 0 (w.tiles.flatMap id)) w.lines))
    if e.1 = .zero then some (add m { base with tier := low, form := .zero, loc := 0, sectors := 0 })
    else if m.residency g = .pinT0 then frame m
    else
      match (if g.durable then m.lowAlloc .t2 n (m.mem.recs.length + 1) else m.evictPlace n) with
      | (some p, m1) =>
        let x := { base with tier := p.tier, form := e.1, gen := e.2.1, loc := p.loc, sectors := n, die := p.die, img := Mem.pack 0 e.2.2, encoded := some n }
        let m2 := (add m1 x).noteSlowest r e.1 x.img
        some (m2.storeImage k { p with sectors := n } 0x3008)
      | (none, m1) => frame m1

/-- REHOME_DATA (R334, R342): the parts of a record are joined in order, and the whole record is placed and answered. -/
def onRehomeData : Packet → Mod → Mod := fun p m =>
    let unit := p.num 0 4
    match m.fm.unitMoves.find? (fun x => x.fregion = p.fregion && x.unit = unit && !x.sending), Tbl.find m.fm.regions p.fregion with
    | some x, some f =>
      let off := p.num 12 4
      let total := p.num 16 4
      let parts := ((if off = 0 then [] else x.parts) ++ (p.payload.drop 20).take (total - off))
      let set := fun (m : Mod) (bs : List Byte) => m.setFm (fun e => { e with unitMoves := e.unitMoves.map (fun y => if y = x then { y with parts := bs } else y) })
      if parts.length < total then set m parts
      else
        let m1 := set m []
        (match Tbl.find m1.mem.regions f.localRegion with
          | none => m1.nack p.flow p.src p.tag 5
          | some g =>
            match m1.placeRecord p.fregion f.localRegion (x.localUnit * f.span + p.num 4 8 % f.span) g (WireRec.read parts) with
            | some m2 => m2.sendPacket (m2.packetTo p.src 1 p.flow 0x16 p.tag [])
            | none => m1.nack p.flow p.src p.tag 5)
    | _, _ => m.nack p.flow p.src p.tag 3

/-- The row of `onRehomeData`. -/
def execRehomeData (port : BitVec 4) (s : State) : Out := s.act (fun m => m.onPacket port.toNat 0x1E onRehomeData)

/-! ### REHOME at the source -/

/-- Bytes of a record that one packet of REHOME_DATA carries. -/
def rehomePart : Nat := 2192

/-- Send one record: its parts as consecutive packets of one tag, of which the last awaits the WR_ACK (R334); they carry POISON where the record
holds poison (R332). -/
def Mod.sendRecord (m : Mod) (fr unit pane dest : Nat) (bs : List Byte) (poison : Bool) : Mod :=
  let n := ceilDiv bs.length rehomePart
  let tag := m.fm.nextTag
  let body := fun (i : Nat) => leBytes 4 unit ++ leBytes 8 pane ++ leBytes 4 (i * rehomePart) ++ leBytes 4 bs.length ++ (bs.drop (i * rehomePart)).take rehomePart
  let m1 := m.each (List.range (n - 1)) (fun m i => m.sendPacket ((m.packetTo dest 2 (regionFlow fr) 0x1E tag (body i) 0 poison).chargedTo 0x3008))
  m1.request 7 dest 2 0x1E 0 (regionFlow fr) (body (n - 1)) unit .engine (0x8000 + fr) 0 poison

/-- REHOME_SEND (R342 step 3): every pane record of the unit, for every version. -/
def onRehomeSend : Packet → FabRegion → Mod → Mod := fun q f m =>
    match Tbl.find f.stripe q.arg0 with
    | none => m.vopRsp q.src q.fregion q.tag .badArgument 0 []
    | some e =>
      let rs := m.mem.recs.filter (fun x => x.2.region = f.localRegion && f.inUnit e.localUnit x.2.pane)
      if rs = [] then m.vopRsp q.src q.fregion q.tag .ok 0 []
      else
        let dest := q.arg1 % 16384
        let x : UnitMove := { fregion := q.fregion, unit := q.arg0, peer := dest, sending := true, token := q.tag, registrar := q.src, left := rs.length,
                              localUnit := e.localUnit, parts := [] }
        (m.setFm (fun e => { e with unitMoves := e.unitMoves ++ [x] })).each rs (fun m k =>
          m.sendRecord q.fregion q.arg0 (q.arg0 * f.span + k.2.pane % f.span) dest (m.wireRecord k.1 k.2 f)
            (k.2.state == .poisoned || k.2.poison != []))

/-- The row of `onRehomeSend`. -/
def execRehomeSend (port : BitVec 4) (s : State) : Out := s.act (fun m => m.onVop port.toNat 0x1E onRehomeSend)

/-! ### VERSION_RSP (R334, R338) -/

/-- The contexts of a fabric open: the view or working version is now held, with its window and its lease (R208). -/
def Mod.fabOpened (m : Mod) (w : VopWait) (obj : Obj) (v : Nat) : Mod :=
  match Tbl.find m.ctxs w.ctx with
  | none => m
  | some c =>
    let m1 := m.setCtx w.ctx (fun c => { c with obj := obj })
    let m2 := match c.holder with | some l => m1.leaseSync l | none => m1
    m2.answer w.ch { status := .ok, context := ctxId w.ctx c, data := le 4 v }

/-- The context of a waiting command is still in use. -/
def Mod.ctxAlive (m : Mod) (n : Nat) : Bool := (Tbl.find m.ctxs n).elim false (fun c => c.state != CtxState.free)

/-- What the answer to a VERSION_OP does. -/
def Mod.vopAnswered (m : Mod) (w : VopWait) (p : Packet) : Mod :=
  let st := Status.ofCode (p.num 0 2)
  let v := p.num 4 4
  let data := p.payload.drop 8
  let id := 0x8000 + w.fregion
  let rep : Reply := { status := st, detail := if st = .timeout then v else if st = .badArgument then 0x14 else 0 }
  match w.op with
  | 0x01 =>
    if st ≠ .ok then (m.freeCtx w.ctx).answer w.ch rep
    else if m.ctxAlive w.ctx then m.fabOpened w (.view id v) v
    else (m.tellVop w.device w.fregion 0x02 v 0 0 0 v).answer w.ch { status := .aborted }
  | 0x03 =>
    if st ≠ .ok then (m.freeCtx w.ctx).answer w.ch rep
    else if m.ctxAlive w.ctx then m.fabOpened w (.working id v []) v
    else m.answer w.ch { status := .aborted }
  | 0x02 => if w.ch < 65536 then (m.freeCtx w.ctx).answer w.ch { status := .ok } else m
  | 0x04 =>
    if st = .ok then (m.setCtx w.ctx (fun c => match c.obj with | .working g _ t => { c with obj := .working g v t } | _ => c)).answer w.ch { status := .ok, data := le 4 v }
    else if st = .conflict then m.answer w.ch { status := .conflict, data := le 4 v }
    else m.answer w.ch rep
  | 0x05 =>
    if w.ch = 65536 then m
    else if st ≠ .ok then (m.freeCtx w.ctx).answer w.ch rep
    else
      let here := (Tbl.find m.fm.regions w.fregion).elim 65535 (fun f => f.localRegion)
      let m1 := m.setCtx w.ctx (fun c => { c with work := .checkpoint here v 0, pastPonr := true })
      let m2 := m1.answer w.ch { status := .accepted, context := m1.idOf w.ctx }
      if Tbl.has m2.mem.regions here then m2 else m2.finish w.ctx .ok 0 v
  | 0x06 => if w.ch < 65536 then (m.freeCtx w.ctx).answer w.ch { status := .ok } else m
  | 0x07 => m.answer w.ch rep
  | 0x08 => m.answer w.ch (if st = .ok then { status := .ok, data := (data ++ List.replicate 232 0).take 232 } else rep)
  | 0x10 => if st = .ok then m.sealAcked w.fregion w.arg w.device else m
  | 0x18 | 0x19 =>
    if st ≠ .ok then
      let m1 := m.setFm (fun e => { e with joins := Tbl.del e.joins w.fregion, takes := Tbl.del e.takes w.fregion })
      m1.answer w.ch rep
    else
      let num := fun (o n : Nat) => leNat ((data.drop o).take n)
      (m.setFm (fun e => { e with joins := Tbl.upd e.joins w.fregion (fun j => { j with answer := some (num 0 4, num 4 4, num 8 1, num 10 2, num 12 4) }) })).joinCheck w.fregion
  | 0x1A =>
    let num := fun (o : Nat) => leNat ((data.drop o).take 4)
    (m.setFm (fun e => { e with takes := Tbl.upd e.takes w.fregion (fun t => { t with awaited := t.awaited.erase w.device, members := t.members ++ [w.device], head := max t.head (num 4), top := max t.top (num 8), gen := max t.gen (num 0), source := if t.gen < num 0 then w.device else t.source }) })).takeCheck w.fregion
  | 0x1B => if st = .ok then (m.dropFreg w.fregion).answer w.ch { status := .ok } else m.answer w.ch rep
  | 0x1C => m.finish w.ctx st rep.detail (leNat (data.take 8))
  | 0x1D =>
    (match m.rehomeOf w.fregion with
      | some h =>
        if h.phase ≠ 1 ∨ h.unit ≠ w.arg then m
        else if st ≠ .ok then m.rehomeFail w.fregion st
        else
          let home := ((Tbl.find m.fm.regions w.fregion).bind (fun f => Tbl.find f.stripe h.unit)).elim 0 (fun e => e.home)
          (m.setRehome w.fregion (fun h => { h with phase := 2, localUnit := leNat (data.take 4) })).sendVop home 0
            { op := 0x1E, fregion := w.fregion, device := home, ch := 65536, ctx := 65536, arg := h.unit } 0xFFFFFFFF 0 0 0 h.unit h.dest []
      | none => m)
  | 0x1E =>
    (match m.rehomeOf w.fregion with
      | some h =>
        if h.phase ≠ 2 ∨ h.unit ≠ w.arg then m
        else if st ≠ .ok then m.rehomeFail w.fregion st
        else (m.setRehome w.fregion (fun h => { h with phase := 3 })).runSeals w.fregion
      | none => m)
  | _ => m

/-- VERSION_RSP (R334). -/
def onVersionRsp : Packet → Mod → Mod := fun p m =>
    match Tbl.find m.fm.vops p.tag with
    | some w =>
      if w.device ≠ p.src then m
      else ((m.setFm (fun e => { e with vops := Tbl.del e.vops p.tag })).reached p.src).vopAnswered w p
    | none => m

/-- The row of `onVersionRsp`. -/
def execVersionRsp (port : BitVec 4) (s : State) : Out := s.act (fun m => m.onPacket port.toNat 0x1A onVersionRsp)

/-- The effect of the row of `execVersionOpTimeout` where it acts. -/
def Mod.vopLate (m : Mod) (token : Nat) (w : VopWait) : Mod :=
  let m1 := m.setFm (fun e => { e with vops := Tbl.del e.vops token })
  let late : Reply := { status := .timeout, detail := w.device }
  match w.op with
  | 0x01 | 0x03 | 0x05 => if w.ch = 65536 then m1 else (m1.freeCtx w.ctx).answer w.ch late
  | 0x18 | 0x19 => (m1.setFm (fun e => { e with joins := Tbl.del e.joins w.fregion, takes := Tbl.del e.takes w.fregion })).answer w.ch late
  | 0x1A => (m1.setFm (fun e => { e with takes := Tbl.upd e.takes w.fregion (fun t => { t with awaited := t.awaited.erase w.device }) })).takeCheck w.fregion
  | 0x1D | 0x1E => m1.rehomeFail w.fregion .timeout
  | _ => m1.answer w.ch late

/-- VERSION_OP_TIMEOUT (R338): a VERSION_OP has had no VERSION_RSP within 200 ms. A seal's acknowledgement has its own time (R339), and a
REHOME that was forwarded has none. -/
def execVersionOpTimeout (token : Nat) (s : State) : Out :=
  s.act (fun m => match Tbl.find m.fm.vops token with
    | none => m
    | some w =>
      if w.op = 0x10 ∨ w.op = 0x1C then m
      else m.vopLate token w)

/-! ### The rows -/

/-- FAB_REGION_JOIN, KIND 0 (R330). -/
def execJoinMember (ch : ChanNo) (s : State) : Out := s.mailbox ch 0x0D03 (joinForm 0) cmdJoinMember
/-- FAB_REGION_JOIN, KIND 1 (R330). -/
def execJoinAccessor (ch : ChanNo) (s : State) : Out := s.mailbox ch 0x0D03 (joinForm 1) cmdJoinAccessor
/-- FAB_REGION_JOIN, KIND 2 (R330). -/
def execFabRegionLeave (ch : ChanNo) (s : State) : Out := s.mailbox ch 0x0D03 (joinForm 2) cmdFabRegionLeave
/-- FAB_REGION_JOIN, KIND 3 (R330). -/
def execFabRegionExport (ch : ChanNo) (s : State) : Out := s.mailbox ch 0x0D03 (joinForm 3) cmdFabRegionExport
/-- FAB_REGION_JOIN, KIND 4 (R330). -/
def execFabRegionUnexport (ch : ChanNo) (s : State) : Out := s.mailbox ch 0x0D03 (joinForm 4) cmdFabRegionUnexport
/-- FAB_REGION_JOIN, KIND 5 (R339). -/
def execTakeRegistrar (ch : ChanNo) (s : State) : Out := s.mailbox ch 0x0D03 (joinForm 5) cmdTakeRegistrar
/-- REHOME (R342). -/
def execRehome (ch : ChanNo) (s : State) : Out := s.mailbox ch 0x0D04 anyForm cmdRehome

end Sys2Proof.Machine
end

