-- ==== Sys2Proof/Machine/FabMsgs.lean ====
section
/-! DEFINITION. Messages between cores and in-fabric reduction trees (spec/08_operation_reference.md R287 to R291;
spec/09_fabric_links_routing.md R305; spec/10_fabric_memory_space.md R330, R341). -/
namespace Sys2Proof.Machine

/-! ### Messages at their destination (R289, R305) -/

/-- FLOW_KEY of the messages to a core (R306): kind 1. -/
def msgFlow (core : Nat) : Nat := 16384 + core % 4096

/-- A message is held in full. -/
def CoreMsg.whole (x : CoreMsg) : Bool := x.data.length = x.total

/-- A waiting FAB_RECV takes a message. -/
def CoreWait.takes (w : CoreWait) (device core tag : Nat) : Bool :=
  match w with
  | .recv d c t _ _ => d = device && c = core && t = tag
  | _ => false

/-- Write the messages that waiting FAB_RECVs match, in the order of the descriptors: each takes the first that matches, once it is whole. A
longer message is cut, a shorter one leaves the remaining units (R289). -/
def Mod.matchRecv (m : Mod) (c : Nat) : Mod :=
  let go := fun (m : Mod) (w : CoreWait) =>
    match w with
    | .recv d sc t dest units =>
      (match (m.core c).msgs.find? (fun x => x.srcDevice = d && x.srcCore = sc && x.tag = t) with
        | some x =>
          if x.whole then
            (m.setCore c (fun k => { k.put dest (x.data.take (16 * units)) with msgs := k.msgs.erase x, waits := k.waits.erase w })).slotFreed c
          else m
        | none => m)
    | _ => m
  m.each (m.core c).waits go

/-- A whole message has arrived: its trace event (R536). -/
def Mod.recvTrace (m : Mod) (c : Nat) (x : CoreMsg) : Mod :=
  let v := m.runOf c
  m.traceEv (coreUnit c) 0x02 (v.elim 0xFF (fun v => v.2.partition)) x.srcDevice x.tag (x.srcCore + 4096 * (ceilDiv x.total 16 % 8192)) (v.elim 0 (fun v => m.idOf v.1))

/-- Messages that no waiting FAB_RECV of the core takes. -/
def Mod.unmatched (m : Mod) (c : Nat) : Nat :=
  ((m.core c).msgs.filter (fun x => !(m.core c).waits.any (fun w => w.takes x.srcDevice x.srcCore x.tag))).length

/-- One packet of a message: its source core, the offset of its part and the whole length open the payload. Between runs the message is
discarded, with one record for each core and run; a core that holds 16 unmatched messages refuses it, and the later ones of its flow until a
slot frees (R289, R305). -/
def Mod.msgArrived (m : Mod) (p : Packet) : Mod :=
  let c := p.flow % 4096
  let off := p.num 4 4
  let total := p.num 8 4
  let sc := p.num 0 2
  let part := (p.payload.drop 16).take (total - off)
  let refuse := fun (m : Mod) => if off = 0 then m.sendPacket (m.packetTo p.src 1 p.flow 0x04 p.tag []) else m
  let k := m.core c
  if k.movement.isNone ∨ (m.runOf c).isNone then
    if k.discardLogged then m
    else
      let v := k.movement
      (m.setCore c (fun k => { k with discardLogged := true })).logErr
        { unit := coreUnit c, code := 0x0102, sev := .info, partition := (v.bind (fun v => Tbl.find m.mvs v)).elim 0xFF (fun x => x.partition), context := v.elim 0 m.idOf }
  else if m.fm.refused.contains (c, p.src, p.flow) then refuse m
  else if off = 0 then
    let x : CoreMsg := { srcDevice := p.src, srcCore := sc, tag := p.tag, data := part, total := total }
    if 16 ≤ m.unmatched c ∧ !k.waits.any (fun w => w.takes p.src sc p.tag) then
      refuse (m.setFm (fun e => { e with refused := e.refused ++ [(c, p.src, p.flow)] }))
    else
      let m1 := m.setCore c (fun k => { k with msgs := k.msgs ++ [x] })
      if x.whole then (m1.recvTrace c x).matchRecv c else m1
  else
    match k.msgs.find? (fun x => x.srcDevice = p.src && x.srcCore = sc && x.tag = p.tag && !x.whole && x.data.length = off) with
    | none => m
    | some x =>
      let y := { x with data := x.data ++ part }
      let m1 := m.setCore c (fun k => { k with msgs := k.msgs.map (fun z => if z == x then y else z) })
      if y.whole then (m1.recvTrace c y).matchRecv c else m1

/-- MSG (R289). -/
def onMsg : Packet → Mod → Mod := fun p m => m.msgArrived p

/-- The row of `onMsg`. -/
def execMsg (port : BitVec 4) (s : State) : Out := s.act (fun m => m.onPacket port.toNat 0x1D onMsg)

/-! ### Messages at their sender (R288, R305) -/

/-- Bytes of a message that one packet carries. -/
def msgPart : Nat := 2208

/-- The packets of a message. -/
def Mod.msgPackets (m : Mod) (i : Issue) (bs : List Byte) (poison : Bool) : List Packet :=
  let n := max 1 (ceilDiv bs.length msgPart)
  (List.range n).map (fun j => (m.packetTo i.d.device 2 (msgFlow i.d.destCore) 0x1D i.d.msgTag
    (leBytes 2 i.c ++ leBytes 2 0 ++ leBytes 4 (j * msgPart) ++ leBytes 4 bs.length ++ leBytes 4 0 ++ (bs.drop (j * msgPart)).take msgPart) i.v.partition poison).chargedTo (0x2000 + i.v.partition) (m.movementOf (.core i.c 0)))

/-- Send a message, or hold it while its flow waits. -/
def Mod.sendMsg (m : Mod) (dest core : Nat) (ps : List Packet) : Mod :=
  let same := fun (f : MsgFlow) => f.dest = dest && f.core = core
  match m.fab.flows.find? same with
  | some f =>
    let m1 := m.setFab (fun e => { e with flows := e.flows.map (fun x => if same x then { x with msgs := x.msgs ++ [(f.held, ps)] } else x) })
    if f.held then m1 else m1.each ps Mod.sendPacket
  | none => (m.setFab (fun e => { e with flows := e.flows ++ [{ dest := dest, core := core, held := false, msgs := [(false, ps)] }] })).each ps Mod.sendPacket

/-- FAB_SEND (R288): with A_STORED a tag that carries POISON sets the poison flag of the message's packets. -/
def effFabSend : Effect := fun i m =>
    let u := i.unit i.d.srcA
    let bs := i.k.bytes u (16 * i.d.count)
    let poison := i.d.aStored && (List.range (i.d.count / 129)).any (fun t => bit ((i.k.bytes (u + 129 * t) 16).getD 2 0).toNat 2)
    let m1 := m.traceEv (coreUnit i.c) 0x01 i.v.partition i.d.device i.d.msgTag (i.d.destCore + 4096 * (i.d.count % 8192)) (m.idOf i.slot)
    (m1.sendMsg i.d.device i.d.destCore (m1.msgPackets i bs poison), none)

/-- The row of `effFabSend`. -/
def execFabSend (core : CoreNo) (s : State) : Out := s.act (fun m => m.issue core.toNat 0x70 effFabSend)

/-- FAB_RECV (R289). -/
def effFabRecv : Effect := fun i m =>
    let w := CoreWait.recv i.d.device i.d.destCore i.d.msgTag (i.unit i.d.dst) i.d.count
    ((m.setCore i.c (fun k => { k with waits := k.waits ++ [w] })).matchRecv i.c, none)

/-- The row of `effFabRecv`. -/
def execFabRecv (core : CoreNo) (s : State) : Out := s.act (fun m => m.issue core.toNat 0x71 effFabRecv)

/-- The places in a flow of the sent messages that a tag names. -/
def MsgFlow.sentWith (f : MsgFlow) (tag : Nat) : List Nat :=
  (List.range f.msgs.length).filter (fun i => match f.msgs[i]? with | some x => !x.1 && x.2.any (fun q => q.tag = tag) | none => false)

/-- The flow is held from a message on. The sent messages before it were not refused, so they have been taken and leave. -/
def MsgFlow.refuse (f : MsgFlow) (i : Nat) : MsgFlow :=
  { f with held := true, msgs := (f.msgs.take i).filter (fun x => x.1) ++ (f.msgs.drop i).modify 0 (fun x => (true, x.2)) }

/-- MSG_REFUSED (R305): the flow is held from the refused message on. MSG_TAG is all that names it: where several sent messages carry the tag,
the earlier ones may have been taken, which no packet tells, and which one is meant is a free choice (DESIGN CHOICE: log 77). -/
def onMsgRefused : Packet → Mod → Mod := fun p m =>
    let same := fun (f : MsgFlow) => f.dest = p.src && f.core = p.flow % 4096
    let places := (m.fab.flows.find? same).elim [] (fun f => f.sentWith p.tag)
    let c := m.choose places.length
    match places[c.1]? with
    | some i => c.2.setFab (fun e => { e with flows := e.flows.map (fun f => if same f then f.refuse i else f) })
    | none => m

/-- The row of `onMsgRefused`. -/
def execMsgRefused (port : BitVec 4) (s : State) : Out := s.act (fun m => m.onPacket port.toNat 0x04 onMsgRefused)

/-- MSG_SLOT_FREE (R305, R326): the held messages are sent again in order. -/
def onMsgSlotFree : Packet → Mod → Mod := fun p m =>
    let same := fun (f : MsgFlow) => f.dest = p.src && f.core = p.flow % 4096
    match m.fab.flows.find? same with
    | none => m
    | some f =>
      let again := (f.msgs.filter (fun x => x.1)).flatMap (fun x => x.2)
      (m.setFab (fun e => { e with flows := e.flows.map (fun x => if same x then { x with held := false, msgs := x.msgs.map (fun y => (false, y.2)) } else x) })).each
        again Mod.sendPacket

/-- The row of `onMsgSlotFree`. -/
def execMsgSlotFree (port : BitVec 4) (s : State) : Out := s.act (fun m => m.onPacket port.toNat 0x05 onMsgSlotFree)

/-! ### Reduction trees (R290, R341) -/

/-- The type of a tree's result. -/
def Tree.type (t : Tree) : DType := (DType.ofCode t.dtype).getD .fp32

/-- Combine two elements of a tree: FP32, or INT32 for an INT32 tree. -/
def Tree.combine (t : Tree) (a b : Nat) : Nat :=
  let f := DType.fp32.fmt
  if t.type = .int32 then
    let x := ofTwos 32 a
    let y := ofTwos 32 b
    toTwos 32 (if t.sub = 0 then x + y else if t.sub = 1 then max x y else min x y)
  else if t.sub = 0 then (f.result (FV.sum [f.value a, f.value b])).1
  else (f.round (FV.pick (t.sub = 1) (f.value a) (f.value b))).1

/-- Combine contributions in an order that the spec leaves open (R260): each next one is a free choice. -/
def Mod.combineAll (m : Mod) (t : Tree) : Nat → List (List Nat) → Option (List Nat) → Mod × List Nat
  | 0, _, acc => (m, acc.getD [])
  | n + 1, l, acc =>
    let c := m.choose l.length
    let x := l.getD c.1 []
    c.2.combineAll t n (l.eraseIdx c.1) (some (match acc with | none => x | some a => (a.zip x).map (fun p => t.combine p.1 p.2)))

def Mod.setTree (m : Mod) (id : Nat) (f : Tree → Tree) : Mod := m.setFm (fun e => { e with trees := Tbl.upd e.trees id f })
def Tree.round (t : Tree) (r : Nat) : Option TreeRound := t.rounds.find? (fun x => x.round = r)
def Mod.setRound (m : Mod) (id r : Nat) (f : TreeRound → TreeRound) : Mod :=
  m.setTree id (fun t => { t with rounds := t.rounds.map (fun x => if x.round = r then f x else x) })
def Mod.endRound (m : Mod) (id r : Nat) : Mod := m.setTree id (fun t => { t with rounds := t.rounds.filter (fun x => x.round != r) })

/-- The round, made where the tree has none; none when it would be a fifth. -/
def Mod.openRound (m : Mod) (id : Nat) (t : Tree) (r : Nat) : Option Mod :=
  if (t.round r).isSome then some m
  else if 4 ≤ t.rounds.length then none
  else some (m.setTree id (fun t => { t with rounds := t.rounds ++ [{ round := r, got := [], rootOnly := false, sent := false }] }))

/-- Elements as packets of TREE_ID, count and elements, in order. -/
def Mod.sendElements (m : Mod) (dest op id r w : Nat) (xs : List Nat) (poison : Bool) : Mod :=
  m.each (groups (2208 / w) xs) (fun m l => m.sendPacket (m.packetTo dest 2 (3 * 16384 + id % 16384) op r
    (leBytes 4 id ++ leBytes 4 l.length ++ l.flatMap (leBytes w)) 0 poison))

/-- Deliver a result to the cores of this module that wait for it (R290, R291). -/
def Mod.deliverResult (m : Mod) (id r w : Nat) (xs : List Nat) (poison : Bool) : Mod :=
  m.each m.cores (fun m c => m.each (c.2.waits) (fun m x => match x with
    | .reduce t rd dest _ writes =>
      if t = id ∧ rd = r then
        let m1 := m.setCore c.1 (fun k => { k with waits := k.waits.erase x })
        if poison then m1.failCore c.1 .poisoned 3 none
        else if writes then m1.setCore c.1 (fun k => k.put dest (xs.flatMap (leBytes w)))
        else m1
      else m
    | _ => m))

/-- Element width of a tree's results. -/
def Tree.width (t : Tree) : Nat := if t.type = .bf16 then 2 else 4

/-- A round of which every contribution is in: the partial goes to the parent; the root rounds once, delivers, and sends the result down
(R341). -/
def Mod.treeCheck (m : Mod) (id r : Nat) : Mod :=
  match Tbl.find m.fm.trees id with
  | none => m
  | some t =>
    match t.round r with
    | none => m
    | some rd =>
      let full := fun (k : Nat) => (Tbl.find rd.got k).elim false (fun x => x.1.length = t.elements)
      if rd.sent ∨ (rd.got.filter (fun x => 65536 ≤ x.1 && decide (x.1 < 131072))).length < t.cores ∨ !t.children.all full then m
      else
        let ins := rd.got.filter (fun x => decide (x.1 < 131072))
        let poison := ins.any (fun x => x.2.2)
        let c := m.combineAll t ins.length (ins.map (fun x => x.2.1)) none
        if t.parent = 0xFFFF then
          let res := if t.type = .bf16 then c.2.map (fun v => (DType.bf16.fmt.round (DType.fp32.fmt.value v)).1) else c.2
          let m1 := (c.1.endRound id r).deliverResult id r t.width res poison
          if rd.rootOnly then m1 else m1.each t.children (fun m d => m.sendElements d 0x1C id r t.width res poison)
        else
          let m1 := c.1.sendElements t.parent 0x1B id r 4 c.2 poison
          if rd.rootOnly ∨ t.cores = 0 then m1.endRound id r else m1.setRound id r (fun x => { x with sent := true })

/-- No round of the tree is free for the next descriptor of a core, so it waits (R290). -/
def Mod.roundStalls (m : Mod) (c : Nat) : Bool :=
  match m.nextDesc c with
  | some i => (match Tbl.find m.fm.trees i.d.tree with
      | some t => i.d.op = 0x72 && (m.openRound i.d.tree t i.d.msgTag).isNone
      | none => false)
  | none => false

/-- FAB_REDUCE (R290, R341). A fifth round of a tree waits at the core. -/
def effFabReduce : Effect := fun i m =>
      let bad : CoreFault := { status := .aborted, reason := 0x0B }
      match Tbl.find m.fm.trees i.d.tree with
      | none => (m, some bad)
      | some t =>
        if i.d.count ≠ t.elements ∨ i.d.dtype ≠ t.dtype ∨ i.d.sub ≠ t.sub then (m, some bad)
        else
          match m.openRound i.d.tree t i.d.msgTag with
          | none => (m, none)
          | some m1 =>
            let raw := elems i.d.type.bytes (i.k.bytes (i.unit i.d.srcA) (i.d.count * i.d.type.bytes))
            let xs := if t.type = .bf16 then raw.map (fun x => (DType.fp32.fmt.round (DType.bf16.fmt.value x)).1) else raw
            let root := t.parent = 0xFFFF
            let m2 := m1.setTree i.d.tree (fun t => { t with dead := t.dead.erase i.d.msgTag })
            let m3 := m2.setRound i.d.tree i.d.msgTag (fun r => { r with got := Tbl.put r.got (65536 + i.c) (xs, false), rootOnly := r.rootOnly || i.d.flag2 })
            let wait := CoreWait.reduce i.d.tree i.d.msgTag (i.unit i.d.dst) i.d.count (root || !i.d.flag2)
            let m4 := if root || !i.d.flag2 then m3.setCore i.c (fun k => { k with waits := k.waits ++ [wait] }) else m3
            (m4.treeCheck i.d.tree i.d.msgTag, none)

/-- The row of `effFabReduce`. -/
def execFabReduce (core : CoreNo) (s : State) : Out :=
  s.act (fun m => if m.roundStalls core.toNat then m else m.issue core.toNat 0x72 effFabReduce)

/-- The elements of a REDUCE_PART or REDUCE_RESULT. -/
def Packet.elements (p : Packet) (w : Nat) : List Nat := (List.range (min (p.num 4 4) (2216 / w))).map (fun i => p.num (8 + w * i) w)

/-- Take a partial's next elements. -/
def Mod.addPart (m : Mod) (id r key : Nat) (xs : List Nat) (poison : Bool) : Mod :=
  m.setRound id r (fun x =>
    let old := Tbl.findD x.got key ([], false)
    { x with got := Tbl.put x.got key (old.1 ++ xs, old.2 || poison) })

/-- REDUCE_PART (R341): a partial of a fifth round stays at the port, and one of a round that has timed out is discarded. -/
def execReducePart (port : BitVec 4) (s : State) : Out :=
  s.act (fun m => match m.take port.toNat (fun q => q.op = 0x1B) with
    | none => m
    | some (p, m0) =>
      let id := p.num 0 4
      match Tbl.find m0.fm.trees id with
      | none => m0
      | some t =>
        if !t.children.contains p.src ∨ t.dead.contains p.tag then m0
        else
          match m0.openRound id t p.tag with
          | none => m
          | some m1 => (m1.addPart id p.tag p.src (p.elements 4) p.poison).treeCheck id p.tag)

/-- REDUCE_RESULT (R290, R341): it goes on down the tree, and the cores that wait get it once it is whole. -/
def onReduceResult : Packet → Mod → Mod := fun p m =>
    let id := p.num 0 4
    match Tbl.find m.fm.trees id with
    | none => m
    | some t =>
      let m1 := m.each t.children (fun m d => m.sendPacket (m.packetTo d 2 p.flow 0x1C p.tag p.payload 0 p.poison))
      match t.round p.tag with
      | none => m1
      | some _ =>
        let m2 := m1.addPart id p.tag 131072 (p.elements t.width) p.poison
        match ((Tbl.find m2.fm.trees id).bind (fun t => t.round p.tag)).bind (fun r => Tbl.find r.got 131072) with
        | some (xs, bad) => if xs.length < t.elements then m2 else (m2.endRound id p.tag).deliverResult id p.tag t.width (xs.take t.elements) bad
        | none => m2

/-- The row of `onReduceResult`. -/
def execReduceResult (port : BitVec 4) (s : State) : Out := s.act (fun m => m.onPacket port.toNat 0x1C onReduceResult)

/-- TREE_ROUND_TIMEOUT (R341): the runs of the cores that wait end with ABORTED and REASON 0x0B. -/
def execTreeRoundTimeout (tree : Nat) (round : Nat) (s : State) : Out :=
  s.act (fun m => match (Tbl.find m.fm.trees tree).bind (fun t => t.round round) with
    | none => m
    | some _ =>
      let m1 := (m.endRound tree round).setTree tree (fun t => { t with dead := t.dead ++ [round] })
      m1.each m1.cores (fun m c =>
        if c.2.waits.any (fun w => match w with | .reduce t r _ _ _ => t = tree && r = round | _ => false) then m.failCore c.1 .aborted 0x0B none else m))

/-! ### TREE_SET and TREE_CLEAR (R330, R341) -/

/-- TREE_SET: a tree that is set again takes the new configuration, unless a round of it is in progress. -/
def cmdTreeSet : Cmd := fun r m =>
  let a := r.arg
  let dt := DType.ofCode (a 0xB 1)
  let n := a 0xA 1
  let kids := (List.range (min n 16)).map (fun i => a (0x18 + 2 * i) 2)
  let checks : List (Bool × Nat) :=
    [(a 1 3 != 0, 1), (decide (16384 ≤ a 8 2) && a 8 2 != 0xFFFF, 8), (decide (16 < n), 0xA),
     (dt != some DType.bf16 && dt != some DType.fp32 && dt != some DType.int32, 0xB), (decide (2 < a 0xC 1), 0xC), (a 0xD 1 != 0, 0xD),
     (decide (4096 < a 0xE 2), 0xE), (a 0x10 4 == 0 || decide (16384 < a 0x10 4), 0x10), (a 0x14 4 == 0 || decide (60000 < a 0x14 4), 0x14)]
  match checks.find? (fun c => c.1) with
  | some c => badArg m c.2
  | none =>
    match (List.range 16).find? (fun i => if i < n then decide (16384 ≤ a (0x18 + 2 * i) 2) else a (0x18 + 2 * i) 2 != 0) with
    | some i => badArg m (0x18 + 2 * i)
    | none =>
      let id := a 4 4
      match Tbl.find m.fm.trees id with
      | some t =>
        if t.partition ≠ r.partD then badArg m 4
        else if t.rounds ≠ [] then fail m .busy
        else done (m.setTree id (fun t => { t with parent := a 8 2, children := kids, cores := a 0xE 2, sub := a 0xC 1, dtype := a 0xB 1, elements := a 0x10 4,
                                                    timeoutMs := a 0x14 4, dead := [] }))
      | none =>
        if 256 ≤ m.fm.trees.length then fail m .noResource
        else
          let t : Tree := { partition := r.partD, parent := a 8 2, children := kids, cores := a 0xE 2, sub := a 0xC 1, dtype := a 0xB 1, elements := a 0x10 4,
                            timeoutMs := a 0x14 4, rounds := [], dead := [] }
          done (m.setFm (fun e => { e with trees := Tbl.put e.trees id t }))

/-- TREE_CLEAR: BUSY while a loaded movement binds the fabric operations, or a round is in progress (R341, R344). A KIND beyond the table is
BAD_ARGUMENT. -/
def cmdTreeClear : Cmd := fun r m =>
  if 7 < r.arg 0 1 then badArg m 0
  else
    match reserved r [(1, 3), (8, 8), (0x10, 8), (0x18, 8), (0x20, 8), (0x28, 8), (0x30, 8)], Tbl.find m.fm.trees (r.arg 4 4) with
    | some o, _ => badArg m o
    | none, none => badArg m 4
    | none, some t =>
      if t.partition ≠ r.partD then badArg m 4
      else if t.rounds ≠ [] ∨ m.mvs.any (fun v => v.2.state != MvState.loading && v.2.partition = t.partition && imgFabric v.2.image) then fail m .busy
      else done (m.setFm (fun e => { e with trees := Tbl.del e.trees (r.arg 4 4) }))

/-- FAB_REGION_JOIN, KIND 6 (R341). -/
def execTreeSet (ch : ChanNo) (s : State) : Out := s.mailbox ch 0x0D03 (joinForm 6) cmdTreeSet
/-- FAB_REGION_JOIN, KIND 7 (R341). -/
def execTreeClear (ch : ChanNo) (s : State) : Out := s.mailbox ch 0x0D03 (joinForm 7) cmdTreeClear

end Sys2Proof.Machine
end

