-- ==== Sys2Proof/Machine/Closing.lean ====
section
/-! DEFINITION. How things end: CONTEXT_CANCEL, the release of extents, REGION_DESTROY, PARTITION_DESTROY, the end of holdings, the
cullet pool and lease clean-up (spec/02_control_model.md R87, spec/03_tiers_and_panes.md R98 and R99,
spec/06_extents_sharing_versions.md R187 and R192 to R219). -/
namespace Sys2Proof.Machine

/-! ### Work that ends before its time -/

/-- Forget the answers that a context waits for. -/
def Mod.forgetVops (m : Mod) (slot : Nat) : Mod := m.setFm (fun e => { e with vops := e.vops.filter (fun v => v.2.ctx != slot) })

/-- The work of a context completes with ABORTED, with what its home chapter says of a cancel: a rebuild frees its reserved slot (R171),
a sweep reports what it did (R173), a capture and a synchronisation are no longer armed, a rung change is dropped (R573). -/
def Mod.abortWork (m : Mod) (slot : Nat) : Mod :=
  match Tbl.find m.ctxs slot with
  | none => m
  | some c =>
    match c.work with
    | .none => m
    | .rebuild _ s _ _ _ _ => (m.returnSlot s).finish slot .aborted 0 0
    | .sweep id _ flags _ _ n => m.sweepDone slot id flags n .aborted
    | .dumpTensor _ => (m.setHang (fun h => { h with captures := h.captures.filter (fun x => x.ctxSlot != slot) })).finish slot .aborted 0 0
    | .ftcSync _ => (m.setFab (fun f => { f with syncWait := none })).finish slot .aborted 0 0
    | .setRung _ => (m.setPow (fun p => if p.nowCtx = some slot then { p with nowCtx := none, preparing := false } else p)).finish slot .aborted 0 0
    | .scrub => (m.setSvc (fun v => { v with scrub := v.scrub.filter (fun p => p.ctxSlot != slot), scrubQueue := v.scrubQueue.filter (fun p => p.ctxSlot != slot) })).finish slot .aborted 0 0
    | .testRun =>
      let m1 := m.each (m.test.testRuns.filter (fun x => x.ctxSlot = slot)) (fun m x => match x.saved with | some (c, old) => m.setCoreTest c (fun k => { k with step := old.step }) | none => m)
      (m1.setTest (fun t => { t with testRuns := t.testRuns.filter (fun x => x.ctxSlot != slot) })).finish slot .aborted 0 0
    | _ => (m.forgetVops slot).finish slot .aborted 0 0

/-- The work of a context that the module closes: work before its point of no return completes with ABORTED, and work past it with its
own status (R187, R219). -/
def Mod.endWork (m : Mod) (slot : Nat) : Mod :=
  match Tbl.find m.ctxs slot with
  | none => m
  | some c =>
    if c.state = .free ∨ c.state = .complete then m
    else if !c.pastPonr then m.abortWork slot
    else
      match c.work with
      | .checkpoint _ v n => m.finish slot .ok 0 (v + n * 2 ^ 32)
      | .dumpTensor _ => m.abortWork slot
      | .none => m
      | _ => m.finish slot .ok 0 0

/-- Close what a lasting context holds open: a movement is stopped with a REASON and unloaded, a stream closes, a view closes, a working
version is discarded; on a fabric region the registrar is told (R338, R340). -/
def Mod.closeObject (m : Mod) (slot reason : Nat) : Mod :=
  match Tbl.find m.ctxs slot with
  | none => m
  | some c =>
    let registrar := fun (id : Nat) => (Tbl.find m.fm.regions (id - 0x8000)).map (fun f => f.registrar)
    match c.obj with
    | .none => m
    | .movement v => m.dropMovement v reason
    | .stream v => m.closeStream v
    | .view id v =>
      if id < 0x8000 then m.freeCtx slot
      else
        (match registrar id with
          | some d => (m.tellVop d (id - 0x8000) 2 v 0 0 0 v).freeCtx slot
          | none => m.freeCtx slot)
    | .working id _ _ =>
      if id < 0x8000 then m.discardWorking slot id
      else
        (match registrar id with
          | some d => (m.tellVop d (id - 0x8000) 6 0xFFFFFFFE (m.idOf slot) m.fab.deviceId 0 0).freeCtx slot
          | none => m.freeCtx slot)

/-- The CONTEXT_ID of a stream's open names the context slot. -/
def Stream.holds (t : Stream) (slot : Nat) : Bool := t.arg 0 4 != 0 && t.arg 0 4 % 65536 = slot

/-- Close a view or working version that movements and streams may hold: the movements that bind it are stopped with a REASON and unloaded,
the streams close, then the context (R192). -/
def Mod.closeHeld (m : Mod) (slot reason : Nat) : Mod :=
  let m1 := m.each (m.mvs.filter (fun v => v.2.bindings.any (fun b => b.1 = slot))) (fun m v => m.dropMovement v.1 reason)
  let m2 := m1.each (m1.streams.filter (fun t => t.2.holds slot)) (fun m t => m.closeStream t.1)
  m2.closeObject slot reason

/-! ### CONTEXT_CANCEL (R87, R249) -/

/-- Cancel the work of an ACTIVE context that has not passed its point of no return: it completes with ABORTED later. -/
def Mod.cancelWork (m : Mod) (slot : Nat) (c : Ctx) : Mod :=
  if c.state ≠ .active ∨ c.pastPonr ∨ c.work = .none then m
  else
    let m1 := m.setCtx slot (fun c => { c with state := .cancelling })
    match c.work with
    | .rehome =>
      let tags := (m.fm.vops.filter (fun v => v.2.ctx = slot && v.2.op = 0x1C)).map (fun v => v.1)
      m1.setFm (fun e => { e with rehomes := e.rehomes.map (fun h =>
        if h.requester = m.fab.deviceId ∧ tags.contains h.token then { h with cancelled := true } else h) })
    | _ => m1

/-- Cancel a movement: a load ends with ABORTED, a run stops now with REASON 0x07 (R249). -/
def Mod.cancelMovement (m : Mod) (slot : Nat) : Mod :=
  match Tbl.find m.mvs slot with
  | none => m
  | some v =>
    match v.state with
    | .loading => m.loadFail slot .aborted 0 0
    | .running => m.askStop slot 2 7
    | _ => m

/-- CONTEXT_CANCEL. -/
def cmdContextCancel : Cmd := fun r m =>
  match m.ownedCtx r with
  | none => badArg m 0
  | some (n, c) =>
    (match c.obj with | .movement v => m.cancelMovement v | _ => m.cancelWork n c, { status := .ok, context := r.arg 0 4 })

/-! ### Extents that leave their region (R98, R193, R195) -/

/-- A held read of a pane whose extent has left its region: poison to a host, NACK to a module (R93, R343). -/
def Mod.lostRead (m : Mod) (h : HeldRead) : Mod :=
  match h.src with
  | .host l tag => m.hostData l tag h.region (h.pane * 1024 + h.offset / 64) none
  | .remote flow dev tag _ => m.nack flow dev tag 4
  | _ => m

/-- Steps 1 to 3 of the wipe: free every record and name of the panes at an ordinal, across all versions; the accesses that wait there
fall in a gap (R93, R195). -/
def Mod.wipeOrdinal (m : Mod) (id o : Nat) : Mod :=
  let here := fun (r pane : Nat) => r = id && pane / 4096 = o
  let cut := fun (t : Tbl Nat) => t.filter (fun p => p.1 / 4096 != o)
  let reads := m.mem.heldReads.filter (fun h => here h.region h.pane)
  let writes := m.mem.heldWrites.filter (fun w => here w.region w.pane)
  let m1 := m.setMem (fun e => { e with
    heldReads := e.heldReads.filter (fun h => !here h.region h.pane), heldWrites := e.heldWrites.filter (fun w => !here w.region w.pane),
    cows := e.cows.filter (fun c => !here c.region c.pane), recs := e.recs.filter (fun x => !here x.2.region x.2.pane) })
  let m2 := m1.setRegion id (fun g => { g with ordinals := Tbl.del g.ordinals o, vers := Tbl.mapV g.vers (fun _ v => { v with map := cut v.map }) })
  let m3 := { m2 with ctxs := Tbl.mapV m2.ctxs (fun _ c => match c.obj with
    | .working r b map => if r = id then { c with obj := .working r b (cut map) } else c
    | _ => c) }
  let m4 := m3.setFm (fun e => { e with regions := Tbl.mapV e.regions (fun _ f =>
    if !f.accessor ∧ f.localRegion = id then { f with parts := Tbl.mapV f.parts (fun _ p => cut p) } else f) })
  (m4.each writes (fun m w => m.writeDone w)).each reads (fun m h => m.lostRead h)

/-- An extent with no holding, no region, and not kept, enters the cullet pool (R193). -/
def Mod.toCullet (m : Mod) (e : Nat) : Mod :=
  m.setExtent e (fun x => if x.heldLds = [] ∧ x.region = none ∧ x.kept = none then { x with inCullet := true } else x)

/-- Detach an extent from its region (R98): its panes are wiped by steps 1 to 4 of R195, its key is gone (R429), and it is kept no
longer. -/
def Mod.detach (m : Mod) (e : Nat) : Mod :=
  match Tbl.find m.mem.extents e with
  | none => m
  | some x =>
    match x.region with
    | none => m
    | some (id, o) =>
      let m1 := (m.wipeOrdinal id o).setExtent e (fun x => { x with region := none, kept := none })
      let m2 := { m1 with t2 := { m1.t2 with keys := m1.t2.keys.filter (fun k => k != x.serial), destroyed := m1.t2.destroyed ++ [x.serial] } }
      (m2.toCullet e).spaceFreed

/-- A window onto the region `r`, as a movement's binding or a stream has it, holds the panes of a local region at an ordinal. It is the
whole region: of a fabric region, the units that the stripe map homes here (R198, R242, R329). -/
def Mod.covers (m : Mod) (id o r : Nat) : Bool :=
  m.reaches id r && (r = id || (Tbl.find m.fm.regions (r - 0x8000)).elim false (fun f =>
    let s := 2 ^ f.log2Stripe
    f.stripe.any (fun e => e.2.home = m.fab.deviceId && decide (e.2.localUnit * s / 4096 ≤ o) && decide (o * 4096 < (e.2.localUnit + 1) * s))))

/-- The movements whose windows include the panes at an ordinal are stopped with ABORTED (R192). -/
def Mod.haltOn (m : Mod) (id o : Nat) : Mod := m.each (m.mvs.filter (fun v => v.2.bindings.any (fun b => m.covers id o b.2))) (fun m v => m.haltRun v.1 9)

/-- A stream is open on a window that passes the test, or a loaded movement binds one. A stream that is STOPPED or ENDED and not yet closed
does not count: R98 and R99 speak of an open stream and say no more of it (DESIGN CHOICE). -/
def Mod.openOn (m : Mod) (on : Nat → Bool) : Bool :=
  m.mvs.any (fun v => v.2.state != MvState.loading && v.2.bindings.any (fun b => on b.2)) ||
    m.streams.any (fun t => on t.2.region && (t.2.state == StreamState.open || t.2.state == StreamState.stopping))

/-- A stream is open on a region, or a loaded movement binds it, also through a fabric region of which it is the local part (R98, R99). -/
def Mod.inUse (m : Mod) (id : Nat) : Bool := m.openOn (m.reaches id)

/-- Some retained sealed version of the region names a record at the ordinal (R98). -/
def Mod.sealedAt (m : Mod) (id : Nat) (g : Region) (o : Nat) : Bool :=
  g.versioning && (m.retainedOf id g).any (fun v => v.2.map.any (fun p => p.1 / 4096 = o))

/-- The first of the listed extents that the region does not hold. -/
def Mod.notIn (m : Mod) (id : Nat) (es : List Nat) : Option Nat :=
  (List.range es.length).find? (fun i =>
    ((Tbl.find m.mem.extents (es.getD i 0)).bind (fun x => x.region)).map (fun p => p.1) != some id || (es.take i).contains (es.getD i 0))

/-- The releases of an extent would be BUSY (R98). -/
def Mod.releaseBusy (m : Mod) (id : Nat) (g : Region) (e : Nat) : Bool :=
  ((Tbl.find m.mem.extents e).bind (fun x => x.region)).elim false (fun p => m.openOn (m.covers id p.2) || m.sealedAt id g p.2)

/-- REGION_RELEASE_EXTENTS. -/
def cmdRegionReleaseExtents : Cmd := fun r m =>
  let id := r.arg 0 2
  match m.ownRegion r id 0 with
  | .inr rep => (m, rep)
  | .inl g =>
    if r.arg 2 2 = 0 ∨ 58 < r.arg 2 2 then badArg m 2
    else if r.arg 4 4 ≠ 0 then badArg m 4
    else
      match m.notIn id r.extents with
      | some i => badArg m (8 + 4 * i)
      | none => if r.extents.any (m.releaseBusy id g) then fail m .busy else done (m.each r.extents Mod.detach)

/-! ### REGION_DESTROY (R99, R175) -/

/-- The contexts that hold a version of a region open. -/
def Mod.ctxsOn (m : Mod) (id : Nat) : List Nat :=
  (m.ctxs.filter (fun c => c.2.state != CtxState.free && (match c.2.obj with | .view g _ => g = id | .working g _ _ => g = id | _ => false))).map (fun c => c.1)

/-- A context holds a version of a region open, also through a fabric region of which it is the local part. -/
def Mod.ctxsReach (m : Mod) (id : Nat) : Bool :=
  m.ctxs.any (fun c => c.2.state != CtxState.free && (match c.2.obj with | .view g _ => m.reaches id g | .working g _ _ => m.reaches id g | _ => false))

/-- Destroy a region: an active REBUILD_TABLE or TABLE_SWEEP ends with ABORTED (R175), a CHECKPOINT that has sealed ends with its own status, what is still open on it closes, every extent is
released, its table slots go back, and its number is free. -/
def Mod.destroyRegion (m : Mod) (id : Nat) : Mod :=
  match Tbl.find m.mem.regions id with
  | none => m
  | some g =>
    let works := m.ctxs.filter (fun c => (c.2.state == CtxState.active || c.2.state == CtxState.cancelling) &&
      (match c.2.work with | .rebuild r _ _ _ _ _ => r = id | .sweep r _ _ _ _ _ => r = id | .checkpoint r _ _ => r = id | _ => false))
    let m1 := m.each works (fun m c => match c.2.work with | .checkpoint _ _ _ => m.endWork c.1 | _ => m.abortWork c.1)
    let m2 := m1.each (m1.mvs.filter (fun v => v.2.bindings.any (fun b => b.2 = id))) (fun m v => m.dropMovement v.1 9)
    let m3 := m2.each (m2.streams.filter (fun t => t.2.region = id)) (fun m t => m.closeStream t.1)
    let m4 := (m3.each (m3.ctxsOn id) (fun m n => m.closeObject n 9)).each (g.ordinals.map (fun o => o.2)) Mod.detach
    let m5 := m4.setMem (fun e => { e with regions := Tbl.del e.regions id, tableWaiters := e.tableWaiters.filter (fun x => x != id) })
    let m6 := m5.setFm (fun e => { e with grants := e.grants.filter (fun x => x.1 != id) })
    let m7 := { m6 with t2 := { m6.t2 with tableJournal := m6.t2.tableJournal.filter (fun t => t.1 != id) } }
    (m7.each (((Tbl.find m4.mem.regions id).getD g).tables.gens) (fun m t => m.returnSlot t.2.slot)).spaceFreed

/-- REGION_DESTROY. -/
def cmdRegionDestroy : Cmd := fun r m =>
  let id := r.arg 0 2
  match m.ownRegion r id 0 with
  | .inr rep => (m, rep)
  | .inl _ =>
    if m.ctxsReach id || m.workings id != [] || m.inUse id then fail m .busy else done (m.destroyRegion id)

/-! ### The end of a holding (R192) -/

/-- The open contexts, of any LD, whose window holds an extent. -/
def Mod.windowsOver (m : Mod) (e : Nat) : List Nat :=
  (m.ctxs.filter (fun c => c.2.state != .free && c.2.window.elim false (fun w => decide (w.extent ≤ e) && decide (e < w.extent + w.count)))).map (fun c => c.1)

/-- Forced removal of an extent from an LD. -/
def Mod.forceRemoval (m : Mod) (l e : Nat) : Mod :=
  let m1 := m.each (m.windowsOver e) (fun m n => m.closeHeld n 9)
  let m2 := m1.setExtent e (fun x => { x with heldLds := x.heldLds.filter (fun y => y != l) })
  match Tbl.find m2.mem.extents e with
  | none => m2
  | some x =>
    if x.heldLds ≠ [] then m2
    else
      match x.region with
      | some (id, o) => (m2.haltOn id o).detach e
      | none => m2.toCullet e

/-- The extents that an LD holds. -/
def Mod.heldBy (m : Mod) (l : Nat) : List Nat := (m.mem.extents.filter (fun e => e.2.heldLds.contains l)).map (fun e => e.1)

/-- EXTENT_CLEAN: the wipe of an extent of the cullet pool ends, and its map store reservation is released unless an LD has it (R195,
R196). -/
def execExtentClean (extent : Nat) (s : State) : Out :=
  s.act (fun m => match Tbl.find m.mem.extents extent with
    | none => m
    | some x =>
      if !x.inCullet then m
      else if x.heldLds = [] ∧ x.pendingLds = [] then (m.setMem (fun e => { e with extents := Tbl.del e.extents extent })).spaceFreed
      else m.setExtent extent (fun x => { x with inCullet := false }))

/-! ### PARTITION_DESTROY (R187, R531) -/

/-- The context slots of a partition that are in use. -/
def Mod.ctxsOf (m : Mod) (part : Nat) : List Nat := (m.ctxs.filter (fun c => c.2.partition = part && c.2.state != CtxState.free)).map (fun c => c.1)

/-- Close every context of a partition: first what binds versions, then the versions. -/
def Mod.closeContexts (m : Mod) (part reason : Nat) : Mod :=
  let obj := fun (m : Mod) (n : Nat) => (Tbl.find m.ctxs n).elim Obj.none (fun c => c.obj)
  let binds := fun (o : Obj) => match o with | .movement _ => true | .stream _ => true | _ => false
  let m1 := m.each ((m.ctxsOf part).filter (fun n => binds (obj m n))) (fun m n => m.closeObject n reason)
  let m2 := m1.each (m1.ctxsOf part) (fun m n => if obj m n = .none then m.endWork n else m.closeHeld n reason)
  m2.each (m2.ctxsOf part) Mod.freeCtx

/-- Release an extent that a partition keeps. -/
def Mod.unkeep (m : Mod) (e : Nat) : Mod := (m.setExtent e (fun x => { x with kept := none })).toCullet e

/-- PARTITION_DESTROY. -/
def cmdPartitionDestroy : Cmd := noArgs fun r m =>
  let p := r.partD
  let m1 := (m.setPart p (fun x => { x with state := .destroying })).closeContexts p 0x0A
  let m2 := m1.each ((m1.fm.regions.filter (fun f => f.2.partition = p)).map (fun f => f.1)) Mod.dropFreg
  let m3 := m2.each ((m2.mem.regions.filter (fun g => g.2.owner = p)).map (fun g => g.1)) Mod.destroyRegion
  let m4 := m3.each (m3.ldsOf p) (fun m l => m.each (m.heldBy l) (fun m e => m.forceRemoval l e))
  let m5 := m4.each ((m4.mem.extents.filter (fun e => e.2.kept = some p)).map (fun e => e.1)) Mod.unkeep
  let m6 := m5.setMem (fun e => { e with
    lds := e.lds.filter (fun b => b.2.partition != p), parts := Tbl.del e.parts p,
    regions := Tbl.mapV e.regions (fun _ g => { g with sharers := g.sharers.filter (fun x => x != p) }) })
  done (m6.setSvc (fun v => { v with ctr := { v.ctr with tbl := v.ctr.tbl.filter (fun c => !(decide (c.1 < 4096) && c.1 / 64 = p)) } }))

/-! ### Lease clean-up (R219, R340) -/

/-- Step 4 for one working version: an orphan of an ORPHAN_KEEP region, or discarded; a discard that R207 forces is logged. -/
def Mod.orphan (m : Mod) (slot id : Nat) : Mod :=
  if 0x8000 ≤ id then
    match (m.bindRegion id).elim false (fun g => g.orphanKeep), Tbl.find m.fm.regions (id - 0x8000) with
    | true, some f => (m.tellVop f.registrar (id - 0x8000) 5 0xFFFFFFFE (m.idOf slot) m.fab.deviceId 0 0xFFFFFFFE).closeHeld slot 8
    | _, _ => m.closeHeld slot 8
  else
    match Tbl.find m.mem.regions id with
    | none => m.closeHeld slot 8
    | some g =>
      if g.orphanKeep then
        (match m.sealWorking slot false true false with
          | (some _, m1) => m1.retryWrites.closeHeld slot 8
          | (none, _) => (m.logErr { unit := 0x8000 + id % 4, code := 0x0806, sev := .contained, opn := .background, partition := g.owner, region := id,
                                     context := m.idOf slot }).closeHeld slot 8)
      else m.closeHeld slot 8

/-- Step 5 for one extent: the holding ends; an extent left with none is kept, or leaves its region and enters the pool. -/
def Mod.leaseRelease (m : Mod) (l e : Nat) : Mod :=
  let m1 := m.setExtent e (fun x => { x with heldLds := x.heldLds.filter (fun y => y != l) })
  match Tbl.find m1.mem.extents e with
  | none => m1
  | some x =>
    if x.heldLds ≠ [] then m1
    else
      match x.region with
      | none => m1.toCullet e
      | some (id, o) =>
        match Tbl.find m1.mem.regions id with
        | none => m1.toCullet e
        | some g =>
          if g.durable ∨ g.orphanKeep ∨ m1.ctxsReach id ∨ m1.inUse id then m1.setExtent e (fun x => { x with kept := some g.owner })
          else (m1.haltOn id o).detach e

/-- The contexts that an LD holds, with what each holds open (R217). -/
def Mod.heldCtxs (m : Mod) (l : Nat) : List (Nat × Obj) :=
  (m.ctxs.filter (fun c => c.2.holder = some l && c.2.state != CtxState.free)).map (fun c => (c.1, c.2.obj))

/-- The work of a context whose holder goes: before its point of no return it completes with ABORTED, and past it runs to its end (R219, R221);
a capture, whose buffer goes with the holder, ends. -/
def Mod.cutWork (m : Mod) (slot : Nat) : Mod :=
  match Tbl.find m.ctxs slot with
  | none => m
  | some c => match c.work with
    | .dumpTensor _ => m.endWork slot
    | _ => if c.pastPonr then m else m.endWork slot

/-- Steps 2 to 4 of R219 for the contexts of an LD: streams and movements, views, then working versions. -/
def Mod.closeHolder (m : Mod) (mine : List (Nat × Obj)) : Mod :=
  let m2 := m.each mine (fun m c => match c.2 with | .stream _ => m.closeObject c.1 8 | .movement _ => m.closeObject c.1 8 | .none => m.cutWork c.1 | _ => m)
  let m3 := m2.each mine (fun m c => match c.2 with | .view _ _ => m.closeHeld c.1 8 | _ => m)
  m3.each mine (fun m c => match c.2 with | .working id _ _ => m.orphan c.1 id | _ => m)

/-- The clean-up of an LD whose grace has ended. -/
def Mod.leaseCleaned (m : Mod) (l : Nat) (b : LdBind) : Mod :=
  let m0 := m.setMem (fun e => { e with lds := Tbl.upd e.lds l (fun b => { b with lease := .cleanup }) })
  let m1 := m0.closeWhere (fun o => o.ldNo = some l)
  let mine := m1.heldCtxs l
  let m4 := m1.closeHolder mine
  let held := m4.heldBy l
  let regions := (m4.mem.regions.filter (fun g => g.2.owner = b.partition && g.2.ordinals != [])).map (fun g => g.1)
  let m5 := m4.each held (fun m e => m.leaseRelease l e)
  let m6 := m5.each (regions.filter (fun id => (Tbl.find m5.mem.regions id).elim false (fun g => g.ordinals = []))) Mod.destroyRegion
  let m7 := m6.setMem (fun e => { e with lds := Tbl.upd e.lds l (fun b => { b with lease := .idle, cleanupLogged := false, since := m.localTime }) })
  m7.raise 0x0201 b.partition
    (l / 16 + l % 16 * 2 ^ 8 + (min 0xFFFF (mine.filter (fun c => c.2 != Obj.none)).length) * 2 ^ 16 + held.length * 2 ^ 32) 0 0

/-- The clean-up of an LD, from the end of GRACE to LEASE_EXPIRED. -/
def Mod.leaseCleanup (m : Mod) (l : Nat) : Mod :=
  match Tbl.find m.mem.lds l with
  | none => m
  | some b =>
    if b.lease ≠ .grace ∧ b.lease ≠ .cleanup then m
    else
      m.leaseCleaned l b

/-- LEASE_CLEANUP: a further PERIOD has passed in GRACE (R217, R219). -/
def execLeaseCleanup (ld : LdId) (s : State) : Out := s.act (fun m => m.leaseCleanup ld.toNat)

/-! ### The rows -/

/-- CONTEXT_CANCEL (R87). -/
def execContextCancel (ch : ChanNo) (s : State) : Out := s.mailbox ch 0x0106 anyForm cmdContextCancel
/-- PARTITION_DESTROY (R187). -/
def execPartitionDestroy (ch : ChanNo) (s : State) : Out := s.mailbox ch 0x0203 anyForm cmdPartitionDestroy
/-- REGION_DESTROY (R99). -/
def execRegionDestroy (ch : ChanNo) (s : State) : Out := s.mailbox ch 0x0301 anyForm cmdRegionDestroy
/-- REGION_RELEASE_EXTENTS (R98). -/
def execRegionReleaseExtents (ch : ChanNo) (s : State) : Out := s.mailbox ch 0x0305 anyForm cmdRegionReleaseExtents

end Sys2Proof.Machine
end

