-- ==== Sys2Proof/Machine/FabLinks.lean ====
section
/-! DEFINITION. The fabric ports: bring-up, flits, retry, keys, loss of a port, routing of packets that pass through, discovery, device
IDs, routing tables and the fabric time counter (spec/09_fabric_links_routing.md R293 to R326, spec/17_counters_trace_dumps.md R533). -/
namespace Sys2Proof.Machine

/-! ### Flits that this module sends (R299, R300, R301) -/

/-- The name of a LINK_CTL flit by its CTL byte (R299). -/
def ctlName (payload : List Byte) : String :=
  match leNat (payload.take 1) with | 1 => "TIMESTAMP" | 2 => "HELLO" | 3 => "GOODBYE" | _ => "KEY"

/-- Send a LINK_CTL flit; while 1,024 sequenced flits are unacknowledged, or others wait, it waits (R301). -/
def Mod.sendCtl (m : Mod) (i : Nat) (payload : List Byte) : Mod :=
  if (m.fport i).replay.length < 1024 ∧ (m.fport i).ctl = [] then m.sendFlit i (ctlName payload) 3 31 0 payload
  else m.setFport i (fun f => { f with ctl := f.ctl ++ [payload] })

/-- Send the LINK_CTL flits that wait, as far as they may go. -/
def Mod.flushCtl (m : Mod) (i : Nat) : Mod :=
  let n := 1024 - (m.fport i).replay.length
  (m.setFport i (fun f => { f with ctl := f.ctl.drop n })).each ((m.fport i).ctl.take n) (fun m p => m.sendFlit i (ctlName p) 3 31 0 p)

/-- The receive buffers that a HELLO advertises, in 64 B credits (R303). -/
def helloCredits : List Nat := [2048, 256, 3072, 256, 4096, 256, 256, 256]

/-- Send a HELLO; `serial` is the fused serial number (R299). -/
def Mod.sendHello (m : Mod) (serial i : Nat) : Mod :=
  let f := m.fport i
  m.sendCtl i (leBytes 1 2 ++ leBytes 1 i ++ leBytes 2 m.fab.deviceId ++ leBytes 4 (1 + 2 * b2n f.encryptRequired + 4 * b2n (f.speedCap = 0)) ++
    leBytes 8 serial ++ helloCredits.flatMap (leBytes 2) ++ leBytes 2 1024)

/-- Ask for the time of a link: a TIMESTAMP whose byte 1 is 0; the answer has 1 there (DESIGN CHOICE: log 41). -/
def Mod.sendTimestamp (m : Mod) (i : Nat) : Mod :=
  (m.setFport i (fun f => { f with timestampSent := some m.localTime })).sendCtl i (leBytes 1 1 ++ leBytes 1 0)

/-- Send one unsequenced flit with the acknowledgement and the credits of one channel. -/
def Mod.sendIdle (m : Mod) (i v : Nat) : Mod :=
  let f := m.fport i
  let n := min 4095 (f.owed.getD v 0)
  (m.setFport i (fun f => { f with owed := f.owed.modify v (· - n), rxOld := none })).send (.flit i "IDLE" (f.flit 1 f.lastSeq v n 31 []))

/-- Acknowledge, and return every credit that is owed (R301). -/
def Mod.acknowledge (m : Mod) (i : Nat) : Mod :=
  let vs := (List.range 8).filter (fun v => (m.fport i).owed.getD v 0 != 0)
  (m.each (if vs = [] then [0] else vs) (fun m v => m.sendIdle i v)).setFport i (fun f => { f with sinceAck := 0 })

/-- The port can take flits. -/
def FabPort.linked (f : FabPort) : Bool := f.carries || f.state = .hello || f.state = .keying

/-! ### Loss of a port (R317, R322) -/

/-- A packet that cannot be routed: a request is answered with UNREACHABLE when its SRC can be reached, another packet is dropped and
counted; NO_ROUTE is logged once per ingress port per second (R317). -/
def Mod.unrouted (m : Mod) (i : Nat) (p : Packet) : Mod :=
  let m1 := if p.cls = 0 then
      (match m.place (m.unreachableFor p) with
        | (m1, true) => m1
        | (_, false) => m.fabCount 1)
    else m.fabCount 1
  if Tbl.find m.fab.noRouteSecond i = some m.second then m1
  else (m1.setFab (fun f => { f with noRouteSecond := Tbl.put f.noRouteSecond i m.second })).logErr { unit := 0x5000 + i, code := 0x0506, sev := .info }

/-- Route a packet that came through port `i`. -/
def Mod.route (m : Mod) (i : Nat) (p : Packet) : Mod :=
  match m.place p with
  | (m1, true) => m1
  | (_, false) => m.unrouted i p

/-- The port may train by itself: enabled, present, with cable power, at P2 or above. -/
def Mod.canTrain (m : Mod) (i : Nat) : Bool :=
  (m.fport i).enabled && m.pow.fPrsnt.getD i false && !m.pow.cableFault.getD (i / 4) false && decide (m.pow.rung ≤ 2)

/-- Bring a port's link to a state with nothing in its buffers. -/
def FabPort.cleared (f : FabPort) (st : FabState) : FabPort :=
  { FabPort.init with state := st, enabled := f.enabled, encryptRequired := f.encryptRequired, speedCap := f.speedCap, retries := f.retries,
                      losses := f.losses, lost := f.lost, delayPs := f.delayPs, dropSecond := f.dropSecond, goodbye := f.goodbye,
                      miswired := f.miswired, corrected := f.corrected, uncorrectable := f.uncorrectable,
                      arrived := f.arrived.filter (fun p => p.q.free) }

/-- The UP ports of a routing entry, in slot order; none where it is invalid (R314, R317). -/
def Mod.upPorts (m : Mod) (e : Nat) : List Nat :=
  if bit e 31 then ((List.range (bits e 28 2 + 1)).map (fun s => bits e (4 * s) 4)).filter (fun p => (m.fport p).state == FabState.up) else []

/-- A change that may take the last UP port of destinations: FAB_UNREACHABLE for each that had one and has none (R317). The event names the
first UP port that the destination had, which is the port that is lost. -/
def Mod.withReach (m : Mod) (f : Mod → Mod) : Mod :=
  let m1 := f m
  let gone := m.fab.routes.filterMap (fun e => match m.upPorts e.2 with
    | p :: _ => if m1.upPorts (Tbl.findD m1.fab.routes e.1 0) = [] then some (e.1, p) else none
    | [] => none)
  m1.each gone (fun m d => m.raise 0x0D03 64 (d.2 + d.1 * 2 ^ 16) 0 0)

/-- Empty a port and leave it in a state: its replay and receive buffers are discarded and counted, and the packets queued for it choose
again (R322 steps 1 and 2). Packets that hold no receive buffer of the link stay. -/
def Mod.emptyPort (m : Mod) (i : Nat) (st : FabState) : Mod :=
  let f := m.fport i
  let lost := sumOf (f.replay.map (fun r => r.ends)) + (f.arrived.filter (fun p => !p.q.free)).length + b2n (f.partials != [])
  let m1 := (m.setFport i (fun f => { f.cleared st with lost := f.lost + lost })).count 0x0051 (0x5000 + i) 0xFFFF none lost
  m1.each f.egress (fun m p => if p.isLocal then m else m.route i { p with esc := p.esc && !p.q.crossing, q := { p.q with crossing := false } })

/-- What the loss of a port that had a link does. -/
def Mod.portLost (m : Mod) (i cause : Nat) (f : FabPort) : Mod :=
  let recent := (f.losses ++ [m.localTime]).filter (fun t => decide (m.localTime < t + 10000000000))
  let m1 := m.withReach (fun m =>
    ((((m.setFport i (fun f => { f with losses := recent })).emptyPort i .down).setFport i (fun f => { f with cause := cause })).raise
      0x0D01 64 (i + cause * 256) 0 0))
  m1.setFport i (fun f => { f with state := if 3 ≤ recent.length then .failed else if m1.canTrain i then .training else .down })

/-- The module loses a port (R322): 0 alignment, 1 retrain, 2 authentication, 3 GOODBYE, 4 presence, 5 cable power. It trains again by
itself, or enters FAILED after three losses within 10 s. A port that has no link only stops training. -/
def Mod.losePort (m : Mod) (i cause : Nat) : Mod :=
  let f := m.fport i
  if f.linked ∨ f.retrain.isSome then
    m.portLost i cause f
  else if f.state = .training then m.setFport i (fun f => f.cleared .down)
  else m

/-- LINK_AUTH_FAIL. -/
def Mod.logAuth (m : Mod) (i : Nat) : Mod := m.logErr { unit := 0x5000 + i, code := 0x0503, sev := .unit, opn := .training }

/-- Retrain the electrical layer and the FEC with the buffers kept, to go on in a state (R302). -/
def Mod.retrainPort (m : Mod) (i : Nat) (next : FabState) : Mod :=
  m.withReach (fun m => m.setFport i (fun f => { f with state := .training, retrain := some next, gotRetry := (0, 0), sentRetry := 0 }))

/-! ### Bring-up (R298, R299, R309, R312, R313) -/

/-- The ports that carry packets, as a mask. -/
def Mod.upMask (m : Mod) : Nat := packBits ((List.range 16).map (fun i => (m.fport i).carries))

/-- FAB_DISCOVER commands whose ports are all up complete (R312). -/
def Mod.discoverCheck (m : Mod) : Mod :=
  m.each m.ctxs (fun m c => match c.2.work with
    | .discover mask _ =>
      if c.2.state = .active ∧ (onesOf mask 16).all (fun i => (m.fport i).carries) then m.finish c.1 .ok 0 mask else m
    | _ => m)

/-- The port enters UP or LIMITED (R298 step 4). -/
def Mod.portUp (m : Mod) (i : Nat) (st : FabState) : Mod :=
  let m1 := (m.setFport i (fun f => { f with state := st })).raise 0x0D02 64 (i + (if st = .up then 5 else 6) * 256) 0 0
  (m1.pump i ((m1.fport i).egress.length + 1)).discoverCheck

/-- The end of bring-up: LIMITED where the neighbour carries this module's own device ID, with DUPLICATE_ID (R313), and otherwise UP, or
LIMITED for a port that could not be secured (R309). -/
def Mod.endBringUp (m : Mod) (i : Nat) (st : FabState) : Mod :=
  let dup := m.fab.deviceId ≠ 0xFFFF ∧ (m.fport i).peerId = m.fab.deviceId
  let m1 := m.setFport i (fun f => { f with duplicateId := dup })
  if dup then (m1.logErr { unit := 0x5000 + i, code := 0x0505, sev := .unit, opn := .training }).portUp i .limited else m1.portUp i st

/-- Enter UP in clear, or encrypted with the keys of both directions taken from the session secrets (R309). -/
def Mod.enterUp (m : Mod) (i : Nat) (session : Option Nat) : Mod :=
  (m.setFport i (fun f => { f with
    encrypted := session.isSome, rxOld := none,
    txKey := session.elim .none (fun s => LinkKey.of s 0 0 f.seqNext), rxKey := session.elim .none (fun s => LinkKey.of s 1 0 f.expected) })).endBringUp i .up

/-- Step 3: the key exchange when either end requires encryption (R308, R309). -/
def Mod.secure (m : Mod) (i : Nat) (required capable : Bool) : Mod :=
  if !(required || (m.fport i).encryptRequired) then m.enterUp i none
  else if !capable then (m.logAuth i).endBringUp i .limited
  else
    ({ m with freeIx := m.freeIx + 1 }.setFport i (fun f => { f with state := .keying })).sendCtl i (leBytes 1 4 ++ (Config.freeBytes m.freeIx).take 231)

/-- What a port notes of a HELLO (R299). The channels of a peer whose identity has changed, or that has withdrawn its ID, are closed (R56). -/
def Mod.notePeer (m : Mod) (i id port serial : Nat) (encrypt : Bool) : Mod :=
  let old := (m.fport i).peerId
  let m1 := m.setFport i (fun f => { f with peerId := id, peerPort := port, peerSerial := serial, peerEncrypt := encrypt, goodbye := false })
  if old = id then m1
  else m1.closeWhere (fun o => match o with
    | .neighbour p => p.toNat = i
    | .peer d _ => old ≠ 0xFFFF ∧ d.toNat = old
    | _ => false)

/-- A HELLO has arrived (R299, R313). -/
def Mod.onHello (m : Mod) (serial i : Nat) (p : List Byte) : Mod :=
  let num := fun (o n : Nat) => leNat ((p.drop o).take n)
  let f := m.fport i
  let note := fun (m : Mod) => m.notePeer i (num 2 2) (num 1 1) (num 8 8) (bit (num 4 4) 0)
  let begin := fun (m : Mod) =>
    ((note m).setFport i (fun f => { f with credits := (List.range 8).map (fun v => num (0x10 + 2 * v) 2) })).secure i (bit (num 4 4) 1) (bit (num 4 4) 0)
  if num 0 1 ≠ 2 ∨ 15 < num 1 1 then m
  else if f.state = .hello then begin m
  else if f.state = .keying then note m
  else if f.carries then
    if f.peerSerial ≠ num 8 8 ∨ f.peerPort ≠ num 1 1 then
      let c := m.choose 6
      let m1 := c.2.losePort i c.1
      if (m1.fport i).state = .training then begin (((m1.setFport i (fun x => { x with state := .hello, mode := f.mode, lanes := f.lanes })).sendHello serial i).sendTimestamp i)
      else m1
    else
      let dup := m.fab.deviceId ≠ 0xFFFF ∧ num 2 2 = m.fab.deviceId
      let m1 := (note m).setFport i (fun f => { f with duplicateId := dup })
      if dup ∧ !f.duplicateId then
        (m1.logErr { unit := 0x5000 + i, code := 0x0505, sev := .unit, opn := .training }).withReach (fun m => m.portUp i .limited)
      else if !dup ∧ f.duplicateId then m1.portUp i .up
      else m1
  else m

/-- A KEY flit has arrived (R309). -/
def Mod.onKey (m : Mod) (i : Nat) (p : List Byte) : Mod :=
  if (m.fport i).state ≠ .keying then m
  else
    let a := Config.keyExchange m.freeIx p
    let m1 := { m with freeIx := m.freeIx + 1 }
    match a.1 with
    | none => m1.sendCtl i (leBytes 1 4 ++ a.2.take 231)
    | some true => m1.enterUp i (some m.freeIx)
    | some false => (m1.logAuth i).endBringUp i .limited

/-- A TIMESTAMP has arrived: an answer gives the one-way delay, half the round trip; a question is answered (R320). -/
def Mod.onTimestamp (m : Mod) (i : Nat) (p : List Byte) : Mod :=
  match leNat ((p.drop 1).take 1), (m.fport i).timestampSent with
  | 0, _ => m.sendCtl i (leBytes 1 1 ++ leBytes 1 1)
  | _, some t => m.setFport i (fun f => { f with timestampSent := none, delayPs := (m.localTime - t) * 1000 / 2 % 2 ^ 32 })
  | _, none => m

/-- A GOODBYE has arrived (R322). The packets received before it are processed (R326). -/
def Mod.onGoodbye (m : Mod) (i : Nat) : Mod :=
  (m.setFport i (fun f => { f with goodbye := true, arrived := f.arrived.map (fun p => { p with q := { p.q with free := true } }) })).losePort i 3

/-- A sequenced LINK_CTL flit is accepted. -/
def Mod.onCtl (m : Mod) (serial i : Nat) (p : List Byte) : Mod :=
  match leNat (p.take 1) with
  | 1 => m.onTimestamp i p
  | 2 => m.onHello serial i p
  | 3 => m.onGoodbye i
  | 4 => m.onKey i p
  | _ => m

/-- The port takes the next sequenced flit. -/
def Mod.nextSeq (m : Mod) (i : Nat) : Mod :=
  let m1 := m.setFport i (fun f => { f with expected := (f.expected + 1) % 4096, retryPending := false, sentRetry := 0, sinceAck := f.sinceAck + 1 })
  if 64 ≤ (m1.fport i).sinceAck then m1.acknowledge i else m1

/-- A LINK_CTL row: the flit has arrived in order on a port that takes flits. -/
def Mod.ctlRow (m : Mod) (i : Nat) (f : Mod → Mod) : Mod := if (m.fport i).linked then f (m.nextSeq i) else m

/-! ### Packets that arrive (R306, R311, R75) -/

/-- The identity of the sender of a CHN_MSG (R49, R311). -/
def Mod.senderOf (m : Mod) (i : Nat) (p : Packet) : Owner :=
  if p.isLocal then
    (if (m.fport i).peerId = 0xFFFF then .neighbour (BitVec.ofNat 4 i) else .peer (BitVec.ofNat 14 (m.fport i).peerId) (BitVec.ofNat 6 p.srcPart))
  else .peer (BitVec.ofNat 14 p.src) (BitVec.ofNat 6 p.srcPart)

/-- A packet that an unaddressed module drops: it is counted, with one record per port per second (R311). -/
def Mod.dropUnaddressed (m : Mod) (i : Nat) : Mod :=
  let m1 := m.fabCount 5
  if (m.fport i).dropSecond = some m.second then m1
  else (m1.setFport i (fun f => { f with dropSecond := some m.second })).logErr { unit := 0x5000 + i, code := 0x0504, sev := .info }

/-- The class of an opcode (R306, R332), none for one that is not defined. -/
def opClass (op : Nat) : Option Nat :=
  if op = 1 ∨ op = 2 ∨ op = 6 ∨ op = 0x18 then some 3
  else if op = 3 ∨ op = 4 ∨ op = 5 ∨ op = 0x14 ∨ op = 0x16 ∨ op = 0x17 ∨ op = 0x1A ∨ op = 0x1F then some 1
  else if op = 0x10 ∨ op = 0x11 ∨ op = 0x12 ∨ op = 0x19 then some 0
  else if op = 0x13 ∨ op = 0x15 ∨ (0x1B ≤ op ∧ op ≤ 0x1E) then some 2
  else none

/-- An operation that R334 defines. -/
def vopKnown (op : Nat) : Bool := decide (1 ≤ op ∧ op ≤ 8) || decide (0x10 ≤ op ∧ op ≤ 0x13) || decide (0x18 ≤ op ∧ op ≤ 0x1E)

/-- A packet for this module that its OPCODE, class and operation define (R306, R332, R334). -/
def Packet.defined (p : Packet) : Bool :=
  opClass p.op = some p.cls && (p.isLocal || (p.op != 2 && p.op != 6)) && (p.op != 0x19 || vopKnown p.vop)

/-- A packet has arrived whole on a port: what an unaddressed module or a LIMITED port does not take is dropped; a channel access message
has its effect (R75); the others wait. One for this module that is not defined is dropped and counted as malformed (DESIGN CHOICE: log 77). -/
def Mod.receive (m : Mod) (i : Nat) (p : Packet) : Mod :=
  let owe := fun (m : Mod) => m.setFport i (fun f => { f with owed := f.owed.modify p.vc (· + p.credits) })
  let mgmt := p.isLocal ∧ p.cls = 3
  let mine := p.isLocal ∨ p.dest = m.fab.deviceId
  if m.fab.deviceId = 0xFFFF ∧ ¬mgmt then (owe m).dropUnaddressed i
  else if (m.fport i).state = .limited ∧ ¬mgmt then owe m
  else if mine ∧ !p.defined then (owe m).fabCount 4
  else if p.op = 1 ∧ mine then
    let place := p.num 1 3
    (if p.num 0 1 < 2 then (owe m).chnMsg (m.senderOf i p) (p.num 0 1 = 1) (place % 4096) (place / 4096) (p.num 4 2) (p.payload.drop 6) else owe m)
  else m.setFport i (fun f => { f with arrived := f.arrived ++ [{ p with q := { issued := m.localTime } }] })

/-- The packets of a run of payload bytes, from its start: zeros that begin no packet end the run. The whole packets, a malformed one as
none, and what is left of a packet that goes on in the next flit (R301, R306). -/
def splitPackets : Nat → List Byte → List (Option Packet) × List Byte
  | 0, _ => ([], [])
  | n + 1, bs =>
    if bs.length < 16 then (if bs.all (fun b => b = 0) then ([], []) else ([], bs))
    else if (bs.take 16).all (fun b => b = 0) then ([], [])
    else
      let units := bits (leNat (bs.take 16)) 48 8
      if 139 < units then ([none], [])
      else if bs.length < 16 + 16 * units then ([], bs)
      else
        let r := splitPackets n (bs.drop (16 + 16 * units))
        (Packet.ofBytes (bs.take (16 + 16 * units)) :: r.1, r.2)

/-- The payload of a DATA flit, with FIRST_PKT. -/
def Mod.onPayload (m : Mod) (i first : Nat) (payload : List Byte) : Mod :=
  let held := Tbl.findD (m.fport i).partials 0 []
  let run := if held != [] then held ++ payload else if first ≤ 28 then payload.drop (8 * first) else []
  let r := splitPackets 160 run
  let m1 := m.setFport i (fun f => { f with partials := if r.2 = [] then [] else [(0, r.2)] })
  m1.each r.1 (fun m p => match p with
    | some p => (m.count 0x000B (0x5000 + i) (0x1000 + p.srcPart) (some p.srcPart) p.bytes.length).receive i p
    | none => m.fabCount 4)

/-! ### Flits that arrive (R300 to R302, R310) -/

/-- The CRC-32C of a flit over bytes 0 to 251. -/
def flitGood (flit : List Byte) : Bool := flit.length = 256 && leNat (flit.drop 252) = crc32c 0 (flit.take 252)

/-- The acknowledgement and the credits of a flit's header: what is acknowledged leaves the replay buffer. -/
def Mod.ackNoted (m : Mod) (i ack vc count : Nat) : Mod :=
  m.setFport i (fun f => { f with
    replay := if f.replay.any (fun r => r.seq = ack) then (f.replay.dropWhile (fun r => r.seq != ack)).drop 1 else f.replay
    ackLast := ack, credits := f.credits.modify vc (· + count), gotRetry := if f.replay.any (fun r => r.seq = ack) then (0, 0) else f.gotRetry })

/-- Send what waits on a port: LINK_CTL flits, and packets where it carries them. -/
def Mod.resume (m : Mod) (i : Nat) : Mod :=
  let m1 := m.flushCtl i
  if (m1.fport i).carries then m1.pump i ((m1.fport i).egress.length + 1) else m1

/-- Take the acknowledgement and the credits of a flit, and send what they let go. -/
def Mod.ackFlit (m : Mod) (i ack vc count : Nat) : Mod := (m.ackNoted i ack vc count).resume i

/-- Ask for the expected SEQ again; the eighth time without progress, retrain (R302). -/
def Mod.askAgain (m : Mod) (i : Nat) : Mod :=
  let f := m.fport i
  let m1 := (m.setFport i (fun f => { f with retryPending := true, sentRetry := f.sentRetry + 1 })).send (.flit i "RETRY_REQ" (f.flit 2 f.expected 0 0 31 []))
  if 8 ≤ f.sentRetry + 1 then m1.retrainPort i f.state else m1

/-- A flit whose CRC fails, which its codewords could not correct, is discarded, counted and asked for again (R296, R300, R302). That a
CRC failure shows an uncorrectable codeword is DEDUCED: log 77. -/
def Mod.badFlit (m : Mod) (i : Nat) : Mod := (m.setFport i (fun f => { f with uncorrectable := f.uncorrectable + 1 })).askAgain i

/-- The key under which a flit with an EPOCH bit was sealed, and the port's keys once it is taken: the present one, the previous one while it
is kept, or that of the next epoch (R309). -/
def FabPort.rxFor (f : FabPort) (epoch : Bool) : LinkKey × LinkKey × Option LinkKey :=
  if (f.rxKey.epoch % 2 = 1) = epoch then (f.rxKey, f.rxKey.step, f.rxOld)
  else
    match f.rxOld with
    | some o => (o, f.rxKey, some o.step)
    | none => let k := f.rxKey.next 1 f.expected; (k, k.step, some f.rxKey)

/-- The payload of the next sequenced flit with the port's receive keys after it; none where its tag fails, or on an encrypted port its ENC is
clear (R308, R310). -/
def FabPort.unseal (f : FabPort) (flit : List Byte) : Option (List Byte × LinkKey × Option LinkKey) :=
  let h := leNat (flit.take 8)
  if !f.encrypted then some ((flit.drop 8).take 232, f.rxKey, f.rxOld)
  else if !bit h 14 then none
  else
    let k := f.rxFor (bit h 35)
    (Config.gcmOpen k.1.key k.1.iv (flit.take 8) ((flit.drop 8).take 244)).map (fun v => (leBytes 232 v, k.2))

/-- A data flit that is in order and holds (R301): the next number is awaited and, where the port carries packets, its payload is taken in. -/
def Mod.flitTaken (m : Mod) (i : Nat) (f : FabPort) (packet : Nat) (payload : List Byte) : Mod :=
  let m1 := m.nextSeq i
  if f.carries then (m1.wakeNear 3 1).onPayload i packet payload else m1

/-- The n-th retry request in a row for one number is counted (R302). -/
def Mod.retryNoted (m : Mod) (i seq n : Nat) : Mod :=
  (m.setFport i (fun f => { f with retries := satInc (2 ^ 32 - 1) f.retries, gotRetry := (seq, n) })).count 0x0050 (0x5000 + i) 0xFFFF none 1

/-- Every kept flit from a number on is sent once more, byte for byte (R302, R308). -/
def Mod.replayFrom (m : Mod) (i seq : Nat) : Mod :=
  m.each ((m.fport i).replay.dropWhile (fun r => r.seq != seq)) (fun m r => m.send (.flit i "REPLAY" r.bytes))

/-- A sequenced flit. -/
def Mod.dataFlit (m : Mod) (serial i : Nat) (flit : List Byte) : Mod :=
  let f := m.fport i
  let h := leNat (flit.take 8)
  if !f.linked then m
  else if !flitGood flit then m.badFlit i
  else
    let m1 := m.ackFlit i (bits h 40 12) (bits h 32 3) (bits h 20 12)
    let seq := bits h 52 12
    let kind := bits h 36 4
    if kind ≠ 0 ∧ kind ≠ 3 then m1
    else if seq ≠ f.expected then
      (if (f.expected + 4096 - seq) % 4096 ≤ 2048 ∨ f.retryPending then m1 else m1.askAgain i)
    else
      match f.unseal flit with
      | none => (m1.logAuth i).losePort i 2
      | some (plain, rx, old) =>
        let m2 := m1.setFport i (fun g => { g with rxKey := rx, rxOld := old })
        if kind = 3 then (m2.nextSeq i).onCtl serial i plain else m2.flitTaken i f (bits h 15 5) plain

/-- RETRY_REQ at the sender: the replay buffer goes out again from that SEQ, byte for byte; the eighth for one SEQ without progress retrains
the port (R302). -/
def Mod.retryReq (m : Mod) (i : Nat) (flit : List Byte) : Mod :=
  let f := m.fport i
  let h := leNat (flit.take 8)
  if !f.linked then m
  else if !flitGood flit then m.badFlit i
  else
    let seq := bits h 40 12
    let m1 := m.ackNoted i ((seq + 4095) % 4096) (bits h 32 3) (bits h 20 12)
    let n := if (m1.fport i).gotRetry.1 = seq then (m1.fport i).gotRetry.2 + 1 else 1
    let m2 := m1.retryNoted i seq n
    if 8 ≤ n then m2.retrainPort i f.state else (m2.replayFrom i seq).resume i

/-! ### The rows of the link -/

/-- PORT_TRAINING_COMPLETE: a training port has held alignment for 1 ms. Mode 2 is FULL and 1 HALF; lanes other than 2 or 4 stand for an
order that R294 refuses. A port that has retrained goes on with its buffers. -/
def execPortTrainingComplete (port : BitVec 4) (mode : Nat) (lanes : Nat) (s : State) : Out :=
  s.actF (fun fz m =>
    let i := port.toNat
    let f := m.fport i
    if f.state ≠ .training then m
    else if lanes ≠ 2 ∧ lanes ≠ 4 then
      (m.withReach (fun m => (m.emptyPort i .down).setFport i (fun f => { f with miswired := true }))).logErr { unit := 0x5000 + i, code := 0x0502, sev := .unit, opn := .training }
    else
      let hello := fun (m : Mod) => (m.sendHello fz.serial i).sendTimestamp i
      let m1 := m.setFport i (fun f => { f with mode := if mode = 2 ∧ f.speedCap = 0 ∧ m.unitStep (0x5000 + i) = 0 then 2 else 1, lanes := lanes, miswired := false, retrain := none, rehello := false })
      match f.retrain with
      | some st =>
        let m2 := if f.retryPending then m1.askAgain i else m1
        let m3 := if st = .up ∨ st = .limited then m2.portUp i st else m2.setFport i (fun f => { f with state := st })
        if f.rehello then hello m3 else m3
      | none => hello (m1.setFport i (fun f => { f with state := .hello })))

/-- HELLO (R299). -/
def execHello (port : BitVec 4) (payload : List Byte) (s : State) : Out := s.actF (fun fz m => m.ctlRow port.toNat (fun m => m.onHello fz.serial port.toNat payload))
/-- KEY (R309). -/
def execKey (port : BitVec 4) (payload : List Byte) (s : State) : Out := s.act (fun m => m.ctlRow port.toNat (fun m => m.onKey port.toNat payload))
/-- TIMESTAMP (R320). -/
def execTimestamp (port : BitVec 4) (payload : List Byte) (s : State) : Out := s.act (fun m => m.ctlRow port.toNat (fun m => m.onTimestamp port.toNat payload))
/-- GOODBYE (R322). -/
def execGoodbye (port : BitVec 4) (s : State) : Out := s.act (fun m => m.ctlRow port.toNat (fun m => m.onGoodbye port.toNat))
/-- DATA_FLIT (R302). -/
def execDataFlit (port : BitVec 4) (flit : List Byte) (s : State) : Out := s.actF (fun fz m => m.dataFlit fz.serial port.toNat flit)

/-- IDLE_FLIT (R301). -/
def execIdleFlit (port : BitVec 4) (flit : List Byte) (s : State) : Out :=
  s.act (fun m =>
    let h := leNat (flit.take 8)
    if !(m.fport port.toNat).linked then m
    else if !flitGood flit then m.badFlit port.toNat
    else m.ackFlit port.toNat (bits h 40 12) (bits h 32 3) (bits h 20 12))

/-- RETRY_REQ (R302). -/
def execRetryReq (port : BitVec 4) (flit : List Byte) (s : State) : Out := s.act (fun m => m.retryReq port.toNat flit)
/-- ACK_TIMER (R301). -/
def execAckTimer (port : BitVec 4) (s : State) : Out := s.act (fun m => if (m.fport port.toNat).linked then m.acknowledge port.toNat else m)

/-- RETRAIN_TIMEOUT: 100 ms without alignment after a retrain lose the port (R302). -/
def execRetrainTimeout (port : BitVec 4) (s : State) : Out :=
  s.act (fun m => if (m.fport port.toNat).retrain.isSome then m.losePort port.toNat 1 else m)

/-- FEC_ALIGNMENT_LOST (R322). -/
def execFecAlignmentLost (port : BitVec 4) (s : State) : Out := s.act (fun m => if (m.fport port.toNat).linked then m.losePort port.toNat 0 else m)

/-- KEY_EPOCH_CHANGE: 24 h have passed in the epoch, and the sender of an encrypted port starts a new one (R309); after 2^40 sequenced flits it
does so by itself (`FabPort.txStep`). -/
def execKeyEpochChange (port : BitVec 4) (s : State) : Out :=
  s.act (fun m => if (m.fport port.toNat).carries ∧ (m.fport port.toNat).encrypted then
    m.setFport port.toNat (fun f => { f with txKey := f.txKey.next 0 f.seqNext }) else m)

/-- LINK_STALL: a channel of an UP port has waited 10 ms for credit with a packet ready; the lowest such channel is named (R318). -/
def execLinkStall (port : BitVec 4) (s : State) : Out :=
  s.act (fun m =>
    let f := m.fport port.toNat
    match (List.range 8).find? (fun v => (f.egress.find? (fun p => p.vc = v)).elim false (fun p => decide (f.credits.getD v 0 < p.credits))) with
    | some v => if f.state = .up then (m.fabCount 6).raise 0x0D04 64 (port.toNat + v * 256) 0 0 else m
    | none => m)

/-- PACKET_FORWARD: the first packet of the port that is for another device loses one from its TTL and is routed; at 0 it is dropped and
counted (R306, R315, R317). A module that has no device ID forwards nothing (R311). -/
def execPacketForward (port : BitVec 4) (s : State) : Out :=
  s.act (fun m =>
    let i := port.toNat
    match (m.fport i).arrived.find? (fun q => !q.isLocal && q.dest != m.fab.deviceId) with
    | none => m
    | some p =>
      let m1 := m.setFport i (fun f => f.release p)
      if m.fab.deviceId = 0xFFFF then m1.dropUnaddressed i
      else if p.ttl ≤ 1 then m1.fabCount 2 else m1.route i { p with ttl := p.ttl - 1 })

/-- FAB_PRESENCE_CHANGE: FPRSNT# of a port (R298, R322). At P3 and P4 the change is latched (R566). -/
def execFabPresenceChange (port : BitVec 4) (present : Bool) (s : State) : Out :=
  s.act (fun m =>
    let i := port.toNat
    let m1 := m.setPow (fun p => { p with fPrsnt := p.fPrsnt.set i present, cableFault := if present then p.cableFault.set (i / 4) false else p.cableFault })
    let m1 := m1.syncPorts
    if 3 ≤ m.pow.rung then m1.setPow (fun p => { p with presenceLatched := true })
    else if !present then m1.losePort i 4
    else if (m1.fport i).state = .down ∧ m1.canTrain i then m1.setFport i (fun f => { f with state := .training })
    else m1)

/-- CABLE_POWER_FAULT: the supply of a connector is removed and its four ports go down (R27). A connector that is not supplied draws nothing.
The index of the record is a free choice. -/
def execCablePowerFault (connector : BitVec 2) (s : State) : Out :=
  s.act (fun m =>
    let c := connector.toNat
    if !(List.range 4).any (fun k => m.pow.vcblOut.getD (4 * c + k) false) then m
    else
      let m1 := (m.setPow (fun p => { p with cableFault := p.cableFault.set c true })).syncPorts
      let m2 := m1.each (List.range 4) (fun m k => m.losePort (4 * c + k) 5)
      let u := m2.choose 16
      u.2.logErr { unit := 0xB000 + u.1, code := 0x0B03, sev := .unit })

/-! ### Time (R319 to R321, R657) -/

/-- A wave number newer than the last one taken. -/
def waveNewer (w last : Nat) : Bool := decide (1 ≤ (w + 65536 - last) % 65536) && decide ((w + 65536 - last) % 65536 ≤ 32767)

/-- Send SYNC with this module's FTC on every port that carries packets, but one, and measure those links again. -/
def Mod.sendSync (m : Mod) (w except : Nat) : Mod :=
  m.each ((List.range 16).filter (fun i => i != except && (m.fport i).carries)) (fun m i =>
    (m.enqueue i (m.localPacket 0x02 0 (leBytes 2 w ++ List.replicate 6 0 ++ leBytes 8 m.ftc))).sendTimestamp i)

/-- Apply a wave's FTC with the correction rules. Its FTC_WAVE event carries the FTC before the correction (R320, R326, R536). -/
def Mod.correctFtc (m : Mod) (w target : Nat) : Mod :=
  let c : Int := (target : Int) - (m.ftc : Int)
  let back := decide (c < -100000)
  let m1 := (m.traceEv 1 0x0D 0xFF w 0 0 (toTwos 64 c)).setFab (fun f => { f with
    lastWave := w, correction := c, synced := true, stepped := f.stepped || back, absorb := if c < 0 ∧ !back then c.natAbs else 0 })
  let m2 := if c < 0 ∧ !back then m1 else { m1 with ftc := target % 2 ^ 64 }
  if back then m2.setTrace (fun t => { t with stepped := true }) else m2

/-- SYNC: a newer wave sets the FTC to the carried value plus the link delay and the time since the packet's arrival, and goes on (R320). -/
def execSync (port : BitVec 4) (s : State) : Out :=
  s.act (fun m => match m.take port.toNat (fun q => q.op = 2 && q.isLocal && q.cls = 3) with
    | none => m
    | some (p, m1) =>
      if waveNewer (p.num 0 2) m.fab.lastWave ∨ !m.fab.synced then
        (m1.correctFtc (p.num 0 2) (p.num 8 8 + (m1.fport port.toNat).delayPs / 1000 + (m.localTime - p.q.issued))).sendSync (p.num 0 2) port.toNat
      else m1)

/-- FREEZE_TRIGGER: a newer trigger of its origin is taken as source FABRIC, when that source is enabled, and goes on (R533). -/
def execFreezeTrigger (port : BitVec 4) (s : State) : Out :=
  s.act (fun m => match m.take port.toNat (fun q => q.op = 6 && q.isLocal && q.cls = 3) with
    | none => m
    | some (p, m1) =>
      let no := p.num 0 2
      let origin := p.num 2 2
      if (Tbl.find m.svc.trace.lastTrigger origin).elim true (waveNewer no) then
        let m2 := m1.setTrace (fun t => { t with lastTrigger := Tbl.put t.lastTrigger origin no })
        let m3 := if bit m.svc.trace.triggerMask 5 then m2.trigger 5 no origin (p.num 8 8) else m2
        m3.sendLocalAll (m3.localPacket 0x06 0 p.payload) port.toNat
      else m1)

/-- Start a wave as its root, for a command: the wave number stands in the context until its end. -/
def Mod.startWave (m : Mod) (slot : Nat) : Mod :=
  let w := (m.fab.lastWave + 1) % 65536
  ((m.setFab (fun f => { f with lastWave := w, synced := true, absorb := 0 })).sendSync w 16).setCtx slot (fun c => { c with data := w, work := .ftcSync 0 })

/-- FTC_SYNC (R321). -/
def cmdFtcSync : Cmd := fun r m =>
  if 2 < r.arg 0 1 then badArg m 0
  else if r.arg 1 7 ≠ 0 then badArg m 1
  else if r.arg 0 1 = 1 ∧ m.fab.syncWait.isSome then fail m .busy
  else
    match m.newCtx r (.ftcSync (r.arg 0 1)) .none none with
    | (m1, .inr rep) => (m1, rep)
    | (m1, .inl n) =>
      let m2 := match r.arg 0 1 with
        | 0 => (if r.arg 8 8 = 2 ^ 64 - 1 then m1 else { m1 with ftc := r.arg 8 8 }).startWave n
        | 1 => m1.setFab (fun f => { f with syncWait := some (r.arg 8 8, n) })
        | _ => m1.each ((List.range 16).filter (fun i => (m1.fport i).carries)) (fun m i => m.sendTimestamp i)
      (m2, { status := .accepted, context := m2.idOf n })

/-- FTC_SYNC_EDGE: the first edge after an FTC_SYNC with MODE 1 loads the FTC and starts the wave (R657). -/
def execFtcSyncEdge (s : State) : Out :=
  s.act (fun m => match m.fab.syncWait with
    | none => m
    | some (v, n) => ({ m.setFab (fun f => { f with syncWait := none }) with ftc := v % 2 ^ 64 }).startWave n)

/-- FTC_SYNC_EDGE_TIMEOUT: no edge within 2 s (R321). -/
def execFtcSyncEdgeTimeout (s : State) : Out :=
  s.act (fun m => match m.fab.syncWait with
    | none => m
    | some (_, n) => (m.setFab (fun f => { f with syncWait := none })).finish n .timeout 0 0)

/-- The end of an FTC_SYNC, 10 ms after its wave: the wave number, or for MEASURE, which starts none, a free value. -/
def Mod.ftcSyncDone (m : Mod) (slot mode : Nat) (c : Ctx) : Mod :=
  match mode with
  | 0 => m.finish slot .ok 0 c.data
  | 1 => m
  | _ => let v := m.freeVal; v.2.finish slot .ok 0 (v.1 % 65536)

/-! ### FAB_DISCOVER, FAB_SET_ID, FAB_LOAD_ROUTES and FAB_QUERY (R312, R313, R316, R324) -/

/-- A fence keeps FAB_DISCOVER from training a port again (R510): the port's entry of the unit table, class 5. -/
def Mod.portFenced (m : Mod) (i : Nat) : Bool := (Tbl.findD m.test.units (5 * 4096 + i) (0, [])).1 = 2

/-- FAB_DISCOVER. -/
def cmdFabDiscover : Cmd := fun r m =>
  let enabled := packBits ((List.range 16).map (fun i => (m.fport i).enabled))
  let mask := if r.arg 0 2 = 0 then enabled else r.arg 0 2
  let ms := if r.arg 2 2 = 0 then 1000 else r.arg 2 2
  if (onesOf mask 16).any (fun i => !bit enabled i) then badArg m 0
  else
    match m.newCtx r (.discover mask ms) .none none with
    | (m1, .inr rep) => (m1, rep)
    | (m1, .inl n) =>
      let m2 := m1.each (onesOf mask 16) (fun m i =>
        let f := m.fport i
        if f.carries then m.sendHello r.fuses.serial i
        else if (f.state = .down ∨ f.state = .failed) ∧ m.canTrain i ∧ !m.portFenced i then m.setFport i (fun f => { f with state := .training, losses := [] })
        else m)
      (m2.discoverCheck, { status := .accepted, context := m2.idOf n })

/-- The ports of a mask that carry packets. -/
def Mod.portsUp (m : Mod) (mask : Nat) : Nat := packBits ((List.range 16).map (fun i => bit mask i && (m.fport i).carries))

/-- FAB_DISCOVER_TIMEOUT (R312): the ports that are up, and those that have failed. -/
def execFabDiscoverTimeout (slot : SlotNo) (s : State) : Out :=
  s.act (fun m => match Tbl.find m.ctxs slot.toNat with
    | none => m
    | some c =>
      match c.work with
      | .discover mask _ =>
        if c.state = .active then m.finish slot.toNat .ok 0 (m.portsUp mask + (mask - m.portsUp mask) * 65536) else m
      | _ => m)

/-- Disable a port: GOODBYE, then DISABLED (R313). -/
def Mod.disablePort (m : Mod) (i : Nat) : Mod :=
  let f := m.fport i
  let m1 := if f.linked then m.sendCtl i (leBytes 1 3) else m
  m1.withReach (fun m => (m.emptyPort i .disabled).setFport i (fun f => { f with enabled := false }))

/-- One port takes its settings of FAB_SET_ID. -/
def Mod.setPortPolicy (m : Mod) (i : Nat) (enable encrypt cap : Bool) : Mod :=
  let f := m.fport i
  let change := f.encryptRequired ≠ encrypt ∨ f.speedCap ≠ b2n cap
  let m1 := m.setFport i (fun f => { f with encryptRequired := encrypt, speedCap := b2n cap })
  if !enable then (if f.state = .disabled then m1.setFport i (fun f => { f with enabled := false }) else m1.disablePort i)
  else if !f.enabled then
    let m2 := m1.setFport i (fun f => { f with enabled := true, state := .down })
    if m2.canTrain i then m2.setFport i (fun f => { f with state := .training }) else m2
  else if change ∧ (f.carries ∨ f.retrain.isSome) then (m1.retrainPort i .hello).setFport i (fun f => { f with rehello := true })
  else m1

/-- FAB_SET_ID. -/
def cmdFabSetId : Cmd := fun r m =>
  let id := if r.arg 0 2 = 0xFFFE then m.fab.deviceId else r.arg 0 2
  if 16383 < r.arg 0 2 ∧ r.arg 0 2 < 0xFFFE then badArg m 0
  else if 64 < r.arg 0xA 1 then badArg m 0xA
  else if r.arg 0xB 5 ≠ 0 then badArg m 0xB
  else if id ≠ m.fab.deviceId ∧ (m.fm.regions != [] || m.mvs.any (fun v => v.2.state != MvState.loading && imgFabric v.2.image)) then fail m .busy
  else
    let m1 := m.setFab (fun f => { f with deviceId := id, hashSalt := r.arg 8 2, ttl := if r.arg 0xA 1 = 0 then 64 else r.arg 0xA 1 })
    let m2 := m1.each (List.range 16) (fun m i => m.setPortPolicy i (bit (r.arg 2 2) i) (bit (r.arg 4 2) i) (bit (r.arg 6 2) i))
    done (if id = m.fab.deviceId then m2 else m2.each (List.range 16) (fun m i =>
      if (m2.fport i).linked then m.sendHello r.fuses.serial i
      else if (m2.fport i).retrain.isSome then m.setFport i (fun f => { f with rehello := true }) else m))

/-- A routing table entry meets R314: reserved bits zero, unused slots zero, no port twice. -/
def routeOk (e : Nat) : Bool :=
  let n := bits e 28 2 + 1
  let ports := (List.range n).map (fun s => bits e (4 * s) 4)
  !bit e 30 && bits e 24 4 = 0 && bits e 16 4 = 0 && (List.range 4).all (fun s => decide (s < n) || bits e (4 * s) 4 = 0) && decide ports.Nodup

/-- The first field of a range record at fault. -/
def Req.routeFault (r : Req) (n : Nat) : Option Nat :=
  let o := 8 + 8 * n
  if 16383 < r.arg o 2 then some o
  else if r.arg (o + 2) 2 = 0 ∨ 16384 < r.arg o 2 + r.arg (o + 2) 2 then some (o + 2)
  else if !routeOk (r.arg (o + 4) 4) then some (o + 4)
  else none

/-- The table after a range record; an entry of zero is not listed. -/
def putRange (t : Tbl Nat) (first count e : Nat) : Tbl Nat :=
  t.filter (fun x => decide (x.1 < first)) ++ (if e = 0 then [] else (List.range count).map (fun k => (first + k, e))) ++
    t.filter (fun x => decide (first + count ≤ x.1))

/-- Put the new shadow table in place, and COMMIT it when asked. -/
def Mod.loadShadow (m : Mod) (t : Tbl Nat) (commit : Bool) : Mod :=
  if commit then m.withReach (fun m => m.setFab (fun f => { f with shadow := t, routes := t, routeGen := (f.routeGen + 1) % 65536, shadowDirty := false }))
  else m.setFab (fun f => { f with shadow := t, shadowDirty := true })

/-- FAB_LOAD_ROUTES. -/
def cmdFabLoadRoutes : Cmd := fun r m =>
  let fl := r.arg 0 1
  let start : Tbl Nat := if bit fl 2 then [] else m.fab.shadow
  if fl / 8 ≠ 0 then badArg m 0
  else if 29 < r.arg 1 1 ∨ (bit fl 1 ∧ r.arg 1 1 ≠ 0) then badArg m 1
  else if r.arg 2 6 ≠ 0 then badArg m 2
  else if bit fl 0 ∧ m.fab.deviceId = 0xFFFF then fail m .notPermitted 0x0D10
  else if bit fl 1 then
    match r.buffer 8 with
    | .inr o => badArg m o
    | .inl b =>
      if b.2.1 ≠ 65536 then badArg m 8
      else
        match m.readBuffer r.ch 0 0x18 r.owner r.partD b.1 b.2.1 b.2.2 with
        | (m1, .waiting) => (m1, { status := .pending })
        | (m1, .refused st) => if st = .badArgument then badArg m1 8 else fail m1 st
        | (m1, .ready bs) =>
          let es := (pieces 4 16384 bs).map leNat
          if es.all routeOk then done (m1.loadShadow (((List.range 16384).zip es).filter (fun e => e.2 != 0)) (bit fl 0)) else badArg m1 8
  else
    match (List.range (r.arg 1 1)).findSome? r.routeFault with
    | some o => badArg m o
    | none =>
      done (m.loadShadow ((List.range (r.arg 1 1)).foldl (fun t n => putRange t (r.arg (8 + 8 * n) 2) (r.arg (10 + 8 * n) 2) (r.arg (12 + 8 * n) 4)) start) (bit fl 0))

def FabState.code : FabState → Nat
  | .disabled => 0 | .down => 1 | .training => 2 | .hello => 3 | .keying => 4 | .up => 5 | .limited => 6 | .failed => 7

/-- The record of one port in FAB_QUERY. -/
def FabPort.record (f : FabPort) : List Byte :=
  le 1 f.state.code ++ le 1 f.mode ++ le 1 f.lanes ++ le 1 (b2n f.encrypted + 2 * b2n f.miswired + 4 * b2n f.duplicateId + 8 * b2n f.goodbye) ++
    le 2 f.peerId ++ le 1 f.peerPort ++ le 1 0 ++ le 8 f.peerSerial ++ le 4 f.delayPs ++ le 4 f.retries

/-- FAB_QUERY. -/
def cmdFabQuery : Cmd := fun r m =>
  if r.arg 0 1 ≠ 0 ∧ r.arg 0 1 ≠ 8 then badArg m 0
  else
    done m (le 2 m.fab.deviceId ++ le 2 m.fab.hashSalt ++ le 2 m.fab.lastWave ++ le 2 m.fab.routeGen ++ le 8 (toTwos 64 m.fab.correction) ++
      le 4 (b2n (m.fab.deviceId = 0xFFFF) + 2 * b2n m.fab.stepped + 4 * b2n m.fab.synced + 8 * b2n m.fab.shadowDirty) ++ le 4 0 ++
      (List.range 8).flatMap (fun k => (m.fport (r.arg 0 1 + k)).record))

/-! ### The mailbox rows -/

/-- FAB_DISCOVER (R312). -/
def execFabDiscover (ch : ChanNo) (s : State) : Out := s.mailbox ch 0x0D00 anyForm cmdFabDiscover
/-- FAB_SET_ID (R313). -/
def execFabSetId (ch : ChanNo) (s : State) : Out := s.mailbox ch 0x0D01 anyForm cmdFabSetId
/-- FAB_LOAD_ROUTES (R316). -/
def execFabLoadRoutes (ch : ChanNo) (s : State) : Out := s.mailbox ch 0x0D02 anyForm cmdFabLoadRoutes
/-- FTC_SYNC, MODE 0 (R321). -/
def execFtcSyncRootNow (ch : ChanNo) (s : State) : Out := s.mailbox ch 0x0D05 (fun a => slotArg a 0 1 = 0) cmdFtcSync
/-- FTC_SYNC, MODE 1 (R321). -/
def execFtcSyncRootSideband (ch : ChanNo) (s : State) : Out := s.mailbox ch 0x0D05 (fun a => slotArg a 0 1 = 1) cmdFtcSync
/-- FTC_SYNC, MODE 2, or a MODE that is refused (R321). -/
def execFtcSyncMeasure (ch : ChanNo) (s : State) : Out := s.mailbox ch 0x0D05 (fun a => decide (2 ≤ slotArg a 0 1)) cmdFtcSync
/-- FAB_QUERY (R324). -/
def execFabQuery (ch : ChanNo) (s : State) : Out := s.mailbox ch 0x0D06 anyForm cmdFabQuery

end Sys2Proof.Machine
end

