-- ==== Sys2Proof/Machine/Tiers.lean ====
section
/-! DEFINITION. The events of the three tiers' devices (spec/12_gddr7_controller.md, spec/13_t1_t2_attachments.md): refreshes and failed
accesses of T0, the T1 ports, the flash array, its journal and its wear governor. -/
namespace Sys2Proof.Machine

/-! ### T0 (R388, R393, R398, R399) -/

/-- The effect of the row of `execRefreshDue` where it acts. -/
def Mod.refresh (m : Mod) (channel : BitVec 7) (bank : BitVec 6) : Mod :=
  let g := channel.toNat
  let key := g * 64 + bank.toNat
  let c := m.choose 2
  let n := Tbl.findD m.t0.owed key 0 + 1
  let set := fun (m : Mod) (v : Nat) => { m with t0 := { m.t0 with owed := if v = 0 then Tbl.del m.t0.owed key else Tbl.put m.t0.owed key v } }
  if c.1 = 0 then (set c.2 0).closeRows g (some bank.toNat)
  else if n < 8 then set c.2 n
  else ((set c.2 7).closeRows g (some bank.toNat)).count 0x0022 (0x2000 + g) 0xFFFF none 1

/-- REFRESH_DUE (R393): while the bank queue holds a request, which is a free choice, the refresh is postponed, and at eight owed one is
issued ahead of every request; otherwise every refresh owed is issued. At P2 and below the devices refresh themselves (R395). -/
def execRefreshDue (channel : BitVec 7) (bank : BitVec 6) (s : State) : Out :=
  s.act (fun m =>
    let g := channel.toNat
    if 2 ≤ m.pow.rung ∨ 16 ≤ bank.toNat ∨ !m.t0.channels.contains g ∨ m.t0.offline.contains g then m
    else m.refresh channel bank)

/-- MAINTENANCE_RETRAIN (R399): every channel is retrained, which closes its rows (R389); requests wait and none is dropped. -/
def execMaintenanceRetrain (s : State) : Out := s.act Mod.closeT0

/-- T0_ACCESS_FAILED (R398, R404, R509): T0_ACCESS_FAILED is logged and the channel becomes suspect; a failed write leaves its line
poisoned. Whether the metadata write, or the full retraining, fails as well, which takes the channel offline, is a free choice. -/
def execT0AccessFailed (record : Nat) (line : BitVec 10) (write : Bool) (s : State) : Out :=
  s.act (fun m => match Tbl.find m.mem.recs record with
    | none => m
    | some x =>
      if x.tier ≠ .t0 ∨ x.form = .zero ∨ x.sectors * 4 ≤ line.toNat then m
      else
        let a := x.t0Addr (line.toNat * 64)
        let g := m.t0Channel a
        let m1 := m.logErr { unit := 0x2000 + g, code := 0x0204, sev := .contained, address := a, space := .t0, partition := m.ownerOf x.region, region := x.region }
        let c := m1.choose 2
        let m2 := c.2.closeRows g none
        if c.1 = 1 then m2.t0Offline g
        else (if write then m2.setRec record (fun x => x.poisonLines [line.toNat]) else m2).t0Suspect g 1)

/-- The effect of the row of `execT0SweepComplete` where it acts. -/
def Mod.sweepFinished (m : Mod) : Mod :=
  let f := m.freeVal
  let m1 :=
    if m.t0.channels = [] then
      ({ f.2 with t0 := { f.2.t0 with channels := (List.range 128).filter (fun g => !bit f.1 g) } }).each ((List.range 128).filter (bit f.1)) (fun m g =>
        m.logErr { unit := 0x2000 + g, code := 0x0206, sev := .unit, opn := .training, space := .t0 })
    else m
  ({ m1 with t0 := { m1.t0 with sweeping := false }, boot := { m1.boot with sweepDone := true } }).spaceFreed

/-- T0_SWEEP_COMPLETE (R382, R388, R399): the swept part may be allocated. At bring-up the channels have been trained before the sweep;
which of them failed, and are excluded with T0_TRAIN_FAIL, is a free choice. -/
def execT0SweepComplete (s : State) : Out :=
  s.act (fun m =>
    if !m.t0.sweeping ∨ m.pow.phase ≠ .on ∨ m.boot.step < 3 ∨ m.boot.recovery ∨ m.boot.lifecycle = 5 then m
    else m.sweepFinished)

/-! ### The map store (R105, R412) -/

/-- The map pages of an extent are lost: MAP_PAGE_LOST is logged, and every pane that they name reads as poisoned, one with no record
among them (R412, R467). -/
def Mod.losePages (m : Mod) (e : Nat) : Mod :=
  let m1 := m.logErr { unit := 0x8000 + e % 4, code := 0x0807, sev := .contained, address := e, space := .extent, region := ((Tbl.find m.mem.extents e).bind (fun x => x.region)).elim 0xFFFF (fun x => x.1) }
  let m2 := m1.each ((m1.mem.recs.filter (fun x => x.2.extent = e)).map (fun x => x.1)) (fun m k => m.poisonPane k .background)
  match (Tbl.find m.mem.extents e).bind (fun x => x.region) with
  | none => m2
  | some (r, o) =>
    match Tbl.find m2.mem.regions r with
    | none => m2
    | some g =>
      let sels := g.vers.map (fun v => VerSel.sealed v.1) ++ (m2.workings r).map (fun w => w.1)
      m2.each ((List.range 4096).map (fun i => o * 4096 + i)) (fun m p =>
        if sels.all (fun v => Tbl.has (m.vmap r v) p) then m
        else
          let k := m.mem.nextRec
          let x := { PaneRec.fresh r p e 0 false 0 m.localTime with state := .poisoned, tier := .unbacked, sectors := 0 }
          (m.setMem (fun e => { e with recs := Tbl.put e.recs k x, nextRec := k + 1 })).each sels (fun m v =>
            if Tbl.has (m.vmap r v) p then m else m.setVmap r v (fun t => Tbl.put t p k)))

/-- A port that holds a share of the map store has gone: its pages are copied again to the other ports that hold the map store, or to T2
beside a single such port (R105); where there is no room they stay in one copy, and pages that had one copy only are lost. Which extents
had their pages on the port is a free choice where other places share them (R412). -/
def Mod.recopyMap (m : Mod) (d : Nat) : Mod :=
  let others := m.mapPorts
  let c := m.freeVal
  let exts := (m.mem.extents.filter (fun e => e.2.region.isSome)).map (fun e => e.1)
  if others = [] ∧ !m.t2.inService then m.each exts (fun m e => m.losePages e)
  else
    let m0 := if m.t1.any (fun p => p.mapSingle) then (c.2.each (exts.filter (fun e => bit c.1 e)) (fun m e => m.losePages e)) else m
    match m0.secondCopies with
    | some m1 => m1
    | none => (m0.logErr { unit := 0x8000, code := 0x080B, sev := .unit, space := .t1, address := d * 2 ^ 40 }).setT1 d (fun p => { p with mapSingle := true })

/-! ### T1 ports (R408, R411, R412, R414) -/

/-- The background pass over a lost port: every entry homed on it becomes POISONED (R412). -/
def Mod.poisonPort (m : Mod) (d : Nat) : Mod :=
  if !(m.t1.getD d T1Port.init).poisonPass then m
  else
    let m1 := m.setT1 d (fun p => { p with poisonPass := false })
    m1.each ((m1.mem.recs.filter (fun x => x.2.tier = .t1 && x.2.form != .zero && x.2.loc / 2 ^ 40 == d)).map (fun x => x.1)) (fun m k => m.poisonPane k .background)

/-- Moves towards places that are gone are abandoned, and parked slots in them are dropped (R412, R422). -/
def Mod.dropPlaces (m : Mod) (gone : Place → Bool) : Mod :=
  m.setMem (fun e => { e with recs := Tbl.mapV e.recs (fun _ x =>
    let x1 := if x.dest.elim false gone then x.settled else x
    let x2 := if x1.parked.elim false (fun p => gone p.place) then { x1 with parked := none } else x1
    if x2.old.elim false (fun p => gone p.place) then { x2 with old := none, oldParks := false } else x2) })

/-- What the loss of a T1 port in service does. -/
def Mod.t1Lost (m : Mod) (d : Nat) (p : T1Port) : Mod :=
  let m1 := m.setT1 d (fun p => { p with state := .lost, poisonPass := true, holdsMap := false, mapShare := 0 })
  let m2 := (m1.dropPlaces (fun q => q.tier = .t1 && q.loc / 2 ^ 40 == d)).raise 0x0310 64 d 0 0
  let m3 := m2.logErr { unit := 0x3000 + d, code := 0x0304, sev := .unit, space := .t1, address := d * 2 ^ 40 }
  let m4 := if p.holdsMap ∧ p.mapShare ≠ 0 then m3.recopyMap d else m3
  (m4.serveReads .t1Link).spaceFreed

/-- The module loses a T1 port (R412). -/
def Mod.loseT1 (m : Mod) (d : Nat) : Mod :=
  let p := m.t1.getD d T1Port.init
  if p.state ≠ .inService ∧ p.state ≠ .retraining then m
  else
    m.t1Lost d p

/-- Three T1_RETRAIN records in an hour make a port suspect: a rate step, and beyond the last the port is lost (R509). -/
def Mod.t1Suspect (m : Mod) (d : Nat) : Mod :=
  let e := m.unitError (0x3000 + d) 3
  if !e.2 then e.1
  else if e.1.unitStep (0x3000 + d) ≤ 2 then e.1.logErr { unit := 0x3000 + d, code := 0x0307, sev := .unit, detail := 64 / 2 ^ e.1.unitStep (0x3000 + d) }
  else (e.1.capStep (0x3000 + d) 2).loseT1 d

/-- DS_PRESENCE_CHANGE, qualified for 10 ms (R408, R412, R414): a device is enumerated, or its loss loses the port. At P3 and P4 the
change is latched for the wake (R566). -/
def Mod.dsPresence (m : Mod) (d : Nat) (present : Bool) : Mod :=
  let m1 := (m.setPow (fun p => { p with dsPrsnt := p.dsPrsnt.set d present })).syncPorts
  if m.pow.phase ≠ .on then m1
  else if 3 ≤ m.pow.rung then m1.setPow (fun p => { p with presenceLatched := true })
  else
    let p := m1.t1.getD d T1Port.init
    if present then
      (if p.state = .absent ∨ p.state = .lost then (m1.poisonPort d).setT1 d (fun p => { p with present := true, state := .training }) else m1)
    else
      let m2 := m1.loseT1 d
      m2.setT1 d (fun p => { p with present := false, state := if p.state = .lost then .lost else .absent })

def execDsPresenceChange (port : BitVec 3) (present : Bool) (s : State) : Out := s.act (fun m => m.dsPresence port.toNat present)

/-- T1_ENUMERATION_COMPLETE (R407, R408, R414): the decoded capacity is a multiple of 256 MiB and at most 2^41 bytes. At bring-up the port
may hold a share of the map store; a later device becomes data area only, and T1_PORT_ADDED is raised. -/
def execT1EnumerationComplete (port : BitVec 3) (capacity : Nat) (accepted : Bool) (s : State) : Out :=
  s.act (fun m =>
    let d := port.toNat
    if (m.t1.getD d T1Port.init).state ≠ .training then m
    else if !accepted then
      (m.setT1 d (fun p => { p with state := .refused })).logErr { unit := 0x3000 + d, code := 0x0305, sev := .unit, opn := .training }
    else
      let early := m.boot.readiness = .booting
      let m1 := m.setT1 d (fun p => { p with state := .inService, capacity := min (capacity / 2 ^ 28 * 2 ^ 28) (2 ^ 41), holdsMap := early, mapShare := 0, poisonPass := false, mapSingle := !early && p.mapSingle })
      if early then m1 else (m1.raise 0x0311 64 d 0 0).spaceFreed)

/-- T1_LINK_DOWN (R411): requests wait while the port retrains. -/
def execT1LinkDown (port : BitVec 3) (s : State) : Out :=
  s.act (fun m =>
    let d := port.toNat
    if (m.t1.getD d T1Port.init).state ≠ .inService then m
    else
      ((m.setT1 d (fun p => { p with state := .retraining })).logErr { unit := 0x3000 + d, code := 0x0306, sev := .info, opn := .training }).t1Suspect d)

/-- T1_LINK_RETRAINED (R411): the waiting requests proceed. -/
def execT1LinkRetrained (port : BitVec 3) (s : State) : Out :=
  s.act (fun m =>
    let d := port.toNat
    if (m.t1.getD d T1Port.init).state ≠ .retraining then m
    else ((m.setT1 d (fun p => { p with state := .inService })).serveReads .t1Link).retryWrites)

/-- T1_RETRAIN_TIMEOUT (R408, R411, R412): the port is lost; one that is enumerated, whose link or media are not up in time, stays out of
service. -/
def execT1RetrainTimeout (port : BitVec 3) (s : State) : Out :=
  s.act (fun m =>
    match (m.t1.getD port.toNat T1Port.init).state with
    | .retraining => m.loseT1 port.toNat
    | .training => m.setT1 port.toNat (fun p => { p with state := .refused })
    | _ => m)

/-- T1_FATAL_ERROR (R412). -/
def execT1FatalError (port : BitVec 3) (s : State) : Out := s.act (fun m => m.loseT1 port.toNat)

/-- The effect of the row of `execT1NoResponse` where it acts. -/
def Mod.noT1Response (m : Mod) (record : Nat) (x : PaneRec) : Mod :=
  let log := fun (loc : Nat) => m.logErr
    { unit := 0x3000 + loc / 2 ^ 40, code := 0x0302, sev := .contained, address := loc, space := .t1, partition := m.ownerOf x.region, region := x.region }
  match x.dest with
  | some p =>
    if p.tier = .t1 ∧ x.tier ≠ .t1 then (log p.loc).setRec record PaneRec.settled
    else if x.tier = .t1 ∧ x.form ≠ .zero then ((log x.loc).poisonPane record .promotion).retryWrites else m
  | none => if x.tier = .t1 ∧ x.form ≠ .zero ∧ x.state ≠ .poisoned then ((log x.loc).poisonPane record .none).retryWrites else m

/-- T1_NO_RESPONSE (R411): handled as poisoned read data of the record homed there, or as a failed image write, which abandons the
eviction. -/
def execT1NoResponse (record : Nat) (s : State) : Out :=
  s.act (fun m => match Tbl.find m.mem.recs record with
    | none => m
    | some x => m.noT1Response record x)

/-- T1_DEVICE_EVENT (R411, R486): logged with the device's 128 B record as three appendix records. -/
def execT1DeviceEvent (port : BitVec 3) (record : List Byte) (s : State) : Out :=
  s.act (fun m =>
    let b := (record ++ List.replicate 128 0).take 128
    let p := m.t1.getD port.toNat T1Port.init
    if p.state ≠ .inService ∧ p.state ≠ .training then m
    else m.logErr { unit := 0x3000 + port.toNat, code := 0x0303, sev := .info, appendix := [b.take 48, (b.drop 48).take 48, b.drop 96 ++ List.replicate 16 0] })

/-! ### The flash array (R416 to R423) -/

/-- Images in the write buffer whose die has gone are sent to another die (R421). -/
def Mod.redirectPrograms (m : Mod) : Mod :=
  m.each (m.t2.writeBuf.filter (fun w => !m.dieOk w.place.die)) (fun m w =>
    match m.chooseFrom m.t2Dies m.dieOk with
    | (none, m1) => m1
    | (some d, m1) =>
      let here := fun (p : Place) => p.tier == Tier.t2 && p.loc == w.place.loc
      ({ m1 with t2 := { m1.t2 with writeBuf := m1.t2.writeBuf.map (fun v => if v = w then { v with place := { v.place with die := d } } else v) } } : Mod).setRec w.record (fun (x : PaneRec) =>
        { x with die := if x.tier = .t2 ∧ x.loc = w.place.loc then d else x.die
                 parked := x.parked.map (fun (p : Parked) => if here p.place then { p with place := { p.place with die := d } } else p)
                 dest := x.dest.map (fun (p : Place) => if here p then { p with die := d } else p) }))

/-- What follows at once when dies have gone out of service (R412, R422). -/
def Mod.afterDieLoss (m : Mod) : Mod :=
  let m1 := m.redirectPrograms
  (m1.dropPlaces (fun q => q.tier = .t2 && !m1.dieOk q.die)).spaceFreed

/-- A die, or a channel with its dies, goes out of service (R422); with the last channel T2 is lost. -/
def Mod.loseDie (m : Mod) (c : Nat) (die : Option Nat) : Mod :=
  match die with
  | some d =>
    let g := d % 16 * 32 + c
    if m.t2Dies ≤ g ∨ m.t2.lostDies.contains g then m
    else (({ m with t2 := { m.t2 with lostDies := m.t2.lostDies ++ [g] } }).logErr { unit := 0x4000 + c, code := 0x0404, sev := .unit, detail := d % 16 }).afterDieLoss
  | none =>
    if m.t2.lostChannels.contains c then m
    else
      let l := m.t2.lostChannels ++ [c]
      (({ m with t2 := { m.t2 with lostChannels := l, inService := m.t2.inService && decide (l.length < 32) } }).logErr { unit := 0x4000 + c, code := 0x0405, sev := .unit }).afterDieLoss

/-- An exhausted bus retry makes a NAND channel suspect: a rate step, and beyond the last it goes out of service (R463, R509). -/
def Mod.t2Suspect (m : Mod) (c : Nat) : Mod :=
  let e := m.unitError (0x4000 + c) 1
  if e.1.unitStep (0x4000 + c) ≤ 3 then e.1.logErr { unit := 0x4000 + c, code := 0x0409, sev := .unit, detail := 3600 - 400 * e.1.unitStep (0x4000 + c) }
  else (e.1.capStep (0x4000 + c) 3).loseDie c none

/-- DIE_FAILURE (R422). -/
def execDieFailure (channel : BitVec 5) (die : Option Nat) (s : State) : Out :=
  s.act (fun m => if m.t2.inService then m.loseDie channel.toNat die else m)

/-- LOST_PORT_POISON_PASS (R412, R422): over a lost T1 port, or over the entries homed on a die that is out of service. -/
def execLostPortPoisonPass (t2 : Bool) (index : Nat) (s : State) : Out :=
  s.act (fun m =>
    if t2 then
      (if m.dieOk index then m
       else m.each ((m.mem.recs.filter (fun x => x.2.tier = .t2 && x.2.form != .zero && x.2.die == index)).map (fun x => x.1)) (fun m k => m.poisonPane k .background)).retryWrites
    else (m.poisonPort index).retryWrites)

/-- NAND_PROGRAM_COMPLETE (R418): the oldest image of the record in the write buffer has been programmed, which counts as
wear (R425). -/
def execNandProgramComplete (record : Nat) (s : State) : Out :=
  s.act (fun m => match m.t2.writeBuf.find? (fun w => w.record = record) with
    | none => m
    | some w =>
      (({ m with t2 := { m.t2 with writeBuf := m.t2.writeBuf.erase w } }).chargeWear (w.place.sectors * 256)).count 0x0008 (0x4000 + w.place.die % 32) w.master
        ((Tbl.find m.mem.recs record).map (fun (x : PaneRec) => m.ownerOf x.region)) (w.place.sectors * 256))

/-- Spare capacity of the array in bytes: the over-provisioning less the retired blocks (R415, R421). -/
def Mod.spare (m : Mod) : Nat :=
  (if m.n128 then 128000000000000 else 64000000000000) / 8 - sumOf (m.t2.retired.map (fun r => r.2)) * 2 ^ 26

/-- The effect of the row of `execProgramFailure` where it acts. -/
def Mod.retireBlock (m : Mod) (die : Nat) (block : Nat) : Mod :=
  let raw := if m.n128 then 128000000000000 else 64000000000000
  let u := 0x4000 + die % 32
  let m1 := (({ m with t2 := { m.t2 with retired := Tbl.updD m.t2.retired die 0 (· + 1), journalPending := m.t2.journalPending + 1 } }).chargeFree (die % 32)).logErr
    { unit := u, code := 0x0403, sev := .info, address := block, space := .t2, detail := die / 32 }
  let m2 := if m1.spare * 100 < raw * 4 ∧ raw * 4 ≤ m.spare * 100 then m1.logErr { unit := u, code := 0x0406, sev := .info } else m1
  if m2.spare * 100 < raw * 2 ∧ !m2.t2.readOnly then
    ({ m2 with t2 := { m2.t2 with readOnly := true } }).logErr { unit := u, code := 0x0407, sev := .unit }
  else m2

/-- A block of a die has failed: a die with more than 64 failures in an hour goes out of service (R422). -/
def Mod.dieFailed (m : Mod) (die : Nat) : Mod :=
  let ts := (Tbl.findD m.t2.failTimes die []).filter (fun t => decide (m.localTime < t + 3600000000000)) ++ [m.localTime]
  let m1 : Mod := { m with t2 := { m.t2 with failTimes := Tbl.put m.t2.failTimes die ts } }
  if 64 < ts.length then m1.loseDie (die % 32) (some (die / 32)) else m1

/-- PROGRAM_FAILURE (R421): the block is retired, the data of a failed program is rewritten from the write buffer, and the spare capacity
is acted on as it passes 4% and 2% of raw. A die that fails too often goes out of service (R422). -/
def execProgramFailure (die : Nat) (block : Nat) (_erase : Bool) (s : State) : Out :=
  s.act (fun m =>
    if m.t2Dies ≤ die ∨ !m.dieOk die ∨ !m.t2.inService then m
    else (m.retireBlock die block).dieFailed die)

/-- The effect of the row of `execT2ReadDecode` where it acts. -/
def Mod.readRetried (m : Mod) (x : PaneRec) (loc n die : Nat) (last : Bool) : Mod :=
  let c := die % 32
  let m1 := m.count 0x0052 (0x4000 + c) 0xFFFF none 1
  let v := Tbl.findD m1.t2.retries c 0 + 1
  let m2 := if Tbl.find m1.t2.retries (1000 + c) = some m1.second then { m1 with t2 := { m1.t2 with retries := Tbl.put m1.t2.retries c v } }
    else ({ m1 with t2 := { m1.t2 with retries := Tbl.put (Tbl.put m1.t2.retries c 0) (1000 + c) m1.second } }).logErr
      { unit := 0x4000 + c, code := 0x0401, sev := .corrected, address := loc, space := .t2, count := v }
  let b := m2.choose 2
  let m3 := if b.1 = 1 then b.2.t2Suspect c else b.2
  if last then (m3.flashLost loc n die .none x.region).retryWrites else m3

/-- Flash units of a die move, and their translation entries await the journal (R417); the bytes programmed count as wear, by a free
amount (R425). -/
def Mod.relocate (m : Mod) (die : Nat) : Mod :=
  ({ m with t2 := { m.t2 with journalPending := m.t2.journalPending + 1 } }).chargeFree (die % 32)

/-- T2_READ_DECODE (R416, R419, R463): a read of the record's image reaches a step of the ladder. From step 2 it counts as a retry, and
T2_RETRY is logged at most once per channel per second; a failed step 1 may be an exhausted bus retry, which is a free choice. A unit that
needs step 3 is relocated, and step 4 is an uncorrectable flash unit. -/
def execT2ReadDecode (record : Nat) (step : BitVec 3) (s : State) : Out :=
  s.act (fun m => match Tbl.find m.mem.recs record with
    | none => m
    | some x =>
      let at_ := if x.tier = .t2 ∧ x.form ≠ .zero then some (x.loc, x.sectors, x.die) else none
      match at_ with
      | none => m
      | some (loc, n, die) =>
        if step.toNat < 2 ∨ 4 < step.toNat ∨ x.state = .poisoned ∨ m.homeLost x then m
        else (if step.toNat = 3 then m.relocate die else m).readRetried x loc n die (step.toNat = 4))

/-- BLOCK_RELOCATION (R417): valid flash units move and their translation entries await the journal; no logical sector changes. -/
def execBlockRelocation (die : Nat) (_block : Nat) (s : State) : Out :=
  s.act (fun m => if m.t2.inService ∧ die < m.t2Dies ∧ m.dieOk die then m.relocate die else m)

/-- The effect of the row of `execWearGovernorChange` where it acts. The event and the record carry the level, the event in GB. -/
def Mod.wearTo (m : Mod) (state : BitVec 2) : Mod :=
  let old := m.t2.wearState
  let c := ({ m with t2 := { m.t2 with wearState := state.toNat, journalPending := m.t2.journalPending + 1 } }).choose 32
  let gb := m.wearLevel / 10 ^ 13
  let rep := fun (code : Nat) => (c.2.raise code 64 (c.1 + gb * 2 ^ 32) 0 0).logErr
    { unit := 0x4000 + c.1, code := 0x0408, sev := .info, detail := gb }
  if old = 0 then rep 0x0312 else if state = 0 then rep 0x0313 else c.2

/-- WEAR_GOVERNOR_CHANGE (R425, R426): the level has crossed a threshold, and the governor takes the state that it calls for. The channel that
the event and record name is a free choice (R430). -/
def execWearGovernorChange (state : BitVec 2) (s : State) : Out :=
  s.act (fun m => if !m.t2.inService ∨ state.toNat = m.t2.wearState ∨ state.toNat ≠ m.wearCalls then m else m.wearTo state)

end Sys2Proof.Machine
end

