-- ==== Sys2Proof/Machine/Scrub.lean ====
section
/-! DEFINITION. The commands of group 0x0A: scrub passes, the error log, and mirrors (spec/15_integrity_poison.md R475, R479 to R482, R489,
R490). -/
namespace Sys2Proof.Machine

/-! ### The error log (R489, R490) -/

/-- LOST of a list of counters. -/
def Mod.lostOf (m : Mod) (scope : Option Nat) : Nat :=
  match scope with
  | some p => (Tbl.find m.mem.parts p).elim 0 (fun x => sumOf x.lost)
  | none => sumOf m.svc.err.lost + sumOf (m.mem.parts.map (fun x => sumOf x.2.lost))

/-- The records of the log from a sequence number on, examined in ascending order until three match: those that match, and whether every
record was examined, with the last examined. -/
def examine (ok : ErrRec → Bool) : List ErrRec → Nat → List ErrRec → Nat → List ErrRec × Option Nat
  | [], _, got, _ => (got.reverse, none)
  | r :: rest, n, got, last =>
    if n = 0 then (got.reverse, some last)
    else if ok r then examine ok rest (n - 1) (r :: got) r.seq else examine ok rest n got r.seq

/-- ERROR_LOG_READ (R489): a returned record reads with READ set. -/
def cmdErrorLogRead : Cmd := fun r m =>
  let scope := if r.arg 0xA 1 = 1 then none else some r.partD
  if 4 < r.arg 8 1 then badArg m 8
  else if 11 < r.arg 9 1 ∧ r.arg 9 1 ≠ 0xFF then badArg m 9
  else if 1 < r.arg 0xA 1 then badArg m 0xA
  else if r.arg 0xA 1 = 1 ∧ !r.manager then fail m .notPermitted
  else
    let ok := fun (x : ErrRec) => decide (r.arg 8 1 ≤ x.sev.code) && (r.arg 9 1 == 0xFF || r.arg 9 1 == x.unit / 4096) &&
      (match scope with | some p => x.partition == p | none => true)
    let first := r.arg 0 8
    let e := examine ok (m.svc.err.recs.filter (fun x => decide (first ≤ x.seq))) 3 [] 0
    let seqs := e.1.map (fun x => x.seq)
    let m1 := m.setErr (fun g => { g with recs := g.recs.map (fun x => if seqs.contains x.seq then { x with read := true } else x) })
    let next := match e.2 with | some s => s + 1 | none => max first m.svc.err.nextSeq
    done m1 (le 8 next ++ le 2 e.1.length ++ le 2 0 ++ le 4 (min (2 ^ 32 - 1) (m.lostOf scope)) ++ e.1.flatMap (fun x => { x with read := true }.bytes))

/-- ERROR_LOG_CLEAR (R490): appendix records go with their parent (R486). -/
def cmdErrorLogClear : Cmd := fun r m =>
  let upto := r.arg 0 8
  let m1 := m.setErr (fun g => { g with recs := if upto = 0 then [] else g.recs.filter (fun x => decide (upto < x.seq - x.parentDiff)),
                                        lost := if upto = 0 then [0, 0, 0, 0, 0] else g.lost })
  done (if upto = 0 then m1.setMem (fun e => { e with parts := Tbl.mapV e.parts (fun _ p => { p with lost := [0, 0, 0, 0, 0] }) }) else m1)

/-! ### SET_MIRROR (R475) -/

/-- SET_MIRROR: the mirror of a region of the target partition, or of the local part of a fabric region. -/
def cmdSetMirror : Cmd := fun r m =>
  let id := r.arg 0 2
  let local_ := if 0x8000 ≤ id then (Tbl.find m.fm.regions (id - 0x8000)).bind (fun f => if f.accessor then none else some f.localRegion) else some id
  match local_.bind (fun l => (Tbl.find m.mem.regions l).map (fun g => (l, g))) with
  | none => badArg m 0
  | some (l, g) =>
    let on := bit (r.arg 2 1) 0
    let panes := if 0x8000 ≤ id then (Tbl.find m.fm.regions (id - 0x8000)).elim 0 (fun f => f.units * 2 ^ f.log2Stripe) else g.endPane
    if g.owner ≠ r.partD then (if m.mayReach r.partD l then fail m .notPermitted 0x0301 else badArg m 0)
    else if 1 < r.arg 2 1 then badArg m 2
    else if r.arg 3 5 ≠ 0 then badArg m 3
    else if m.fab.deviceId = 0xFFFF then fail m .notPermitted 0x0D10
    else if r.arg 8 8 % 65536 ≠ 0 ∨ (!on ∧ r.arg 8 8 ≠ 0) ∨ (on ∧ 2 ^ 49 < r.arg 8 8 % 2 ^ 50 + panes * 65536) then badArg m 8
    else done (m.setRegion l (fun g => { g with mirror := if on then some (r.arg 8 8) else none }))

/-! ### SCRUB (R479 to R482) -/

/-- The records that a pass covers, in the order of their visit, with the region pane index under which it finds them; none for a pane
without a record. -/
def Mod.scrubList (m : Mod) (p : ScrubPass) : List (Nat × Option (Nat × PaneRec)) :=
  if p.mode = 0 then
    match Tbl.find m.mem.regions p.region with
    | none => []
    | some g =>
      match g.range p.first p.count with
      | none => []
      | some (a, b) => (g.livePanes a b).map (fun i => (i, m.recAt p.region p.sel i))
  else
    let t : Tier := if p.tier = 0 then .t0 else if p.tier = 1 then .t1 else .t2
    let at_ := fun (x : PaneRec) => if p.tier = 1 then x.loc % 2 ^ 40 else x.loc
    let hit := fun (x : PaneRec) => x.tier == t && x.form != .zero && (p.tier != 1 || x.loc / 2 ^ 40 == p.port) &&
      decide (at_ x < p.first + p.count) && decide (p.first < at_ x + x.sectors)
    (sortBy (fun a b => decide (at_ a.2 ≤ at_ b.2)) (m.mem.recs.filter (fun x => hit x.2))).map (fun x => (x.2.pane, some x))

/-- Heal every POISONED pane that a pass with HEAL covers (R477). -/
def Mod.beginScrub (m : Mod) (p : ScrubPass) : Mod :=
  let bad := (m.scrubList p).filterMap (fun v => v.2.bind (fun x => if x.2.state = .poisoned then some x.1 else none))
  let m1 := m.setSvc (fun v => { v with scrub := some { p with bad := bad } })
  if p.heal then m1.each bad (fun m k => m.startHeal k 0) else m1

/-- SCRUB (R479, R480): accepted, and run after the passes before it. -/
def cmdScrub : Cmd := fun r m =>
  let a := r.arg
  let go := fun (p : ScrubPass) =>
    match r.buffer 0x20 with
    | .inr o => badArg m o
    | .inl (addr, len, space) =>
      if len < 576 then badArg m 0x28
      else if !spaceOk r.owner space then fail m .notPermitted
      else if !m.destOk r.partD addr 576 space then badArg m 0x20
      else
        match m.newCtx r .scrub .none none with
        | (m1, .inr rep) => (m1, rep)
        | (m1, .inl n) =>
          let q := { p with ctxSlot := n, summarySpace := space, summaryAddr := addr }
          (if m1.svc.scrub = none then m1.beginScrub q else m1.setSvc (fun v => { v with scrubQueue := v.scrubQueue ++ [q] }),
           { status := .accepted, context := m1.idOf n })
  let base : ScrubPass := { ctxSlot := 0, mode := a 0 1, heal := bit (a 1 1) 0, noWriteback := bit (a 1 1) 1, region := a 2 2, sel := .head, first := a 8 8, count := a 0x10 8, tier := a 0x18 1,
                            port := a 0x19 1, summarySpace := 0, summaryAddr := 0, bad := [], healed := 0 }
  if 1 < a 0 1 then badArg m 0
  else if a 0 1 = 1 ∧ !r.manager then fail m .notPermitted
  else if 3 < a 1 1 then badArg m 1
  else if a 0x1A 6 ≠ 0 then badArg m 0x1A
  else if a 0 1 = 0 then
    match m.reachRegion r (a 2 2) 2 with
    | .inr rep => (m, rep)
    | .inl g =>
      (match m.verArg r (a 2 2) (a 4 4) with
        | none => badArg m 4
        | some sel =>
          match g.range (a 8 8) (a 0x10 8) with
          | none => badArg m 8
          | some _ => go { base with sel := sel })
  else
    let size := if a 0x18 1 = 0 then m.t0Total else if a 0x18 1 = 1 then (m.t1.getD (a 0x19 1) T1Port.init).dataSectors else m.t2Total
    if 2 < a 0x18 1 then badArg m 0x18
    else if a 0x18 1 = 1 ∧ 7 < a 0x19 1 then badArg m 0x19
    else if size < a 8 8 ∨ (size = a 8 8 ∧ size ≠ 0) then badArg m 8
    else if size < a 8 8 + a 0x10 8 then badArg m 0x10
    else go { base with count := if a 0x10 8 = 0 then size - a 8 8 else a 0x10 8 }

/-- What a pass has found, in the order of the summary (R481). -/
structure ScrubSum where
  lines : Nat
  uncorr : Nat
  already : Nat
  poisoned : Nat
  skipped : Nat
  entries : List Nat
  deriving DecidableEq, Repr

/-- An address entry (R482). -/
def scrubEntry (kind addr : Nat) : Nat := kind * 2 ^ 62 + addr % 2 ^ 62

/-- Tiles of a stored image that carry poison. -/
def Mod.badTiles (m : Mod) (x : PaneRec) : List Nat :=
  (List.range 32).filter (fun t => (match x.form with
    | .frit => bit (fritPoison x.img) t
    | .lehr => bit (lehrPoison x.img) t
    | _ => false) || x.poison.contains t || m.tileLost x t)

/-- Visit one pane: the new detections that the pass makes there are `news`, as lines of its storage (R467, R480, R482). -/
def Mod.scrubOne (m : Mod) (p : ScrubPass) (pane : Nat) (v : Option (Nat × PaneRec)) (news : List Nat) (s : ScrubSum) : Mod × ScrubSum :=
  match v with
  | none => (m, { s with skipped := s.skipped + 1 })
  | some (k, _) =>
    match Tbl.find m.mem.recs k with
    | none => (m, { s with skipped := s.skipped + 1 })
    | some x =>
      let tierAddr := fun (l : Nat) => (x.loc % 2 ^ 40) * 4 + l
      let at_ := fun (l : Nat) => if p.mode = 0 then pane * 1024 + l else tierAddr l
      if x.state = .poisoned ∨ p.bad.contains k then (m, { s with skipped := s.skipped + 1, entries := s.entries ++ [scrubEntry 2 (if p.mode = 0 then pane * 1024 else tierAddr 0)] })
      else if x.tier = .unbacked ∨ x.form = .zero then (m, { s with skipped := s.skipped + 1 })
      else
        let new := news.filter (fun l => decide (l < x.sectors * 4) && x.lineValid l)
        let old := if x.form = .raw then ((List.range 1024).filter (fun l => x.poison.contains l || (m.lostLines x).contains l)).map (fun l => (1, l))
          else (m.badTiles x).map (fun t => (3, if p.mode = 0 then t * 32 else (x.tileSpan t).1 / 64))
        let inT0 := decide (x.tier = .t0)
        let m0 := m.countSource x 0x3004
        let m1 := if inT0 then m0.each new (fun m l => m.lineLost k x l .scrub)
          else if new = [] then m0 else ((m0.placeError k x .uncorrectable .scrub).poisonPane k .scrub)
        let tileAt := fun (l : Nat) => ((List.range 32).find? (fun t => decide ((x.tileSpan t).1 < l * 64 + 64) && decide (l * 64 < (x.tileSpan t).1 + (x.tileSpan t).2))).getD 0
        let fresh := if inT0 then new.map (fun l => (0, if p.mode = 1 ∨ x.form = .raw then l else tileAt l * 32)) else []
        let es := (sortBy (fun (a b : Nat × Nat) => decide (a.2 ≤ b.2)) (old ++ fresh)).map (fun e => scrubEntry e.1 (at_ e.2))
        let dead := !inT0 && new != []
        (m1, { s with lines := s.lines + x.sectors * 4, uncorr := s.uncorr + new.length, already := s.already + old.length, poisoned := s.poisoned + b2n dead,
                      entries := s.entries ++ (if dead then [scrubEntry 2 (if p.mode = 0 then pane * 1024 else tierAddr 0)] else es) })

/-- Visit the panes of a pass in order. -/
def Mod.scrubAll (m : Mod) (p : ScrubPass) (found : List (Nat × Nat)) : List (Nat × Option (Nat × PaneRec)) → ScrubSum → Mod × ScrubSum
  | [], s => (m, s)
  | v :: rest, s =>
    let news := (found.filter (fun f => v.2.elim false (fun x => x.1 == f.1))).map (fun f => f.2)
    let a := m.scrubOne p v.1 v.2 news s
    a.1.scrubAll p found rest a.2

/-- The 576 B summary (R481). -/
def ScrubSum.bytes (s : ScrubSum) (corrected healed ftc : Nat) : List Byte :=
  let es := s.entries.take 64
  le 8 s.lines ++ le 8 corrected ++ le 8 s.uncorr ++ le 8 s.already ++ le 8 s.poisoned ++ le 4 healed ++ le 4 s.skipped ++ le 4 es.length ++ le 4 0 ++
    le 8 ftc ++ es.flatMap (le 8) ++ List.replicate (8 * (64 - es.length)) 0

/-- The next pass in the queue begins. -/
def Mod.nextScrub (m : Mod) : Mod :=
  match m.svc.scrubQueue with
  | [] => m.setSvc (fun v => { v with scrub := none })
  | q :: rest => (m.setSvc (fun v => { v with scrubQueue := rest })).beginScrub q

/-- The pass in progress ends, having visited `visited` (R480). -/
def Mod.endScrub (m : Mod) (p : ScrubPass) (c : Ctx) (corrected : Nat) (found : List (Nat × Nat)) (visited : List (Nat × Option (Nat × PaneRec))) : Mod :=
  let a := m.scrubAll p found visited { lines := 0, uncorr := 0, already := 0, poisoned := 0, skipped := 0, entries := [] }
  let s := if p.mode = 1 ∧ p.tier ≠ 2 ∧ c.state = .active then { a.2 with lines := p.count * 4 } else a.2
  let m1 := if p.mode = 0 then a.1.setRegion p.region (fun g => { g with lastScrub := s.entries.take 64 }) else a.1
  let sat := fun (v : Nat) => min v (2 ^ 32 - 1)
  let data := sat s.uncorr + sat s.poisoned * 2 ^ 32
  let ok := m1.destOk c.partition p.summaryAddr 576 p.summarySpace
  let m2 := if ok then m1.writeDest c.chanOwner c.partition p.summaryAddr p.summarySpace (s.bytes corrected p.healed m1.ftc) else m1
  let m3 := if !ok then m2.finish p.ctxSlot .aborted 0x30 data else m2.finish p.ctxSlot (if c.state = .cancelling then .aborted else .ok) 0 data
  m3.nextScrub.retryWrites

/-- SCRUB_PASS_COMPLETE (R480, R481): with the corrected errors and the new uncorrectable detections, as record and line of its storage. A
pane that moves is visited after its move, and heals that the pass waits for end first. A cancelled pass stops after some pane, by a free
choice, and still writes its summary. -/
def execScrubPassComplete (corrected : Nat) (found : List (Nat × Nat)) (s : State) : Out :=
  s.act (fun m => match m.svc.scrub with
    | none => m.nextScrub
    | some p =>
      match Tbl.find m.ctxs p.ctxSlot with
      | none => m.nextScrub
      | some c =>
        let all := m.scrubList p
        let busy := fun (v : Nat × Option (Nat × PaneRec)) => v.2.elim false (fun x =>
          x.2.state == .movingUp || x.2.state == .movingDown || (p.heal && m.svc.heals.any (fun h => h.record = x.1)))
        if c.state = .cancelling then
          let k := m.choose (all.length + 1)
          k.2.endScrub p c corrected found (all.take k.1)
        else if all.any busy then m
        else m.endScrub p c corrected found all)

/-- SCRUB (R479). -/
def execScrub (ch : ChanNo) (s : State) : Out := s.mailbox ch 0x0A00 anyForm cmdScrub
/-- ERROR_LOG_READ (R489). -/
def execErrorLogRead (ch : ChanNo) (s : State) : Out := s.mailbox ch 0x0A01 anyForm cmdErrorLogRead
/-- ERROR_LOG_CLEAR (R490). -/
def execErrorLogClear (ch : ChanNo) (s : State) : Out := s.mailbox ch 0x0A02 anyForm cmdErrorLogClear
/-- SET_MIRROR (R475). -/
def execSetMirror (ch : ChanNo) (s : State) : Out := s.mailbox ch 0x0A03 anyForm cmdSetMirror

/-! ### The SRAM of the B-dies (R112, R464) -/

/-- An image with every tile poisoned, in a region's form. -/
def Region.poisonImage (g : Region) : Mem := Mem.pack 0 (g.encode (List.replicate 32 (List.replicate 2048 0)) (List.replicate 32 true)).2.2

/-- Every tile of an image of a record in the T2 write buffer is poisoned: its parked slot's where the image is that of the slot. -/
def Mod.poisonBuffered (m : Mod) (k : Nat) : Mod :=
  match m.t2.writeBuf.find? (fun w => w.record = k), Tbl.find m.mem.recs k with
  | some w, some x =>
    match x.parked.filter (fun p => p.place.tier == .t2 && p.place.loc == w.place.loc), Tbl.find m.mem.regions x.region with
    | some p, some g => m.setRec k (fun x => { x with parked := some { p with img := g.poisonImage } })
    | _, _ => if x.tier = .t2 ∧ x.loc = w.place.loc then m.setRec k (fun x => { x with poison := List.range 32 }) else m
  | _, _ => m

/-- The context of an unreadable record closes, and its work completes with ABORTED (R464). -/
def Mod.loseContext (m : Mod) (slot : Nat) : Mod :=
  match Tbl.find m.ctxs slot with
  | none => m
  | some c =>
    let m1 := if c.state = .active ∨ c.state = .cancelling then m.abortWork slot else m
    m1.closeHeld slot 7

/-- What is lost with a word that nothing can give back. -/
def Mod.sramLost (m : Mod) : SramWord → Mod
  | .cacheEntry => m
  | .tableSlot _ false => m
  | .tableSlot slot true =>
    let m1 := m.setMem (fun e => { e with regions := Tbl.mapV e.regions (fun _ g =>
      { g with tables := { g.tables with gens := Tbl.mapV g.tables.gens (fun _ t => if t.slot = slot then { t with image := [] } else t) } }) })
    m1.setFm (fun f => { f with foreignTables := Tbl.upd f.foreignTables slot (fun t => (t.1, [])) })
  | .contextRecord slot => m.loseContext slot
  | .heldWrite i => m.setMem (fun e => { e with heldWrites := e.heldWrites.modify i (fun w => { w with poisoned := true }) })
  | .egress p i => m.setFport p (fun f => { f with egress := f.egress.modify i (fun q => { q with poison := true }) })
  | .writeBuffer k => m.poisonBuffered k
  | .logEntry n =>
    match m.svc.err.recs.find? (fun r => r.seq = n) with
    | none => m
    | some r => (m.setErr (fun e => { e with recs := e.recs.filter (fun x => x.seq != n) })).lose r.partition r.sev

/-- An uncorrectable word in the SRAM of B-die `b` (R464): a cached entry is fetched or derived again, and a table slot is copied again from
another B-die. -/
def Mod.sramError (m : Mod) (b : Nat) (w : SramWord) : Mod :=
  (m.logErr { unit := 0x8000 + b, code := 0x0809, sev := .contained }).sramLost w

/-- Every counter of a region is halved (R112). -/
def Mod.decayCounters (m : Mod) (region : Nat) : Mod :=
  m.setMem (fun e => { e with recs := Tbl.mapV e.recs (fun _ x => if x.region = region then { x with counter := x.counter / 2 } else x) })

/-- COUNTER_DECAY: DECAY_US of a region has passed, and each of its counters is halved (R112). -/
def execCounterDecay (pass : WalkerPass) (s : State) : Out :=
  s.act (fun m => (pass.sram.elim m (fun w => m.sramError w.1.toNat w.2)).decayCounters pass.region)

end Sys2Proof.Machine
end

