-- ==== Sys2Proof/Machine/FieldTest.lean ====
section
/-! DEFINITION. In-field test (spec/16_field_test.md R495 to R522): known-answer kernels, diagnosis, guard-band steps, suspect channels and
ports, privileged faults and the drain. -/
namespace Sys2Proof.Machine

/-! ### Cores (R500, R506 to R508) -/

/-- Kernels that KERNEL_MASK enables and that have verified (R496, R499). -/
def Mod.kernels (m : Mod) : List Nat := (List.range 48).filter (fun k => bit m.test.kernelMask k && bit m.boot.kernelSet k)

/-- The voltage step of a guard-band step, in mV (R506). -/
def stepMv (step : Nat) : Nat := 10 * (step - 4)

/-- Voltage offset of an island (R508). -/
def Mod.islandMv (m : Mod) (island : Nat) : Nat :=
  m.test.cores.foldl (fun v k => if k.1 / 128 = island ∧ !k.2.fenced then max v (stepMv k.2.step) else v) 0

/-- The core's clock is at least 2.8875 GHz: governor and guard-band steps of 1/32 multiplied (R497, R506, R569). -/
def Mod.clockOk (m : Mod) (c : Nat) : Bool := decide (28 * 32 ≤ (32 - m.pow.cSteps) * (32 - min 4 (m.coreTest c).step))

/-- The core has an idle slot: it is in no run, and no loaded movement that holds it has run within the last 10 ms (R500, R565). -/
def Mod.idleSlot (m : Mod) (c : Nat) : Bool :=
  !m.coreBusy c && decide (m.pow.rung ≤ 1) &&
    m.mvs.all (fun v => !(coreSet v.2.image).contains c || v.2.runs == 0 || decide (v.2.startedAt + v.2.runNs + 10000000 ≤ m.localTime))

/-- The lowest-numbered unfenced core of a block of cores, other than one. -/
def Mod.otherCore (m : Mod) (first n except : Nat) : Option Nat :=
  (List.range n).findSome? (fun i => if first + i ≠ except ∧ !(m.coreTest (first + i)).fenced then some (first + i) else none)

/-- The core that a step of a diagnosis runs on: the one that R503 names, or in its place the lowest unfenced core of its island, C-die or
B-die. -/
def Mod.chosen (m : Mod) (c phase : Nat) : Option Nat :=
  let at_ := fun (x n : Nat) => if (m.coreTest x).fenced then m.otherCore (x / n * n) n c else some x
  match phase with
  | 2 => at_ (c ^^^ 1) 128
  | 8 => at_ (c ^^^ 1) 128
  | 3 => at_ (c ^^^ 512) 512
  | 4 => at_ (c ^^^ 1024) 1024
  | _ => some c

/-- Add to one of the totals of R518. -/
def Mod.tally (m : Mod) (i n : Nat) : Mod := m.setTest (fun t => { t with totals := t.totals.modify i (· + n) })
def Mod.setTotal (m : Mod) (i v : Nat) : Mod := m.setTest (fun t => { t with totals := t.totals.set i v })

/-! ### Privileged faults and the drain (R44, R511 to R514) -/

/-- The record of a privileged unit's fault, when the unit is privileged (R511, R520). -/
def privilegedCode (unit : Nat) : Option Nat :=
  let i := unit % 4096
  match unit / 4096 with
  | 0 => if i < 2 then some 0x0001 else none
  | 9 => if i = 0 then some 0x0901 else none
  | 8 => if i < 4 then some 0x080A else none
  | 5 => if 16 ≤ i ∧ i < 20 then some 0x050B else none
  | 10 => if i < 64 then some 0x0A03 else none
  | _ => none

/-- Running kernels, diagnoses and tests are abandoned (R512). -/
def Mod.abandonTests (m : Mod) : Mod :=
  let m1 := m.each m.test.testRuns (fun m x =>
    (match x.saved with | some (c, old) => m.setCoreTest c (fun k => { k with step := old.step }) | none => m).finish x.ctxSlot .aborted 0 0)
  m1.setTest (fun t => { t with running := [], diagnoses := [], testRuns := [], cores := Tbl.mapV t.cores (fun _ k => { k with due := [], deferred := false }) })

/-- FAILED_REPLACE (R514): the cores lose their power, every fabric port says GOODBYE and is DISABLED, and the state is journalled. The
module rests at P2 (R563). -/
def Mod.enterFailed (m : Mod) : Mod :=
  let m1 := m.setBoot (fun b => { b with readiness := .failedReplace })
  let m2 := (m1.raise 0x0B04 64 (m.test.privileged.getD 0 0) 0 0).abandonTests
  let m3 := m2.each m2.mvs (fun m v => m.haltRun v.1 0x0C)
  let m4 := m3.each m3.streams (fun m t => m.setStream t.1 (fun t => { t with state := if t.paced then .ended else .stopped }))
  let m5 := ({ m4 with cores := [] }).each (List.range 16) Mod.disablePort
  let m6 := if m5.boot.journalDone then m5.commitJournal else { m5 with t2 := { m5.t2 with saved := { m5.t2.saved with failed := true } } }
  (m6.activity.setRung 2).moduleChanged

/-- Step 4 of the drain is done: every seal of a DURABLE region has been persisted, but for what a faulted walker stops (R513), and the journal
committed, or T2 is gone (R512). -/
def Mod.drained (m : Mod) : Bool :=
  !m.t2Usable || (m.t2.journalPending == 0 && m.mem.regions.all (fun g =>
    g.2.persisting.all (fun v => (m.recsOf g.1 v).any (fun k => m.test.privileged.contains (walkerOf k)))))

/-- The first steps of the drain (R512); a life-cycle change that has burnt no fuse completes with ABORTED (R610). -/
def Mod.drain (m : Mod) (unit : Nat) : Mod :=
  let m1 := (m.setBoot (fun b => { b with readiness := .draining })).raise 0x0B02 64 (unit + m.test.drainPeriodS * 2 ^ 32) 0 0
  let m2 := m1.each m1.mvs (fun m v => m.haltRun v.1 0x0C)
  let m3 := (m2.abandonTests).each (m2.ctxs.filter (fun c => match c.2.work with | .lifecycle _ => true | .debugUnlock => true | _ => false)) (fun m c => m.finish c.1 .aborted 0 0)
  (m3.each (m3.streams.filter (fun t => !t.2.paced)) (fun m t => m.stopStream t.1 t.2)).moduleChanged

/-- A privileged unit has failed, with the record that says so (R44, R511 to R514): the module drains, or, during bring-up, is
FAILED_REPLACE at once. A faulted crossbar or router takes the fabric ports of its B-die DOWN with GOODBYE. -/
def Mod.privilegedFault (m : Mod) (unit code detail : Nat) : Mod :=
  let m0 := m.logErr { unit := unit, code := code, sev := .module, detail := detail }
  let m1 := m0.setTest (fun t => { t with privileged := if t.privileged.contains unit then t.privileged else t.privileged ++ [unit] })
  let m2 := if unit = 0 then { m1 with gaffer := { m1.gaffer with fault0 := true } }
    else if unit = 1 then { m1 with gaffer := { m1.gaffer with fault1 := true } } else m1
  let die := if unit / 4096 = 5 then some (unit % 4096 - 16) else if unit / 4096 = 10 then some (unit % 4096 / 16) else none
  let m3 := match die with
    | some b => m2.each (List.range 4) (fun m i => let p := 4 * b + i
        if (m.fport p).linked ∨ (m.fport p).retrain.isSome then ((m.sendCtl p (leBytes 1 3)).losePort p 3).setFport p (fun f => { f with state := .down }) else m)
    | none => m2
  match m.boot.readiness with
  | .booting => m3.enterFailed
  | .ready => m3.drain unit
  | _ => m3

/-- GAFFER_PAIR_FAULT (R44). -/
def execGafferPairFault (pair : BitVec 1) (s : State) : Out := s.act (fun m => m.privilegedFault pair.toNat 0x0001 0)

/-- PRIVILEGED_FAULT (R511, R512). -/
def execPrivilegedFault (unit : BitVec 16) (s : State) : Out :=
  s.act (fun m => match privilegedCode unit.toNat with
    | some code => m.privilegedFault unit.toNat code 0
    | none => m)

/-- DRAIN_PERIOD_EXPIRY (R512). -/
def execDrainPeriodExpiry (s : State) : Out := s.act (fun m => if m.boot.readiness = .draining then m.enterFailed else m)

/-- END_DRAIN ends the drain once its step 4 is done (R512). -/
def Mod.endDrainCheck (m : Mod) : Mod := if m.boot.readiness = .draining ∧ m.test.endDrain ∧ m.drained then m.enterFailed else m

/-- JOURNAL_COMMIT (R423): the commit covers every entry made so far, once the images that they name have been programmed (R418). -/
def execJournalCommit (s : State) : Out :=
  s.act (fun m => if m.t2.inService ∧ m.t2.writeBuf = [] ∧ m.boot.readiness ≠ .booting then m.commitJournal.endDrainCheck else m)

/-! ### Verdicts (R503 to R508) -/

/-- UNIT_SUSPECT to the partitions with a loaded movement that holds one of the cores (R505). -/
def Mod.unitSuspect (m : Mod) (cs : List Nat) (c kernel verdict : Nat) : Mod :=
  let parts := (Tbl.keys m.mem.parts).filter (fun p => cs.any (fun x => (m.partsWithCore x).contains p))
  m.each parts (fun m p => m.raise 0x0B03 p (coreUnit c + kernel * 2 ^ 16 + verdict * 2 ^ 24) 0 0)

def Mod.setDiag (m : Mod) (c : Nat) (f : Diagnosis → Diagnosis) : Mod :=
  m.setTest (fun t => { t with diagnoses := t.diagnoses.map (fun d => if d.core = c then f d else d) })

def Mod.dropDiag (m : Mod) (c : Nat) : Mod := m.setTest (fun t => { t with diagnoses := t.diagnoses.filter (fun d => d.core != c) })

/-- The core takes its next guard-band step, at once or at its next beat boundary; past step 7 it is fenced (R506, R507). -/
def Mod.nextStep (m : Mod) (c : Nat) : Mod :=
  let k := m.coreTest c
  let s := k.pendingStep.getD k.step
  if 7 ≤ s then (m.dropDiag c).fenceCores [c]
  else
    let m1 := m.setDiag c (fun d => { d with phase := 5, left := [] })
    if m.coreBusy c then m1.setCoreTest c (fun k => { k with pendingStep := some (s + 1) }) else m1.stepNow c (s + 1)

/-- The cores of an island. -/
def islandCores (c : Nat) : List Nat := (List.range 128).map (fun i => c / 128 * 128 + i)

/-- The island of a core takes the next voltage step as a whole; past step 7 its 128 cores are fenced (R508). -/
def Mod.nextIslandStep (m : Mod) (c step : Nat) : Mod :=
  let live := (islandCores c).filter (fun x => !(m.coreTest x).fenced)
  if 7 < step then (m.dropDiag c).fenceCores live
  else
    let m1 := m.each live (fun m x => m.setCoreTest x (fun k =>
      if step ≤ k.step then k else if m.coreBusy x then { k with pendingStep := some step } else { k with step := step, pendingStep := none }))
    (m1.logErr { unit := coreUnit c, code := 0x0107, sev := .unit, opn := .test, detail := step + (c / 128) * 256 }).setDiag c (fun d => { d with phase := 7, left := [step] })

/-- The CORE verdict (R504 to R506). -/
def Mod.coreVerdict (m : Mod) (c kernel : Nat) : Mod :=
  let m1 := ((m.setCoreTest c (fun k => { k with suspect := true })).logErr
    { unit := coreUnit c, code := 0x0106, sev := .unit, opn := .test, detail := kernel + 1 * 256 }).unitSuspect [c] c kernel 1
  (((m1.tally 3 1).setTotal 9 1)).nextStep c

/-- The TRANSIENT verdict: three on one core within one ROUND_HOURS count as CORE (R504). -/
def Mod.transient (m : Mod) (c kernel : Nat) : Mod :=
  let ts := ((m.coreTest c).transients ++ [m.localTime]).filter (fun t => decide (m.localTime < t + m.test.roundHours * 3600000000000))
  let m1 := (m.logErr { unit := coreUnit c, code := 0x0105, sev := .info, opn := .test, detail := kernel }).setCoreTest c (fun k => { k with transients := ts })
  let m2 := (m1.tally 2 1).setTotal 9 0
  if 3 ≤ ts.length then (m2.setCoreTest c (fun k => { k with transients := [] })).coreVerdict c kernel else m2.dropDiag c

/-- A verdict other than TRANSIENT and CORE (R504). -/
def Mod.verdict (m : Mod) (c kernel v : Nat) : Mod :=
  let m1 := ((m.logErr { unit := coreUnit c, code := 0x0106, sev := .unit, opn := .test, detail := kernel + v * 256 }).tally 3 1).setTotal 9 v
  if v = 2 then
    let live := (islandCores c).filter (fun x => !(m.coreTest x).fenced)
    ((m1.each live (fun m x => m.setCoreTest x (fun k => { k with suspect := true }))).unitSuspect live c kernel 2).nextIslandStep c 5
  else if v = 3 then (m1.dropDiag c).privilegedFault (0xA000 + 16 * (c / 1024)) 0x0A03 0
  else (m1.dropDiag c).privilegedFault 1 0x0003 kernel

/-- A diagnosis goes on to a step of R503; one whose core does not exist counts as failed. -/
def Mod.toPhase (m : Mod) (d : Diagnosis) : Nat → Mod
  | 0 => m.verdict d.core d.kernel 4
  | n + 1 =>
    let p := 4 - n
    match m.chosen d.core p with
    | some _ => m.setDiag d.core (fun d => { d with phase := p })
    | none => m.toPhase d n

/-- The core has passed its round at its step and is STEPPED (R507). -/
def Mod.roundPassed (m : Mod) (c : Nat) : Mod := ((m.dropDiag c).setCoreTest c (fun k => { k with suspect := false })).tally 6 1

/-- What a run of a diagnosis leads to (R503 to R508). -/
def Mod.diagStep (m : Mod) (d : Diagnosis) (pass : Bool) : Mod :=
  let c := d.core
  let step := d.left.getD 0 5
  match d.phase, pass with
  | 1, true => m.transient c d.kernel
  | 1, false => m.toPhase d 3
  | 2, true => m.coreVerdict c d.kernel
  | 2, false => m.toPhase d 2
  | 3, true => m.verdict c d.kernel 2
  | 3, false => m.toPhase d 1
  | 4, true => m.verdict c d.kernel 3
  | 4, false => m.verdict c d.kernel 4
  | 5, true => if m.kernels = [] then m.roundPassed c else m.setDiag c (fun d => { d with phase := 6, left := m.kernels })
  | 5, false => m.nextStep c
  | 6, true => if d.left.length ≤ 1 then m.roundPassed c else m.setDiag c (fun d => { d with left := d.left.drop 1 })
  | 6, false => m.nextStep c
  | 7, true => (match m.chosen c 8 with
      | some _ => m.setDiag c (fun d => { d with phase := 8 })
      | none => m.nextIslandStep c (step + 1))
  | 7, false => m.nextIslandStep c (step + 1)
  | _, true => (m.dropDiag c).each (islandCores c) (fun m x => if (m.coreTest x).fenced then m else m.setCoreTest x (fun k => { k with suspect := false }))
  | _, false => m.nextIslandStep c (step + 1)

/-- A failed run outside a diagnosis begins one, unless the core has one (R503). -/
def Mod.beginDiag (m : Mod) (c k : Nat) : Mod :=
  if m.test.diagnoses.any (fun d => d.core = c) then m
  else m.setTest (fun t => { t with diagnoses := t.diagnoses ++ [{ core := c, kernel := k, phase := 1, left := [] }] })

/-! ### Runs (R497 to R502, R516, R517) -/

/-- The run that a diagnosis waits for: core and kernel. Steps of a core wait for those of its island (R522). -/
def Mod.diagRun (m : Mod) (d : Diagnosis) : Option (Nat × Nat) :=
  if (d.phase = 5 ∨ d.phase = 6) ∧ m.test.diagnoses.any (fun e => e.core / 128 = d.core / 128 && decide (7 ≤ e.phase)) then none
  else (m.chosen d.core d.phase).map (fun c => (c, if d.phase = 6 then d.left.getD 0 d.kernel else d.kernel))

/-- Every run that waits, in the order in which the Gaffer takes them: diagnoses, tests, and due kernels, the oldest first and then the lower
core; a cancelled test begins no other kernel (R500, R503, R517). -/
def Mod.jobs (m : Mod) : List (Nat × Nat × Nat) :=
  (m.test.diagnoses.filterMap m.diagRun).map (fun r => (r.1, r.2, 1)) ++
  ((m.test.testRuns.filter (fun t => (Tbl.find m.ctxs t.ctxSlot).elim true (fun c => c.state != .cancelling))).filterMap (fun t => t.todo.head?)).map
    (fun r => (r.1, r.2, 2)) ++
  ((sortBy (fun (a b : Nat × Nat × Nat) => decide (a.1 < b.1) || (a.1 == b.1 && decide (a.2.1 ≤ b.2.1)))
    (m.test.cores.filterMap (fun k => if k.2.fenced then none else k.2.due.head?.map (fun d => (d.2, k.1, d.1)))))).map (fun x => (x.2.1, x.2.2, 0))

/-- The next run on the core is the first of its round under REQUALIFY, which sets the core to step 0 (R517). -/
def Mod.requalifies (m : Mod) (j : Nat × Nat × Nat) : Bool :=
  j.2.2 == 2 && m.test.testRuns.any (fun t => t.mode == 2 && t.todo.head? == some (j.1, j.2.1) && t.saved.isNone)

/-- The core may run known-answer kernels: its clock suffices, and it is not fenced, or a REQUALIFY runs them. -/
def Mod.mayTest (m : Mod) (j : Nat × Nat × Nat) : Bool :=
  (m.clockOk j.1 || (m.requalifies j && decide (m.pow.cSteps ≤ 4))) && (j.2.2 == 2 || !(m.coreTest j.1).fenced) && decide (m.pow.rung ≤ 1)

/-- A run begins; a core under REQUALIFY is set to step 0 for its round (R517), and the module goes to P0 (R563). -/
def Mod.beginRun (m : Mod) (j : Nat × Nat × Nat) : Mod :=
  let m1 := if m.pow.rung = 1 then m.setRung 0 else m
  let m2 := if j.2.2 ≠ 2 then m1 else
    m1.each (m1.test.testRuns.filter (fun t => t.mode = 2 && t.todo.head? == some (j.1, j.2.1) && t.saved.isNone)) (fun m t =>
      (m.setTest (fun e => { e with testRuns := e.testRuns.map (fun x => if x.ctxSlot = t.ctxSlot then { x with saved := some (j.1, m.coreTest j.1) } else x) })).setCoreTest
        j.1 (fun k => { k with step := 0 }))
  m2.setTest (fun t => { t with running := [j] })

/-- KERNEL_DUE: the core's next enabled kernel falls due (R499). A fenced core has none (R501), and none falls due while the module drains. -/
def execKernelDue (core : CoreNo) (s : State) : Out :=
  s.act (fun m =>
    let c := core.toNat
    let k := m.coreTest c
    let ks := m.kernels
    match (ks.find? (fun x => decide (k.nextKernel ≤ x))).or ks.head? with
    | none => m
    | some n =>
      if !m.test.enabled ∨ k.fenced ∨ m.boot.readiness ≠ .ready then m
      else m.setCoreTest c (fun k => { k with due := k.due ++ [(n, m.ftc)], nextKernel := (n + 1) % 48 }))

/-- KERNEL_DEFER_EXPIRY: DEFER_MINUTES have passed at P0 or P1 since the core's kernel fell due (R501, R565). -/
def execKernelDeferExpiry (core : CoreNo) (s : State) : Out :=
  s.act (fun m => if (m.coreTest core.toNat).due = [] ∨ 2 ≤ m.pow.rung then m else m.setCoreTest core.toNat (fun k => { k with deferred := true }))

/-- KERNEL_RUN_START: the first waiting run whose core has an idle slot, one at a time (R500). -/
def execKernelRunStart (s : State) : Out :=
  s.act (fun m =>
    if m.test.running ≠ [] then m
    else match m.jobs.find? (fun j => m.idleSlot j.1 && m.mayTest j) with
      | some j => m.beginRun j
      | none => m)

/-- KERNEL_INSERTION: a run begins on a core of a running movement, after the release of a barrier and before the core's first descriptor of
the beat; it leaves the movement's units, predicates and flags alone (R253, R501, R503). -/
def execKernelInsertion (core : CoreNo) (s : State) : Out :=
  s.act (fun m =>
    let c := core.toNat
    let k := m.core c
    match m.runOf c with
    | none => m
    | some (_, v) =>
      let fresh := !k.atBarrier && k.pc != 0 && (descAt v.image c (k.pc - 1)).elim false (fun d => d.op = 0x04)
      let ok := fun (j : Nat × Nat × Nat) => j.1 == c && m.mayTest j && (j.2.2 == 1 || (j.2.2 == 0 && (m.coreTest c).deferred) ||
        (j.2.2 == 2 && m.test.testRuns.any (fun t => t.mode != 2 && t.todo.head? == some (j.1, j.2.1))))
      if !fresh ∨ v.stopMode ≠ 0 ∨ m.test.running ≠ [] then m
      else match m.jobs.find? ok with
        | some j => (m.beginRun j).tally 4 (b2n (j.2.2 = 0))
        | none => m)

/-- The result passes against the expected answer: bit by bit, or, for kernels 18 and 19, each finite FP32 element within 1 unit in the last
place (R498). -/
def kernelPasses (k : Nat) (result : List Byte) : Bool :=
  let want := Config.kernelAnswer k
  if k = 18 ∨ k = 19 then
    let el := fun (bs : List Byte) (i : Nat) => leNat ((bs.drop (4 * i)).take 4)
    result.length == want.length && (List.range (ceilDiv want.length 4)).all (fun i =>
      let a := el result i
      let b := el want i
      let fin := fun (x : Nat) => decide (bits x 23 8 ≠ 255) && decide (x % 2 ^ 31 ≠ 0)
      a == b || (fin a && fin b && a / 2 ^ 31 == b / 2 ^ 31 && (a + 1 == b || b + 1 == a)))
  else result == want

/-- The final DATA of a TEST_RUN (R516). -/
def TestRun.data (t : TestRun) : Nat :=
  min 65535 t.passes + (min 65535 t.failures) * 2 ^ 16 + (min 65535 t.skipped) * 2 ^ 32 + (t.firstFail.getD 0xFFFF) * 2 ^ 48

/-- Runs of fenced cores are dropped from tests other than REQUALIFY, counted as skipped; a test with nothing left is complete (R516). -/
def Mod.settleTests (m : Mod) : Mod :=
  let prune := fun (t : TestRun) =>
    if t.mode = 2 then t
    else
      let gone := t.todo.filter (fun r => (m.coreTest r.1).fenced)
      let cs := gone.foldl (fun (l : List Nat) r => if l.contains r.1 then l else r.1 :: l) []
      { t with todo := t.todo.filter (fun r => !(m.coreTest r.1).fenced), skipped := t.skipped + cs.length }
  let ts := m.test.testRuns.map prune
  let done := ts.filter (fun t => t.todo == [])
  (m.setTest (fun e => { e with testRuns := ts.filter (fun t => t.todo != []) })).each done (fun m t => m.finish t.ctxSlot .ok 0 t.data)

/-- The end of a run of the first test that waits for it. -/
def Mod.testRunEnd (m : Mod) (c k : Nat) (pass : Bool) : Mod :=
  match m.test.testRuns.find? (fun t => t.todo.head? == some (c, k)) with
  | none => m
  | some t =>
    let put := fun (m : Mod) (t : TestRun) => m.setTest (fun e => { e with testRuns := e.testRuns.map (fun x => if x.ctxSlot = t.ctxSlot then t else x) })
    let rest := t.todo.drop 1
    let first := if pass then t.firstFail else some (t.firstFail.getD c)
    if t.mode ≠ 2 then
      let m1 := put m { t with todo := rest, passes := t.passes + b2n pass, failures := t.failures + b2n (!pass), firstFail := first }
      let m2 := if t.mode = 1 ∧ pass ∧ rest.head?.elim true (fun r => r.1 ≠ c) then m1.tally 6 1 else m1
      if pass then m2 else m2.beginDiag c k
    else if !pass then
      let m1 := match t.saved with | some (x, old) => m.setCoreTest x (fun k => { k with step := old.step }) | none => m
      put m1 { t with todo := rest.filter (fun r => r.1 != c), failures := t.failures + 1, firstFail := first, saved := none }
    else if rest.any (fun r => r.1 = c) then put m { t with todo := rest }
    else
      let m1 := m.setCoreTest c (fun k => { CoreTest.init with lastPassFtc := k.lastPassFtc, nextKernel := k.nextKernel, due := k.due, deferred := k.deferred })
      (put m1 { t with todo := rest, passes := t.passes + 1, saved := none }).tally 6 1

/-- The run of a core whose clock has fallen below 2.8875 GHz is stopped at once and is void (R497). -/
def Mod.voidSlow (m : Mod) : Mod :=
  match m.test.running with
  | [] => m
  | (c, k, _) :: _ =>
    if m.clockOk c then m
    else ((m.setTest (fun t => { t with running := [] })).logErr { unit := coreUnit c, code := 0x0109, sev := .info, opn := .test, detail := k }).tally 5 1

/-- The effect of the row of `execKernelRunEnd` where it acts. -/
def Mod.kernelResult (m : Mod) (c k kind : Nat) (result : List Byte) : Mod :=
  let m0 := m.setTest (fun t => { t with running := [] })
  if result = [] ∨ !m.clockOk c then
    (m0.logErr { unit := coreUnit c, code := 0x0109, sev := .info, opn := .test, detail := k }).tally 5 1
  else
    let pass := kernelPasses k result
    let m1 := m0.tally 0 1
    let m2 := if pass then (m1.tally 1 1).setCoreTest c (fun x => { x with lastPassFtc := m.ftc })
      else ((m1.setTotal 7 (coreUnit c)).setTotal 8 k).setCoreTest c (fun x => { x with failedKernels := setBit x.failedKernels k, failures := x.failures + 1, lastFailed := k })
    let m3 :=
      if kind = 0 then
        let m4 := m2.setCoreTest c (fun x => { x with due := x.due.drop 1, deferred := false })
        let m5 := if m.kernels.getLast? = some k then m4.tally 6 1 else m4
        if pass then m5 else m5.beginDiag c k
      else if kind = 1 then
        (match m2.test.diagnoses.find? (fun d => m2.diagRun d == some (c, k)) with
          | some d => m2.diagStep d pass
          | none => m2)
      else m2.testRunEnd c k pass
    m3.settleTests

/-- KERNEL_RUN_END (R498): the result is compared; no result bytes stand for a run that met a detected error, and a run during which the
clock fell below 2.8875 GHz is void as well (R497). -/
def execKernelRunEnd (core : CoreNo) (result : List Byte) (s : State) : Out :=
  s.act (fun m => match m.test.running with
    | [] => m
    | (c, k, kind) :: _ =>
      if c ≠ core.toNat then m
      else m.kernelResult c k kind result)

/-! ### Fabric ports (R296, R509) -/

/-- The effect of the row of `execFecMargin` where it acts. -/
def Mod.fecMarginPassed (m : Mod) (port : BitVec 4) (corrected : Nat) : Mod :=
  let i := port.toNat
  let e := (m.logErr { unit := 0x5000 + i, code := 0x0501, sev := .corrected, count := corrected }).unitError (0x5000 + i) 3
  if !e.2 then e.1
  else if e.1.unitStep (0x5000 + i) = 1 then
    let m1 := e.1.logErr { unit := 0x5000 + i, code := 0x0509, sev := .unit }
    if (m1.fport i).mode = 2 then m1.retrainPort i (m1.fport i).state else m1
  else
    let m1 := e.1.capStep (0x5000 + i) 2
    ((m1.losePort i 1).setFport i (fun f => { f with state := .failed })).logErr { unit := 0x5000 + i, code := 0x050A, sev := .unit }

/-- FEC_MARGIN: more than 1 corrected symbol in 10^4 over 1 s is logged; three records in an hour make the port suspect: FULL, then HALF, then
FAILED (R296, R509). -/
def execFecMargin (port : BitVec 4) (corrected total : Nat) (s : State) : Out :=
  s.act (fun m =>
    let i := port.toNat
    if !(m.fport i).linked then m
    else
      let m1 := m.setFport i (fun f => { f with corrected := f.corrected + corrected })
      if corrected * 10000 ≤ total then m1 else m1.fecMarginPassed port corrected)

/-! ### The commands (R515 to R519) -/

/-- TEST_POLICY_SET (R515): journalled, and in effect at the next due time. -/
def cmdTestPolicySet : Cmd := fun r m =>
  let a := r.arg
  let drain := bit (a 0 1) 1
  if 3 < a 0 1 then badArg m 0
  else if a 1 1 ≠ 0 then badArg m 1
  else if 720 < a 2 2 then badArg m 2
  else if (a 4 2 ≠ 0 ∧ a 4 2 < 10) ∨ 1440 < a 4 2 then badArg m 4
  else if a 6 2 ≠ 0 then badArg m 6
  else if (a 8 4 ≠ 0 ∧ a 8 4 < 60) ∨ 86400 < a 8 4 then badArg m 8
  else if a 0xC 4 ≠ 0 then badArg m 0xC
  else if 2 ^ 48 ≤ a 0x10 8 then badArg m 0x10
  else if drain ∧ m.boot.readiness ≠ .draining then badArg m 0
  else
    let m1 := m.setTest (fun t => { t with
      enabled := bit (a 0 1) 0, roundHours := if a 2 2 = 0 then 24 else a 2 2, deferMinutes := if a 4 2 = 0 then 240 else a 4 2,
      drainPeriodS := if a 8 4 = 0 then 600 else a 8 4, kernelMask := if a 0x10 8 = 0 then 2 ^ 48 - 1 else a 0x10 8, endDrain := t.endDrain || drain })
    done ({ m1 with t2 := { m1.t2 with journalPending := m1.t2.journalPending + b2n (!drain) } }).endDrainCheck

/-- Units of a class that a range may name (R483). -/
def classSize (cls : Nat) : Nat :=
  match cls with
  | 0 => 2 | 1 => 4096 | 2 => 128 | 3 => 8 | 4 => 32 | 5 => 20 | 6 => 4 | 7 => 4 | 8 => 4 | 9 => 1 | 10 => 64 | 11 => 16 | _ => 0

/-- A channel or port is out of service (R401, R412, R422, R509). -/
def Mod.unitOut (m : Mod) (unit : Nat) : Bool :=
  let i := unit % 4096
  match unit / 4096 with
  | 2 => m.t0.offline.contains i || !m.t0.channels.contains i
  | 3 => let st := (m.t1.getD i T1Port.init).state; st != T1State.inService && st != T1State.retraining
  | 4 => !m.t2.inService || m.t2.lostChannels.contains i
  | 5 => m.portFenced i
  | _ => false

/-- REQUALIFY of a channel or port: back at its top rate with its counts reset, or skipped (R517). -/
def Mod.requalifyUnit (m : Mod) (unit : Nat) : Mod × Bool × Bool :=
  if m.unitOut unit then (m, false, true)
  else if m.unitStep unit = 0 then (m, false, false)
  else
    let m1 := m.setTest (fun t => { t with units := Tbl.del t.units unit })
    (if unit / 4096 = 2 then m1.closeRows (unit % 4096) none else if unit / 4096 = 5 ∧ (m1.fport (unit % 4096)).linked then m1.retrainPort (unit % 4096) (m1.fport (unit % 4096)).state else m1, true, false)

/-- TEST_RUN (R516, R517). -/
def cmdTestRun : Cmd := fun r m =>
  let a := r.arg
  let mode := a 0 1
  let cls := a 2 2 / 4096
  let first := a 2 2 % 4096
  let n := a 4 2
  let units := (List.range n).map (fun i => first + i)
  if 2 < mode then badArg m 0
  else if (mode = 0 ∧ 47 < a 1 1) ∨ (mode ≠ 0 ∧ a 1 1 ≠ 0) then badArg m 1
  else if (mode ≠ 2 ∧ cls ≠ 1) ∨ cls = 0 ∨ 5 < cls then badArg m 2
  else if n = 0 ∨ 4096 < n ∨ classSize cls < first + n then badArg m 4
  else if mode = 0 ∧ !m.kernels.contains (a 1 1) then badArg m 1
  else
    match m.newCtx r .testRun .none none with
    | (m1, .inr rep) => (m1, rep)
    | (m1, .inl slot) =>
      let base : TestRun := { ctxSlot := slot, mode := mode, todo := [], passes := 0, failures := 0, skipped := 0, firstFail := none, saved := none }
      let put := fun (m : Mod) (t : TestRun) => (m.setTest (fun e => { e with testRuns := e.testRuns ++ [t] })).settleTests
      let ans := { status := .accepted, context := m1.idOf slot : Reply }
      if mode ≠ 2 then
        let ks := if mode = 0 then [a 1 1] else m.kernels
        let live := units.filter (fun c => !(m1.coreTest c).fenced)
        (put m1 { base with todo := live.flatMap (fun c => ks.map (fun k => (c, k))), skipped := n - live.length }, ans)
      else if cls = 1 then
        let cs := units.filter (fun c => (m1.coreTest c).fenced || decide ((m1.coreTest c).step ≠ 0))
        (put m1 { base with todo := cs.flatMap (fun c => m.kernels.map (fun k => (c, k))) }, ans)
      else
        let go := fun (x : Mod × TestRun) (u : Nat) =>
          let y := x.1.requalifyUnit (cls * 4096 + u)
          (y.1, { x.2 with passes := x.2.passes + b2n y.2.1, skipped := x.2.skipped + b2n y.2.2 })
        let z := (units.filter (fun u => cls ≠ 5 ∨ u < 16)).foldl go (m1, base)
        (put z.1 z.2, ans)

/-- TEST_REPORT (R518). -/
def cmdTestReport : Cmd := noArgs fun _ m =>
  let t := fun (i : Nat) => m.test.totals.getD i 0
  let stepped := m.test.cores.filter (fun k => !k.2.fenced && k.2.step != 0)
  let islands := (List.range 32).filter (fun i => m.islandMv i ≠ 0)
  let dues := m.test.cores.flatMap (fun k => k.2.due.map (fun d => d.2))
  done m (le 8 (t 0) ++ le 8 (t 1) ++ le 4 (t 2) ++ le 4 (t 3) ++ le 4 (t 4) ++ le 4 (t 5) ++ le 2 m.fencedCores ++ le 2 stepped.length ++
    le 2 islands.length ++ le 2 0 ++ le 8 (match dues with | [] => 0 | d :: ds => ds.foldl min d) ++ le 8 (t 6) ++ le 8 m.boot.kernelSet ++ le 2 (t 7) ++ le 1 (t 8) ++ le 1 (t 9))

/-- STATE of a unit (R519). -/
def Mod.unitState (m : Mod) (unit : Nat) : Nat :=
  if m.test.privileged.contains unit then 5
  else if (privilegedCode unit).isSome then 0
  else if unit / 4096 = 1 then
    let k := m.coreTest (unit % 4096)
    if k.fenced then 3 else if k.suspect then 1 else if k.step ≠ 0 then 2 else 0
  else if m.unitOut unit then 4
  else if m.unitStep unit ≠ 0 then 2
  else 0

/-- STEP of a unit (R519). -/
def Mod.stepOf (m : Mod) (unit : Nat) : Nat :=
  if unit / 4096 = 1 then (m.coreTest (unit % 4096)).step else if unit / 4096 = 5 then min 1 (m.unitStep unit) else m.unitStep unit

/-- RATE_PERMILLE of a unit (R519). -/
def Mod.ratePermille (m : Mod) (unit : Nat) : Nat :=
  let s := m.stepOf unit
  match unit / 4096 with
  | 1 => (32 - min 4 s) * 1000 / 32
  | 2 => (40 - 4 * s) * 1000 / 40
  | 3 => 1000 / 2 ^ s
  | 4 => (3600 - 400 * s) * 1000 / 3600
  | 5 => if s = 0 ∧ !((m.fport (unit % 4096)).linked && (m.fport (unit % 4096)).mode == 1) then 1000 else 500
  | _ => 1000

/-- UNIT_STATE_QUERY (R519). -/
def cmdUnitStateQuery : Cmd := fun r m =>
  let u := r.arg 0 2
  let i := u % 4096
  let isCore := u / 4096 = 1
  let k := m.coreTest i
  if classSize (u / 4096) ≤ i then badArg m 0
  else if 1 < r.arg 2 1 then badArg m 2
  else
    let slice := if isCore ∧ r.arg 2 1 = 1 then
        (List.range 128).flatMap (fun b => le 1 (packBits ((List.range 8).map (fun j => (m.coreTest (i / 1024 * 1024 + 8 * b + j)).fenced)))) else []
    done m (le 1 (m.unitState u) ++ le 1 (m.stepOf u) ++ le 2 (m.ratePermille u) ++ le 2 (if isCore then m.islandMv (i / 128) else 0) ++ le 2 0 ++
      le 8 (if isCore then k.lastPassFtc else 0) ++ le 8 (if isCore then k.failedKernels else 0) ++ le 4 (if isCore then k.failures else 0) ++ le 4 0 ++ slice)

/-! ### The rows -/

def testRound (slot : Mem) : Bool := slotArg slot 0 1 = 1
def testRequalify (slot : Mem) : Bool := slotArg slot 0 1 = 2
def testKernel (slot : Mem) : Bool := !testRound slot && !testRequalify slot

/-- TEST_POLICY_SET (R515). -/
def execTestPolicySet (ch : ChanNo) (s : State) : Out := s.mailbox ch 0x0B00 anyForm cmdTestPolicySet
/-- TEST_RUN with MODE 0, KERNEL, or a MODE that is refused (R516). -/
def execTestRunKernel (ch : ChanNo) (s : State) : Out := s.mailbox ch 0x0B01 testKernel cmdTestRun
/-- TEST_RUN with MODE 1, ROUND (R516). -/
def execTestRunRound (ch : ChanNo) (s : State) : Out := s.mailbox ch 0x0B01 testRound cmdTestRun
/-- TEST_RUN with MODE 2, REQUALIFY (R516, R517). -/
def execTestRunRequalify (ch : ChanNo) (s : State) : Out := s.mailbox ch 0x0B01 testRequalify cmdTestRun
/-- TEST_REPORT (R518). -/
def execTestReport (ch : ChanNo) (s : State) : Out := s.mailbox ch 0x0B02 anyForm cmdTestReport
/-- UNIT_STATE_QUERY (R519). -/
def execUnitStateQuery (ch : ChanNo) (s : State) : Out := s.mailbox ch 0x0B03 anyForm cmdUnitStateQuery

end Sys2Proof.Machine
end

