-- ==== Sys2Proof/Machine/Observe.lean ====
section
/-! DEFINITION. The commands of group 0x0C, hangs and tensor captures: counters, triggers, the trace, hang rings, dumps
(spec/17_counters_trace_dumps.md R523 to R552). -/
namespace Sys2Proof.Machine

/-! ### Counters (R524 to R531) -/

/-- The events that can be counted: the class of their units, 16 for any, and whether partition counters take them (R525). -/
def eventInfo (e : Nat) : Option (Nat × Bool) :=
  match e with
  | 0x0001 => some (1, true) | 0x0002 => some (10, true) | 0x0003 => some (2, true) | 0x0004 => some (2, true)
  | 0x0005 => some (3, true) | 0x0006 => some (3, true) | 0x0007 => some (4, true) | 0x0008 => some (4, true)
  | 0x0009 => some (6, true) | 0x000A => some (6, true) | 0x000B => some (5, true) | 0x000C => some (5, true)
  | 0x0010 => some (1, true) | 0x0011 => some (1, true) | 0x0012 => some (1, true) | 0x0013 => some (1, true)
  | 0x0020 => some (2, false) | 0x0021 => some (2, false) | 0x0022 => some (2, false) | 0x0023 => some (2, false)
  | 0x0030 => some (6, true) | 0x0031 => some (6, true) | 0x0032 => some (16, true) | 0x0033 => some (16, true)
  | 0x0040 => some (8, true) | 0x0041 => some (8, true) | 0x0042 => some (8, true) | 0x0043 => some (8, true)
  | 0x0044 => some (6, true) | 0x0050 => some (5, false) | 0x0051 => some (5, false) | 0x0052 => some (4, false)
  | _ => none

/-- A UNIT filter names units of a class: one unit, every unit of the class, or every unit (R526). -/
def unitFilterOk (unit cls : Nat) : Bool :=
  unit = 0xFFFF || ((cls = 16 || unit / 4096 = cls) && (unit % 4096 = 0xFFF || decide (unit % 4096 < classSize (unit / 4096))))

def Counter.init : Counter :=
  { event := 0, unit := 0xFFFF, master := 0xFFFF, resetOnStart := false, thresholdLog2 := 0, startContext := 0, value := 0, wrapped := false }

/-- The key of counter `n` of a scope: a partition's, or the global counters (R524). -/
def ctrKey (part : Option Nat) (n : Nat) : Nat := match part with | some p => p * 64 + n | none => 4096 + n

def Mod.counter (m : Mod) (key : Nat) : Counter := Tbl.findD m.svc.ctr.tbl key Counter.init

/-- The context ID names a movement of the partition. -/
def Mod.isMovement (m : Mod) (id part : Nat) : Bool :=
  match m.liveCtx id part with
  | some (_, c) => (match c.obj with | .movement _ => true | _ => false)
  | none => false

/-- The offset in a record of COUNTER_CONFIG of its first field at fault (R526). -/
def Mod.counterBad (m : Mod) (part : Option Nat) (event unit master flags thr start rsv : Nat) : Option Nat :=
  let info := eventInfo event
  if event ≠ 0 ∧ info.isNone then some 0
  else if (match info, part with | some (_, p), some _ => !p | _, _ => false) then some 0
  else if (match info with | some (c, _) => !unitFilterOk unit c | none => false) then some 2
  else if master ≠ 0xFFFF ∧ !validMaster master then some 4
  else if master ≠ 0xFFFF ∧ (part.isSome ∧ m.masterPart master ≠ none ∧ m.masterPart master ≠ part) then some 4
  else if 3 < flags then some 6
  else if 47 < thr ∨ (part.isSome ∧ thr ≠ 0) then some 7
  else if start ≠ 0 ∧ part.isSome ∧ !m.isMovement start (part.getD 64) then some 8
  else if rsv ≠ 0 then some 12
  else none

/-- Scope, first counter and count of the arguments of COUNTER_CONFIG and COUNTER_READ (R526, R528). -/
def counterRange (r : Req) (most : Nat) (rsv : Bool) (m : Mod) : Option Nat ⊕ (Mod × Reply) :=
  let part := if r.arg 0 1 = 1 then none else some r.partD
  let size := if r.arg 0 1 = 1 then 1024 else 64
  if 1 < r.arg 0 1 then .inr (badArg m 0)
  else if r.arg 0 1 = 1 ∧ !r.manager then .inr (fail m .notPermitted)
  else if rsv ∧ r.arg 1 1 ≠ 0 then .inr (badArg m 1)
  else if size ≤ r.arg 2 2 then .inr (badArg m 2)
  else if r.arg 4 1 = 0 ∨ most < r.arg 4 1 ∨ size < r.arg 2 2 + r.arg 4 1 then .inr (badArg m 4)
  else if rsv ∧ r.arg 5 3 ≠ 0 then .inr (badArg m 5)
  else .inl part

/-- Record `n` of COUNTER_CONFIG: the counter as it becomes, keeping its value unless ZERO is set and it is not frozen (R526, R527, R530). -/
def Mod.configCounter (m : Mod) (r : Req) (part : Option Nat) (n : Nat) : Mod :=
  let o := 8 + 16 * n
  let key := ctrKey part (r.arg 2 2 + n)
  let zero := bit (r.arg (o + 6) 1) 0 && !m.ctrFrozen key
  let f := fun (c : Counter) => { c with
    event := r.arg o 2, unit := r.arg (o + 2) 2, master := r.arg (o + 4) 2, resetOnStart := bit (r.arg (o + 6) 1) 1,
    thresholdLog2 := r.arg (o + 7) 1, startContext := r.arg (o + 8) 4, value := if zero then 0 else c.value, wrapped := c.wrapped && !zero }
  m.setSvc (fun v => { v with ctr := { v.ctr with tbl := Tbl.updD v.ctr.tbl key Counter.init f } })

/-- COUNTER_CONFIG (R526). -/
def cmdCounterConfig : Cmd := fun r m =>
  match counterRange r 14 true m with
  | .inr rep => rep
  | .inl part =>
    let bad := (List.range (r.arg 4 1)).findSome? (fun n =>
      let o := 8 + 16 * n
      (m.counterBad part (r.arg o 2) (r.arg (o + 2) 2) (r.arg (o + 4) 2) (r.arg (o + 6) 1) (r.arg (o + 7) 1) (r.arg (o + 8) 4)
        (r.arg (o + 12) 4)).map (fun k => o + k))
    match bad with
    | some o => badArg m o
    | none => done (m.each (List.range (r.arg 4 1)) (fun m n => m.configCounter r part n))

/-- A counter in the value layout of R528. -/
def Counter.word (c : Counter) : Nat := c.value + b2n c.wrapped * 2 ^ 48 + b2n (c.event != 0) * 2 ^ 49

/-- The freeze in force on the counters of a scope: whether there is one, and its FREEZE_FTC, the earlier when two hold (R528, R530). -/
def Mod.freezeOf (m : Mod) (part : Option Nat) : Bool × Nat :=
  let own := match part with | some p => (Tbl.find m.mem.parts p).elim none (fun x => if x.frozen then some x.freezeFtc else none) | none => none
  match own, m.svc.ctr.moduleFrozen with
  | some a, true => (true, min a m.svc.ctr.freezeFtc)
  | some a, false => (true, a)
  | none, true => (true, m.svc.ctr.freezeFtc)
  | none, false => (false, 0)

/-- COUNTER_READ (R528). -/
def cmdCounterRead : Cmd := fun r m =>
  match counterRange r 27 false m with
  | .inr rep => rep
  | .inl part =>
    let fz := m.freezeOf part
    done m (le 4 (b2n fz.1) ++ le 4 0 ++ le 8 fz.2 ++
      (List.range (r.arg 4 1)).flatMap (fun n => le 8 (m.counter (ctrKey part (r.arg 2 2 + n))).word))

/-- Zero the counters that pass the test and that no freeze holds any more (R530). -/
def Mod.zeroCounters (m : Mod) (ok : Nat → Bool) : Mod :=
  m.setSvc (fun v => { v with ctr := { v.ctr with tbl := Tbl.mapV v.ctr.tbl (fun k c =>
    if ok k ∧ !m.ctrFrozen k then { c with value := 0, wrapped := false } else c) } })

/-- The key of a counter lies in a scope. -/
def inScope (part : Option Nat) (k : Nat) : Bool := match part with | some p => k / 64 = p | none => true

/-- COUNTER_FREEZE in an action (R530, R532, R547). -/
def cmdCounterFreeze : Cmd := fun r m =>
  let part := if r.arg 0 1 = 1 then none else some r.partD
  if 1 < r.arg 0 1 then badArg m 0
  else if r.arg 0 1 = 1 ∧ !r.manager then fail m .notPermitted
  else if 2 < r.arg 1 1 then badArg m 1
  else
    match r.arg 1 1, part with
    | 0, none => done (m.freezeModule.source 0)
    | 0, some p =>
      if (m.freezeOf (some p)).1 ∧ (Tbl.find m.mem.parts p).elim false (fun x => x.frozen) then done m
      else done ((m.setPart p (fun x => { x with frozen := true, freezeFtc := m.ftc })).frozenEvent 0 p)
    | a, part =>
      let m1 := match part with
        | some p => m.setPart p (fun x => { x with frozen := false, freezeFtc := 0 })
        | none => m.setSvc (fun v => { v with ctr := { v.ctr with moduleFrozen := false, freezeFtc := 0 } })
      done (if a = 2 then m1.zeroCounters (inScope part) else m1)

/-! ### The trace (R534 to R540) -/

/-- Whether a T0 interval starts before another, the later ones first. -/
def laterFirst (a b : Nat × Nat) : Bool := decide (b.1 ≤ a.1)

/-- Insert an interval into a list that is ordered with the later ones first. -/
def insertSpan (a : Nat × Nat) : List (Nat × Nat) → List (Nat × Nat)
  | [] => [a]
  | b :: l => if laterFirst a b then a :: b :: l else b :: insertSpan a l

/-- The highest free sectors below `hi`, `need` of them, given the intervals in use with the later ones first (R396). -/
def takeHigh : List (Nat × Nat) → Nat → Nat → List (Nat × Nat)
  | [], hi, need => if need = 0 then [] else [(hi - min hi need, min hi need)]
  | u :: rest, hi, need =>
    let gap := hi - (u.1 + u.2)
    let n := min gap need
    (if n = 0 then [] else [(hi - n, n)]) ++ takeHigh rest (min hi u.1) (need - n)

/-- A new carve-out of so many MiB: every event and every dump is discarded (R534). -/
def Mod.setCarve (m : Mod) (mib dump : Nat) : Mod :=
  let m1 := (m.setTrace (fun t => { t with carve := [], carveMiB := 0, dumpMiB := 0, state := .idle, events := [], dropped := 0, dropsNow := 0,
                                           buffered := [], postLeft := 0 })).setHang (fun h => { h with dumps := [] })
  let used := m1.t0Used.foldl (fun l u => insertSpan u l) []
  m1.setTrace (fun t => { t with carve := takeHigh used m1.t0Total (mib * 4096), carveMiB := mib, dumpMiB := dump })

/-- TRACE_CONFIG (R534). -/
def cmdTraceConfig : Cmd := fun r m =>
  let t := m.svc.trace
  let mib := r.arg 0 4
  let dump := r.arg 4 4
  if mib % 64 ≠ 0 ∨ 8192 < mib then badArg m 0
  else if dump % 64 ≠ 0 ∨ mib < dump then badArg m 4
  else if 2 < r.arg 8 1 then badArg m 8
  else if 16 < r.arg 9 1 then badArg m 9
  else if 1 < r.arg 0xB 1 then badArg m 0xB
  else if 0xFFF < r.arg 0xC 2 then badArg m 0xC
  else if 63 < r.arg 0xE 1 ∧ r.arg 0xE 1 ≠ 0xFF then badArg m 0xE
  else if r.arg 0xF 1 ≠ 0 then badArg m 0xF
  else if t.live then fail m .busy
  else if t.carveMiB < mib ∧ m.t0Free < (mib - t.carveMiB) * 1048576 then fail m .capacity
  else
    let m1 := if t.carveMiB = mib ∧ t.dumpMiB = dump then m else m.setCarve mib dump
    done (m1.setTrace (fun t => { t with
      mode := r.arg 8 1, pre16 := r.arg 9 1, triggerMask := r.arg 0xA 1, freezeOnTrigger := bit (r.arg 0xB 1) 0, classMask := r.arg 0xC 2,
      partition := r.arg 0xE 1, kindMask := r.arg 0x10 8, postEvents := r.arg 0x18 8 }))

/-- TRACE_ARM with ACTION 0, or an action that is refused (R538, R539). -/
def cmdTraceArm : Cmd := fun r m =>
  if 3 < r.arg 0 1 then badArg m 0
  else if m.svc.trace.capacity = 0 then fail m .capacity
  else done (m.setTrace (fun t => { t with state := .recording, events := [], dropped := 0, dropsNow := 0, buffered := [], postLeft := 0, stepped := false }))

/-- TRACE_ARM with ACTION 1 (R539). -/
def cmdTraceStop : Cmd := fun _ m => done (m.setTrace (fun t => if t.live then { t with state := .stopped } else t))

/-- TRACE_ARM with ACTION 2 (R532, R539). -/
def cmdTraceTrigger : Cmd := fun _ m => done (m.source 6)

/-- TRACE_ARM with ACTION 3 (R536, R539). -/
def cmdTraceMarker : Cmd := fun r m => done (m.traceEv 0 0x0F 0xFF 0 (r.arg 4 4) 0 (r.arg 8 8))

/-- The 32 bytes of a trace event (R535); RING for an entry of a hang ring. -/
def TraceEv.bytes (e : TraceEv) (ring : Bool) : List Byte :=
  le 8 e.ftc ++ le 2 e.unit ++ le 1 e.kind ++ le 1 (b2n e.post + 2 * b2n e.stepped + 4 * b2n ring) ++ le 1 e.partition ++ le 1 0 ++ le 2 e.a16 ++
    le 4 e.tag ++ le 4 e.a32 ++ le 8 e.a64

/-- DEST of TRACE_READ and DUMP_READ: none for all zero, or the LD and the address (R540). -/
def destArg (r : Req) (off need : Nat) (m : Mod) : Option (Nat × Nat) ⊕ (Mod × Reply) :=
  if (List.range 16).all (fun i => r.arg (off + i) 1 = 0) then .inl none
  else
    match r.buffer off with
    | .inr o => .inr (badArg m o)
    | .inl (a, n, sp) =>
      if sp ≠ 0 then .inr (badArg m (off + 12))
      else
        match r.ld with
        | none => .inr (fail m .notPermitted)
        | some l => if n < need then .inr (badArg m (off + 8)) else .inl (some (l, a))

/-- A DMA write of a result, when it has any bytes. -/
def Mod.dmaResult (m : Mod) (l a : Nat) (bs : List Byte) : Mod := if bs = [] then m else m.dmaWrite l a bs

/-- TRACE_READ (R540). -/
def cmdTraceRead : Cmd := fun r m =>
  let t := m.svc.trace
  match destArg r 0x10 (32 * r.arg 8 4) m with
  | .inr rep => rep
  | .inl dest =>
    if t.live then fail m .busy
    else
      let l := (t.events.drop (r.arg 0 8)).take (r.arg 8 4)
      match dest with
      | none => done m ((l.take 7).flatMap (fun e => e.bytes false))
      | some (ld, a) => done (m.dmaResult ld a (l.flatMap (fun e => e.bytes false))) (le 4 l.length ++ le 4 t.events.length)

/-! ### Hang rings and dumps (R541 to R546) -/

/-- HANG_RING_ENABLE (R541): every ring is cleared. -/
def cmdHangRingEnable : Cmd := fun r m =>
  let ms := r.arg 4 4
  if 0xFFF < r.arg 0 2 then badArg m 0
  else if 3 < r.arg 2 1 then badArg m 2
  else if r.arg 3 1 ≠ 0 then badArg m 3
  else if ms ≠ 0 ∧ (ms < 10 ∨ 60000 < ms) then badArg m 4
  else done (m.setHang (fun h => { h with classMask := r.arg 0 2, dumpOnHang := bit (r.arg 2 1) 0, crucibles := bit (r.arg 2 1) 1,
                                          hangMs := if ms = 0 then 1000 else ms, rings := [] }))

/-- The units of the enabled classes that keep rings, ascending (R541, R543). -/
def Hang.ringUnits (h : Hang) : List Nat :=
  ((List.range 12).flatMap (fun c => (List.range (classSize c)).map (fun i => c * 4096 + i))).filter h.keeps

/-- How a core stands (R545): 0 ISSUING, 1 WAIT_OPERAND, 2 WAIT_FETCH, 3 WAIT_RECV, 4 AT_BARRIER, 5 STOPPED, 6 KERNEL. Whether a core
that nothing from outside holds back issues or waits for an operand is a free choice. -/
def Mod.coreState (m : Mod) (c : Nat) : Nat × Mod :=
  let k := m.core c
  if m.test.running.any (fun r => r.1 = c) then (6, m)
  else if k.atBarrier then (4, m)
  else if k.stopped ∨ k.fault.isSome then (5, m)
  else
    match m.nextDesc c with
    | none => (5, m)
    | some i =>
      let sp := m.spansOf i
      if !spansFree k ({ k with waits := [] }.busyUnits m.treeType) sp then (2, m)
      else if !spansFree k (k.busyUnits m.treeType) sp then (3, m)
      else m.choose 2

/-- MSG_TAG or TREE_ID, and device, that a core awaits (R545). -/
def Core.awaits (k : Core) : Nat × Nat :=
  match k.waits with
  | .recv d _ t _ _ :: _ => (t, d)
  | .reduce t _ _ _ _ :: _ => (t, 0xFFFF)
  | [] => (0, 0xFFFF)

/-- The oldest outstanding tile reference in the layout of R263, or 0. -/
def Core.oldestTile (k : Core) : Nat :=
  let refs := k.fetches.map (fun f => (f.ticket, f.binding * 2 ^ 59 + (f.pane * 32 + f.tile) % 2 ^ 37)) ++
    k.stores.map (fun s => (s.ticket, s.binding * 2 ^ 59 + (s.pane * 32 + s.offset / 2048) % 2 ^ 37))
  match refs with
  | [] => 0
  | r :: rest => (rest.foldl (fun b x => if x.1 < b.1 then x else b) r).2

/-- The core state record (R545). EXPANDER_WAIT counts cycles, which the model does not have: a free value. -/
def Mod.coreRecord (m : Mod) (c beat : Nat) : List Byte × Mod :=
  let k := m.core c
  let st := m.coreState c
  let w := k.awaits
  let x := st.2.freeVal
  (le 2 c ++ le 1 st.1 ++ le 1 (packBits k.preds) ++ le 4 k.pc ++ (List.range 4).flatMap (fun d => le 4 (iterAt k.loops d).toNat) ++
    le 2 beat ++ le 1 (k.fetches.length + k.stores.length) ++ le 1 k.flags ++ le 1 k.msgs.length ++ le 1 k.loops.length ++ le 2 0 ++ le 8 m.ftc ++
    le 4 w.1 ++ le 2 w.2 ++ le 2 0 ++ le 8 k.oldestTile ++ le 8 x.1, x.2)

/-- Section 1 of a dump. -/
def Mod.coreRecords (m : Mod) (beat : Nat) : List Nat → List Byte × Mod
  | [] => ([], m)
  | c :: cs =>
    let a := m.coreRecord c beat
    let b := a.2.coreRecords beat cs
    (a.1 ++ b.1, b.2)

/-- One entry of section 2: the unit and its events, oldest first (R544). -/
def Mod.ringEntry (m : Mod) (unit : Nat) : List Byte :=
  let l := Tbl.findD m.svc.hang.rings unit []
  le 2 unit ++ le 1 l.length ++ le 13 0 ++ l.flatMap (fun e => e.bytes true) ++ List.replicate (32 * (64 - l.length)) 0

/-- Section 3: the partition's counters, then the global ones (R544). -/
def Mod.counterEntry (m : Mod) (part : Nat) : List Byte :=
  (List.range 64).flatMap (fun n => le 8 (m.counter (ctrKey (some part) n)).word) ++
    (List.range 1024).flatMap (fun n => le 8 (m.counter (ctrKey none n)).word)

/-- Bytes of a dump, with the offsets of its sections (R543, R544). -/
def dumpLayout (cores rings : Nat) (crucibles : Bool) : Nat × Nat × Nat × Nat :=
  let rs := 128 + 64 * cores
  let cs := rs + 2064 * rings
  (rs, cs, cs + 8704, cs + 8704 + (if crucibles then 245776 * cores else 0))

/-- A dump of a movement as sampled at the declaration (R543, R544). -/
def Mod.dumpBytes (m : Mod) (id reason slot : Nat) (v : Movement) : Mem × Mod :=
  let h := m.svc.hang
  let cores := coreSet v.image
  let units := h.ringUnits
  let lay := dumpLayout cores.length units.length h.crucibles
  let sec := fun (kind count entry off : Nat) => le 2 kind ++ le 2 count ++ le 4 entry ++ le 8 off
  let head := le 4 0x504D5544 ++ le 2 id ++ le 1 reason ++ le 1 (b2n h.crucibles) ++ le 8 lay.2.2.2 ++ le 8 m.ftc ++ le 4 (m.idOf slot) ++
    le 1 v.partition ++ le 1 0 ++ le 2 v.beat ++ le 8 (imgBuildId v.image) ++ le 2 (3 + b2n h.crucibles) ++ le 22 0 ++
    sec 1 cores.length 64 128 ++ sec 2 units.length 2064 lay.1 ++ sec 3 1 8704 lay.2.1 ++
    (if h.crucibles then sec 4 cores.length 245776 lay.2.2.1 else le 16 0)
  let recs := m.coreRecords v.beat cores
  let d1 := Mem.wrBytes [] 0 (head ++ recs.1 ++ units.flatMap m.ringEntry ++ m.counterEntry v.partition)
  let d2 := if h.crucibles then
      ((List.range cores.length).foldl (fun (d : Mem) i =>
        let o := lay.2.2.1 + 245776 * i
        Mem.wrLE (Mem.splice d (o + 16) 245760 (m.core (cores.getD i 0)).crucible) o 2 (cores.getD i 0)) d1)
    else d1
  (d2, recs.2)

/-- Take a dump of a movement, when the dump area has a run for it: the ID, or 0 with DUMP_NOT_TAKEN logged (R543). -/
def Mod.takeDump (m : Mod) (reason slot : Nat) (v : Movement) : Mod × Nat :=
  let h := m.svc.hang
  if !h.dumpOnHang ∨ m.svc.trace.dumpMiB = 0 then (m, 0)
  else
    let n := (dumpLayout (coreSet v.image).length h.ringUnits.length h.crucibles).2.2.2
    match lowestRun (h.dumps.map (fun d => (d.at_, d.bytes))) (m.svc.trace.dumpMiB * 1048576) n 1 with
    | none => (m.logErr { unit := 1, code := 0x0004, sev := .info, partition := v.partition, context := m.idOf slot, detail := ceilDiv n 1024 }, 0)
    | some a =>
      let id := h.nextDump
      let d := m.dumpBytes id reason slot v
      let dump : Dump := { id := id, reason := reason, partition := v.partition, bytes := n, at_ := a, data := d.1, written := false }
      (d.2.setHang (fun h => { h with dumps := h.dumps ++ [dump], nextDump := if id = 65535 then 1 else id + 1 }), id)

/-- A hang is declared: dump, log record, event, trigger. -/
def Mod.hangDeclared (m : Mod) (slot : Nat) (v : Movement) : Mod :=
  let stop := v.state = .stopping
  let m0 := m.setMv slot (fun x => if stop then { x with hangStop := true } else { x with hangDeclared := true })
  let late := (coreSet v.image).filter (fun c => !((m.core c).atBarrier || (stop && (m.core c).stopped)))
  let first := match late with | c :: _ => c | [] => (coreSet v.image).headD 0
  let d := m0.takeDump (if stop then 2 else 1) slot v
  let m1 := d.1.logErr { unit := coreUnit first, code := 0x010A, sev := .contained, partition := v.partition, context := m.idOf slot,
                         count := d.2, detail := v.beat + late.length * 65536 }
  (m1.raise 0x0C01 v.partition (d.2 + v.beat * 2 ^ 16 + late.length * 2 ^ 32) 0 (m.idOf slot)).source 4

/-- HANG_DECLARE: the beat of a RUNNING movement, or the stop of a STOPPING one, has not ended HANG_MS after it began; at most one
hang for each beat and one for each stop (R542). The movement itself does not change. -/
def Mod.declareHang (m : Mod) (slot : Nat) : Mod :=
  match Tbl.find m.mvs slot with
  | none => m
  | some v =>
    let stop := v.state = .stopping
    if (v.state ≠ .running ∧ v.state ≠ .stopping) ∨ (if stop then v.hangStop else v.hangDeclared) then m
    else
      m.hangDeclared slot v

/-- HANG_DECLARE (R542, R543). -/
def execHangDeclare (slot : SlotNo) (s : State) : Out := s.act (fun m => m.declareHang slot.toNat)

/-- DUMP_WRITE_COMPLETE: the dump stands in the dump area, and every ring records again (R543). -/
def execDumpWriteComplete (dump : Nat) (s : State) : Out :=
  s.act (fun m => m.setHang (fun h => { h with dumps := h.dumps.map (fun d => if d.id = dump then { d with written := true } else d) }))

/-- Dumps that are held: those that have been written. -/
def Hang.held (h : Hang) : List Dump := h.dumps.filter (fun d => d.written)

/-- DUMP_READ (R546). -/
def cmdDumpRead : Cmd := fun r m =>
  let id := r.arg 0 2
  let flags := r.arg 2 1
  if 3 < flags then badArg m 2
  else if bit flags 1 then
    if id ≠ 0 then badArg m 0
    else if (List.range 16).any (fun i => r.arg (0x10 + i) 1 ≠ 0) then badArg m 0x10
    else done m ((m.svc.hang.held.take 28).flatMap (fun d => le 2 d.id ++ le 1 d.reason ++ le 1 d.partition ++ le 4 (ceilDiv d.bytes 1024)))
  else
    match m.svc.hang.held.find? (fun d => d.id = id) with
    | none => badArg m 0
    | some d =>
      match destArg r 0x10 0 m with
      | .inr rep => rep
      | .inl dest =>
        let rest := d.bytes - r.arg 8 8
        let n := min rest (if dest.isSome then r.arg 0x18 4 else 224)
        let bs := Mem.block d.data (r.arg 8 8) n
        let m1 := if bit flags 0 then m.setHang (fun h => { h with dumps := h.dumps.filter (fun x => x.id != id) }) else m
        match dest with
        | none => done m1 bs
        | some (ld, a) => done (m1.dmaResult ld a bs) (le 8 n)

/-! ### Tensor watch (R548, R549) -/

/-- DUMP_TENSOR (R548). -/
def cmdDumpTensor : Cmd := fun r m =>
  match m.mvArg r with
  | none => badArg m 0
  | some (s, v) =>
    let raw := bit (r.arg 8 1) 0
    let need := (symbolAt v.image (r.arg 4 2)).2.2.2.2 * ((if raw then 65536 else 65792) + 16)
    let isKind := fun (k kind : Nat) => decide (k < imgSymbols v.image) && (symbolAt v.image k).1 == kind
    if v.state = .loading then badArg m 0
    else if !isKind (r.arg 4 2) 1 then badArg m 4
    else if !isKind (r.arg 6 2) 2 then badArg m 6
    else if 1 < r.arg 8 1 then badArg m 8
    else if r.arg 9 7 ≠ 0 then badArg m 9
    else
      match r.buffer 0x10 with
      | .inr o => badArg m o
      | .inl (a, n, sp) =>
        if sp ≠ 0 then badArg m 0x1C
        else if r.ld = none then fail m .notPermitted
        else if n < need then badArg m 0x18
        else if 4 ≤ (m.svc.hang.captures.filter (fun c => c.movement = s)).length then fail m .noResource
        else
          match m.newCtx r (.dumpTensor s) .none none with
          | (m1, .inr e) => (m1, e)
          | (m1, .inl k) =>
            let c : Capture := { ctxSlot := k, movement := s, tensor := r.arg 4 2, step := r.arg 6 2, raw := raw, dest := a, destLen := n, holding := false }
            (m1.setHang (fun h => { h with captures := h.captures ++ [c] }), { status := .accepted, context := m1.idOf k })

/-- The record of a pane of a binding at its home on this module: none in the outer place for a pane whose home is another module. -/
def Mod.boundPane (m : Mod) (b : Nat × Nat) (pane : Nat) : Option (Option PaneRec) :=
  match m.bindSel b with
  | none => some none
  | some sel =>
    if b.2 < 0x8000 then some ((m.recAt b.2 sel pane).map (fun x => x.2))
    else
      match Tbl.find m.fm.regions (b.2 - 0x8000) with
      | none => some none
      | some f =>
        match f.entry pane with
        | none => some none
        | some e =>
          if e.home = m.fab.deviceId ∧ !f.accessor then some ((m.recAt f.localRegion (m.partSel sel) (f.localPane e pane)).map (fun x => x.2))
          else none

/-- What a capture writes for a pane: its data, its map entry and its poison mask (R549). The bytes of a poisoned tile, and what is
written for a pane whose home is another module, are free values. -/
def Mod.capturePane (m : Mod) (b : Nat × Nat) (pane : Nat) (raw : Bool) : List Byte × Nat × Nat :=
  match m.boundPane b pane with
  | none => ((Config.freeBytes m.freeIx).take (if raw then 65536 else 65792), Config.freeNat m.freeIx, Config.freeNat (m.freeIx + 1) % 2 ^ 32)
  | some none => ([], unbackedEntry, 0)
  | some (some x) =>
    let c := m.readAll x
    let bad := tilePoison c.2
    let mask := if x.state = .poisoned then 2 ^ 32 - 1 else packBits bad
    let free := fun (t : Nat) => (Config.freeBytes (m.freeIx + t) ++ List.replicate 2048 0).take 2048
    if x.tier = .unbacked ∧ x.state ≠ .poisoned then ([], x.entry, 0)
    else if raw then ((List.range 32).flatMap (fun t => if bit mask t then free t else c.1.getD t []), x.entry, mask)
    else if x.form = .raw then ((List.range 32).flatMap (fun t => if bit mask t then free t else c.1.getD t []), x.entry, mask)
    else if x.form = .zero then ([], x.entry, mask)
    else (Mem.block x.img 0 (x.sectors * 256), x.entry, mask)

/-- A capture is written and its context completes. -/
def Mod.captured (m : Mod) (slot : Nat) (v : Movement) (c : Capture) : Mod :=
  let sym := symbolAt v.image c.tensor
  let size := if c.raw then 65536 else 65792
  let b := v.bindings.getD sym.2.1 (65536, 0)
  let n := sym.2.2.2.2
  let ld := (Tbl.find m.ctxs c.ctxSlot).bind (fun x => x.chanOwner.ldNo)
  let put := fun (m : Mod) (a : Nat) (bs : List Byte) => match ld with | some l => m.dmaResult l a bs | none => m
  let m1 := m.each (List.range n) (fun m i =>
    let p := m.capturePane b (sym.2.2.2.1 + i) c.raw
    let m2 := { put m (c.dest + i * size) p.1 with freeIx := m.freeIx + 32 }
    put m2 (c.dest + n * size + 16 * i) (le 8 p.2.1 ++ le 4 p.2.2 ++ le 4 p.1.length))
  let m2 := (m1.setHang (fun h => { h with captures := h.captures.filter (fun x => x.ctxSlot != c.ctxSlot) })).finish c.ctxSlot .ok 0
    (n + v.runs % 2 ^ 32 * 2 ^ 32)
  m2.releaseBarrier slot

/-- CAPTURE_TAKEN: the capture that holds the release of a movement's barrier has read every pane; it is written, its context completes,
and the release proceeds, unless another capture is due (R549, R552, R620). -/
def Mod.captureTaken (m : Mod) (slot : Nat) : Mod :=
  match Tbl.find m.mvs slot, m.svc.hang.captures.find? (fun c => c.movement = slot && c.holding) with
  | some v, some c =>
    m.captured slot v c
  | _, _ => m

/-- CAPTURE_TAKEN (R549). -/
def execCaptureTaken (slot : SlotNo) (s : State) : Out := s.act (fun m => m.captureTaken slot.toNat)

/-! ### The rows -/

def actionIs (off n : Nat) (slot : Mem) : Bool := slotArg slot off 1 = n
/-- ACTION 0 of COUNTER_FREEZE, or an action that is refused. -/
def freezeForm (slot : Mem) : Bool := !actionIs 1 1 slot && !actionIs 1 2 slot
/-- ACTION 0 of TRACE_ARM, or an action that is refused. -/
def armForm (slot : Mem) : Bool := !actionIs 0 1 slot && !actionIs 0 2 slot && !actionIs 0 3 slot

/-- COUNTER_CONFIG (R526). -/
def execCounterConfig (ch : ChanNo) (s : State) : Out := s.mailbox ch 0x0C00 anyForm cmdCounterConfig
/-- COUNTER_FREEZE with ACTION FREEZE (R530). -/
def execCounterFreeze (ch : ChanNo) (s : State) : Out := s.mailbox ch 0x0C01 freezeForm cmdCounterFreeze
/-- COUNTER_FREEZE with ACTION THAW (R530). -/
def execCounterThaw (ch : ChanNo) (s : State) : Out := s.mailbox ch 0x0C01 (actionIs 1 1) cmdCounterFreeze
/-- COUNTER_FREEZE with ACTION THAW_ZERO (R530). -/
def execCounterThawZero (ch : ChanNo) (s : State) : Out := s.mailbox ch 0x0C01 (actionIs 1 2) cmdCounterFreeze
/-- COUNTER_READ (R528). -/
def execCounterRead (ch : ChanNo) (s : State) : Out := s.mailbox ch 0x0C02 anyForm cmdCounterRead
/-- TRACE_CONFIG (R534). -/
def execTraceConfig (ch : ChanNo) (s : State) : Out := s.mailbox ch 0x0C03 anyForm cmdTraceConfig
/-- TRACE_ARM with ACTION ARM (R539). -/
def execTraceArm (ch : ChanNo) (s : State) : Out := s.mailbox ch 0x0C04 armForm cmdTraceArm
/-- TRACE_ARM with ACTION STOP (R539). -/
def execTraceStop (ch : ChanNo) (s : State) : Out := s.mailbox ch 0x0C04 (actionIs 0 1) cmdTraceStop
/-- TRACE_ARM with ACTION TRIGGER (R539). -/
def execTraceManualTrigger (ch : ChanNo) (s : State) : Out := s.mailbox ch 0x0C04 (actionIs 0 2) cmdTraceTrigger
/-- TRACE_ARM with ACTION MARKER (R539). -/
def execTraceMarker (ch : ChanNo) (s : State) : Out := s.mailbox ch 0x0C04 (actionIs 0 3) cmdTraceMarker
/-- TRACE_READ (R540). -/
def execTraceRead (ch : ChanNo) (s : State) : Out := s.mailbox ch 0x0C05 anyForm cmdTraceRead
/-- HANG_RING_ENABLE (R541). -/
def execHangRingEnable (ch : ChanNo) (s : State) : Out := s.mailbox ch 0x0C06 anyForm cmdHangRingEnable
/-- DUMP_READ (R546). -/
def execDumpRead (ch : ChanNo) (s : State) : Out := s.mailbox ch 0x0C07 anyForm cmdDumpRead
/-- DUMP_TENSOR (R548). -/
def execDumpTensor (ch : ChanNo) (s : State) : Out := s.mailbox ch 0x0C08 anyForm cmdDumpTensor

end Sys2Proof.Machine
end

