-- ==== Sys2Proof/Machine/Rungs.lean ====
section
/-! DEFINITION. The rung ladder (spec/18_power_coolant_rungs.md R562 to R567, R573, R574): what holds the module up, descent and its
preparation, entry and exit. -/
namespace Sys2Proof.Machine

/-! ### What holds the module at a rung (R563, R564, R574) -/

/-- Sectors of the kept part of T0 (R395, R573). -/
def Mod.keptSectors (m : Mod) : Nat :=
  match m.pow.kept with
  | 0 => m.t0Total / 8
  | 1 => m.t0Total / 4
  | 2 => m.t0Total / 2
  | _ => m.t0Total

/-- A pane record that takes T0. -/
def PaneRec.inT0 (x : PaneRec) : Bool := x.tier == Tier.t0 && x.form != PForm.zero

/-- A move, an encode, a copy or a heal of a pane is in progress. -/
def Mod.movesGoOn (m : Mod) : Bool :=
  m.mem.recs.any (fun x => x.2.dest.isSome || x.2.old.isSome || x.2.unpacking.isSome || x.2.sealEncode) || m.mem.cows != [] || m.svc.heals != []

/-- The context runs work of an engine. -/
def Work.onEngine : Work → Bool
  | .none => false
  | .setRung _ => false
  | .dumpTensor _ => false
  | .ftcSync _ => false
  | .stopRun _ => false
  | .discover _ _ => false
  | _ => true

/-- Work of an internal engine is queued or in progress, the sweep of T0 included (R348, R563). -/
def Mod.engineWork (m : Mod) : Bool :=
  m.t0.sweeping || m.movesGoOn || m.mem.heldWrites != [] || m.mem.heldReads != [] || m.svc.scrub.isSome || m.test.running != [] ||
  m.mem.regions.any (fun g => g.2.persisting != []) ||
  m.ctxs.any (fun c => (c.2.state == CtxState.active || c.2.state == CtxState.cancelling) && c.2.work.onEngine)

/-- Traffic of hosts and of the fabric. -/
def Mod.traffic (m : Mod) : Bool :=
  m.bufs != [] || m.fm.requests != [] || m.fab.ports.any (fun f => f.egress != [] || f.arrived != []) || m.lds.any (fun d => d.2.reads != [])

/-- A loaded movement runs. -/
def Mod.mvLive (m : Mod) : Bool := m.mvs.any (fun v => v.2.state == MvState.running || v.2.state == MvState.stopping)

/-- A stream is OPEN or STOPPING (R376). -/
def Mod.streamLive (m : Mod) : Bool := m.streams.any (fun t => t.2.state == StreamState.open || t.2.state == StreamState.stopping)

/-- The region of a record is PIN_T0. -/
def Mod.pinned (m : Mod) (x : PaneRec) : Bool := (Tbl.find m.mem.regions x.region).elim false (fun g => m.residency g == Residency.pinT0)

/-- A PIN_T0 region has a backed pane. -/
def Mod.pinBacked (m : Mod) : Bool :=
  m.mem.recs.any (fun x => x.2.tier != Tier.unbacked && m.pinned x.2)

/-- The place of a record lies wholly in the kept part, or it is an immutable pane with a parked slot that is not PIN_T0 (R397). -/
def Mod.keptOk (m : Mod) (k : Nat) (x : PaneRec) : Bool :=
  !x.inT0 || decide (x.loc + x.sectors ≤ m.keptSectors) || (m.immutable k x && x.parked.isSome && !m.pinned x)

/-- R397 holds for the chosen kept fraction. -/
def Mod.keptHolds (m : Mod) : Bool :=
  m.mem.recs.all (fun x => m.keptOk x.1 x.2) &&
  m.mvs.all (fun v => v.2.imageAt.elim true (fun a => decide (a + ceilDiv v.2.length 256 ≤ m.keptSectors))) &&
  m.mem.mapCarve.all (fun u => decide (u.1 + u.2 ≤ m.keptSectors))

/-- The blockers, by bit of BLOCKERS, of one rung; a deeper rung has those of the rungs above it as well. -/
def Mod.blockersAt (m : Mod) (r : Nat) : List Nat :=
  let on := fun (c : Bool) (i : Nat) => if c then [i] else []
  match r with
  | 1 => on m.mvLive 0 ++ on (m.test.running != [] || m.t0.sweeping) 2
  | 2 => on m.streamLive 1 ++ on m.engineWork 2 ++ on (m.chans.any (fun c => c.2.inflight.isSome)) 3 ++ on m.traffic 4 ++
         on (m.boot.readiness == .draining || m.boot.readiness == .failedReplace) 11
  | 3 => on (!m.keptHolds) 5 ++ on (m.t2.writeBuf != []) 6
  | 4 => on (m.mvs != []) 7 ++ on m.pinBacked 8 ++ on (m.mem.mapInT0 && m.reservedExtents != 0) 9 ++ on (!m.t2.inService) 10 ++
         on (m.mem.recs.any (fun x => x.2.inT0)) 12
  | _ => []

/-- What holds the module above its resting rung, as BLOCKERS (R574). -/
def Mod.blockers (m : Mod) : Nat :=
  let l := (List.range (max 1 m.pow.resting)).flatMap (fun i => m.blockersAt (i + 1))
  packBits ((List.range 13).map (fun i => l.contains i))

/-! ### Descent (R563, R564, R573) -/

/-- The module enters a rung: it is counted, a descent that MODE NOW asked for ends with OK at its rung, and what the rung loses is lost
(R562). -/
def Mod.enterRung (m : Mod) (r : Nat) : Mod :=
  let m0 := m.setPow (fun p => { p with preparing := false, entries := p.entries.modify (r - 1) (satInc (2 ^ 32 - 1)) })
  let m1 := match m0.pow.nowCtx with
    | some c => if max 1 m0.pow.resting ≤ r then (m0.setPow (fun p => { p with nowCtx := none })).finish c .ok 0 0 else m0
    | none => m0
  let m2 := if r = 2 then
      ({ m1 with cores := Tbl.mapV m1.cores (fun _ k => { k with crucible := [], origins := [], tables := [] }) } : Mod).setHang (fun h =>
        { h with rings := h.rings.filter (fun x => decide (x.1 / 4096 ≠ 1)) })
    else if 3 ≤ r then m1.setHang (fun h => { h with rings := [] }) else m1
  (if 2 ≤ r then m2.closeT0 else m2).setRung r

/-- Where the preparation puts a pane's T0 home: relocated within T0, or evicted (R564). -/
def Mod.prepareHome (m : Mod) (all : Bool) (k : Nat) : Mod :=
  match Tbl.find m.mem.recs k with
  | none => m
  | some x =>
    if !x.inT0 ∨ x.state ≠ .stable ∨ (!all ∧ decide (x.loc + x.sectors ≤ m.keptSectors)) then m
    else
      match Tbl.find m.mem.regions x.region with
      | none => m
      | some g =>
        if m.pinned x then
          (match lowestRun m.t0Used m.keptSectors x.sectors (if g.packed then 1 else 256) with
            | some s => m.setRec k (fun x => { x with state := .movingUp, demand := true, dest := some { tier := .t0, loc := s, sectors := x.sectors } })
            | none => m)
        else m.startEvict k

/-- A movement image area above the kept part goes to free sectors within it (R564). -/
def Mod.prepareImage (m : Mod) (v : Nat × Movement) : Mod :=
  match v.2.imageAt with
  | none => m
  | some a =>
    let n := ceilDiv v.2.length 256
    if a + n ≤ m.keptSectors then m
    else match lowestRun m.t0Used m.keptSectors n 1 with
      | some s => m.setMv v.1 (fun x => { x with imageAt := some s })
      | none => m

/-- The preparation for P3, or for P4 when the resting rung is 4 and nothing but T0 homes stands in its way (R564). -/
def Mod.prepare (m : Mod) : Mod :=
  let all := decide (4 ≤ m.pow.resting) && (m.blockersAt 4).all (fun i => i == 12)
  let m1 := m.setPow (fun p => { p with preparing := true })
  let m2 := m1.each m1.mvs Mod.prepareImage
  m2.each (Tbl.keys m2.mem.recs) (fun m k => m.prepareHome all k)

/-- The module may descend from its rung at all (R563). -/
def Mod.mayDescend (m : Mod) : Bool :=
  m.pow.phase = .on && !m.pow.modReset && (m.boot.readiness == .ready || m.boot.readiness == .draining) && decide (m.pow.rung < max 1 m.pow.resting)

/-- RUNG_DESCENT (R563): one rung towards the resting rung, after IDLE_US without activity or at once under MODE NOW; P1 and P2 are entered
when their preconditions hold, and P3 and P4 are prepared. -/
def execRungDescent (s : State) : Out :=
  s.act (fun m =>
    let r := m.pow.rung + 1
    if !m.mayDescend ∨ m.pow.preparing ∨ (List.range (min r 2)).any (fun i => m.blockersAt (i + 1) != []) then m
    else if r ≤ 2 then m.enterRung r
    else m.prepare)

/-- A port says GOODBYE and stays DOWN (R322). -/
def Mod.goodbyePort (m : Mod) (i : Nat) : Mod :=
  let f := m.fport i
  if f.state = .disabled ∨ f.state = .failed then m
  else
    let m1 := if f.linked then m.sendCtl i (leBytes 1 3) else m
    (m1.losePort i 3).setFport i (fun f => { f with state := .down })

/-- Immutable panes that still lie above the kept part become their parked images, by pointer swap (R121, R564). -/
def Mod.swapParked (m : Mod) (k : Nat) : Mod :=
  match Tbl.find m.mem.recs k with
  | some x => if x.inT0 ∧ m.keptSectors < x.loc + x.sectors then ((m.startEvict k).evictCommit k .good).freeOld k else m
  | none => m

/-- The effect of the row of `execRungEntry` where it acts. -/
def Mod.enterDeepRung (m : Mod) : Mod :=
  let r := m.pow.rung + 1
  let m1 := m.each (Tbl.keys m.mem.recs) Mod.swapParked
  let m2 := if m1.t2.inService then m1.commitJournal else m1
  (m2.each (List.range 16) Mod.goodbyePort).enterRung r

/-- RUNG_ENTRY (R564): the preparation has ended with every precondition met; the journal is committed, the fabric ports say GOODBYE, and the
module enters P3 or P4. -/
def execRungEntry (s : State) : Out :=
  s.act (fun m =>
    let r := m.pow.rung + 1
    if !m.mayDescend ∨ !m.pow.preparing ∨ r < 3 ∨ 4 < r ∨ (List.range r).any (fun i => m.blockersAt (i + 1) != []) then m
    else m.enterDeepRung)

/-! ### Waking (R66, R319, R395, R537, R566, R567) -/

/-- Presence changes that were latched at P3 and P4 are handled, and the fabric ports train again by themselves (R322, R566). -/
def Mod.portsBack (m : Mod) : Mod :=
  let m1 := m.each (List.range 16) (fun m i => if (m.fport i).state = .down ∧ m.canTrain i then m.setFport i (fun f => { f with state := .training }) else m)
  if !m1.pow.presenceLatched then m1
  else (m1.setPow (fun p => { p with presenceLatched := false })).each (List.range 8) (fun m d =>
    let now := m.pow.dsPrsnt.getD d false
    if (m.t1.getD d T1Port.init).present = now then m else m.dsPresence d now)

/-- The exit from P3 or P4: the part of T0 that was not kept is swept, and a trace whose carve-out was not kept is IDLE with no events and no
dumps. -/
def Mod.exitDeep (m : Mod) (r : Nat) : Mod :=
  let k := if m.pow.rung = 4 then 0 else m.keptSectors
  let m1 := if k < m.t0Total then { m with t0 := { m.t0 with sweeping := true, kept := k, owed := [] } } else m
  let m2 := if m1.svc.trace.carve.any (fun c => decide (k < c.1 + c.2)) then
      (m1.setTrace (fun t => { t with state := .idle, events := [], postLeft := 0, buffered := [], dropsNow := 0 })).setHang (fun h => { h with dumps := [] })
    else m1
  (m2.setRung r).portsBack

/-- A wake with its cause (LAST_WAKE of R574, none where it has no code) and the rung that it needs, none for the Gaffer's domain alone. -/
def Mod.wake (m : Mod) (cause : Option Nat) (rung : Option Nat) : Mod :=
  let m1 := m.activity.setPow (fun p => { p with lastWake := cause.getD p.lastWake })
  match rung with
  | none => m1
  | some r =>
    if m1.pow.rung ≤ r ∨ m1.boot.readiness = .failedReplace then m1
    else
      let f := m1.freeVal
      let m2 := f.2.setPow (fun p => { p with lastExitNs := f.1 % 2 ^ 32 })
      if m.pow.rung ≤ 2 then m2.setRung r else m2.exitDeep r

/-- The Gaffer writes the records of leak detections that waited for it (R36). -/
def Mod.writeLeaks (m : Mod) : Mod :=
  (m.each m.pow.leakPending (fun m d =>
    m.logErr { unit := 0xB00F, code := d.1, sev := .unit, times := some (d.2.1, d.2.2) })).setPow (fun p => { p with leakPending := [] })

/-- WAKE (R566). A doorbell wakes for the group of a command that waits; a presence change at P3 and P4 stays latched; the exit of a host link
from L1, on a free choice of the ports in L1, wakes to P1. -/
def execWake (cause : WakeCause) (s : State) : Out :=
  s.act (fun m =>
    if m.pow.phase ≠ .on ∨ m.pow.modReset then m
    else
      match cause with
      | .doorbell g =>
        let waits := m.gaffer.order.any (fun ch => ((Tbl.find m.chans ch).bind (fun c => c.inflight)).elim false (fun f => slotOpcode f.slot / 256 = g.toNat))
        if !waits then m
        else { m.wake (some 1) (if [0x00, 0x01, 0x02, 0x09, 0x0E, 0x0F].contains g.toNat then none else some 1) with gaffer := { m.gaffer with wakeLatched := false } }
      | .hostLink =>
        let c := m.chooseFrom 4 (fun h => (m.port h).inL1)
        (match c.1 with
          | some h => c.2.setPort h (fun p => { p with inL1 := false, inL12 := false })
          | none => m).wake (some 2) (some 1)
      | .fabric => if m.pow.rung ≤ 2 then m.wake (some 3) (some 1) else m
      | .lease cleanup => m.wake (some 4) (if cleanup then some 1 else none)
      | .leak => (m.wake (some 5) none).writeLeaks
      | .sideband => if m.pow.sbVrefLow then m else m.wake (some 6) none
      | .presence => if m.pow.rung ≤ 2 then m.wake (some 7) (some 1) else m
      | .timer => m.wake none none)

/-! ### POWER_SET_RUNG and POWER_QUERY (R573, R574) -/

/-- POWER_SET_RUNG. DETAIL of BUSY gives the blocker as its bit of BLOCKERS. -/
def cmdPowerSetRung : Cmd := fun r m =>
  let rung := r.arg 0 1
  let keep := { m with pow := { m.pow with kept := r.arg 2 1 } }.keptSectors
  if 4 < rung then badArg m 0
  else if 1 < r.arg 1 1 then badArg m 1
  else if 3 < r.arg 2 1 ∨ (rung ≠ 3 ∧ r.arg 2 1 ≠ 0) then badArg m 2
  else if r.arg 3 1 ≠ 0 then badArg m 3
  else if r.arg 4 4 ≠ 0 ∧ (r.arg 4 4 < 10 ∨ 10000000 < r.arg 4 4) then badArg m 4
  else if 2 ≤ rung ∧ m.streamLive then fail m .busy 2
  else if rung = 4 ∧ m.mvs != [] then fail m .busy (2 ^ 7)
  else if rung = 4 ∧ m.pinBacked then fail m .busy (2 ^ 8)
  else if rung = 4 ∧ (!m.t2.inService ∨ (!m.t1Usable ∧ m.reservedExtents ≠ 0)) then fail m .notPermitted 0x0E01
  else if rung = 3 ∧ keep * 256 < sumOf (m.mem.recs.map (fun x => if m.pinned x.2 then x.2.bytesIn .t0 else 0)) +
      sumOf (m.mvs.map (fun v => if v.2.imageAt.isSome then ceilDiv v.2.length 256 * 256 else 0)) + 16 * m.t0Panes + (if m.mem.mapInT0 then m.reservedExtents * 65536 else 0) then
    fail m .capacity
  else
    let m1 := m.activity.setPow (fun p => { p with resting := rung, kept := r.arg 2 1, idleUs := if r.arg 4 4 = 0 then 1000 else r.arg 4 4 })
    if r.arg 1 1 = 0 then done m1
    else
      match m1.newCtx r (.setRung rung) .none none with
      | (_, .inr rep) => (m, rep)
      | (m2, .inl n) => (m2.setPow (fun p => { p with nowCtx := some n }), { status := .accepted, context := m2.idOf n })

/-- POWER_SET_RUNG (R573). -/
def execPowerSetRung (ch : ChanNo) (s : State) : Out := s.mailbox ch 0x0E00 anyForm cmdPowerSetRung

/-- POWER_QUERY. -/
def cmdPowerQuery : Cmd := noArgs fun _ m =>
  let p := m.pow
  done m (le 1 p.rung ++ le 1 p.resting ++ le 1 p.kept ++ le 1 0 ++ le 4 p.idleUs ++ le 4 m.blockers ++ le 4 0 ++ p.entries.flatMap (le 4) ++
    le 4 p.lastExitNs ++ le 1 p.lastWake ++ le 3 0)

/-- POWER_QUERY (R574). -/
def execPowerQuery (ch : ChanNo) (s : State) : Out := s.mailbox ch 0x0E01 anyForm cmdPowerQuery

end Sys2Proof.Machine
end

