-- ==== Sys2Proof/Machine/Resets.lean ====
section
/-! DEFINITION. The cold reset and what it keeps, the power-on, the input faults and the sideband pins (spec/01_module_package.md R29 to R31,
spec/18_power_coolant_rungs.md R554 to R560, R572, spec/19_bringup_lifecycle_security.md R590, R594, R596, spec/22_electrical_timing.md R649
to R655). -/
namespace Sys2Proof.Machine

/-! ### Output pins (R37, R554, R559, R569, R572, R649) -/

/-- The sustained limit in force (R559): the least of the host limit, the input limit and the coolant limit. -/
def Power.sustained (p : Power) : Nat := min p.hostLimit (min (if p.inputLow then 600 else 1150) p.coolantLimit)

def Power.alert (p : Power) : Bool := p.phase = .on && (p.inputLow || decide (p.coolantLimit < 1150) || p.capFail)

/-- LEAK# stays asserted while the cord is classified LEAK or SENSOR_OPEN and while either flag is set (R37). -/
def Power.leak (p : Power) : Bool := (p.phase = .on || p.phase = .tripped) && (p.leakClass != 0 || p.leakFlag || p.sensorFlag)

/-- Drive one pin that has changed. -/
def Mod.drive (m : Mod) (name : String) (old new float : Bool) : Mod := if old = new ∨ float then m else m.send (.pin name new)

/-- Drive the output pins to what the state gives: ALERT#, LEAK# and THERMTRIP# low while asserted; MOD_PWRGD high while VIB and VBAL are in
regulation; and the pins of the ports. -/
def Mod.syncPins (m : Mod) : Mod :=
  let p := m.pow
  let m1 := (m.drive "ALERT#" (!p.alertPin) (!p.alert) false).drive "LEAK#" (!p.leakPin) (!p.leak) false
  let m2 := m1.drive "THERMTRIP#" (!p.thermtripPin) (!(p.phase = .tripped)) false
  ((m2.drive "MOD_PWRGD" p.modPwrgd (p.phase = .on) p.sbVrefLow).setPow (fun p => { p with
    alertPin := p.alert, leakPin := p.leak, thermtripPin := p.phase = .tripped, modPwrgd := p.phase = .on })).syncPorts

/-! ### Cold reset (R594, R596) -/

/-- What a boot that has not reached READY within 20 s does to its image's record (R589, R593). -/
def Boot.noteFailure (b : Boot) (now : Nat) : Boot :=
  match b.booted with
  | some i => if b.readiness = .booting ∧ !b.recovery ∧ b.lifecycle ≠ 5 ∧ 20000000000 < now then { b with slots := b.slots.modify i (fun s => { s with failedBoots := s.failedBoots + 1 }) } else b
  | none => b

/-- A cold reset (R594): everything takes its reset value but the boot store, the flash array, the steps and fences of R510, the records that
the journal holds (R492), the pins and the sticky bank; the boot key is replaced. -/
def Mod.coldReset (m : Mod) : Mod :=
  let b := m.boot.noteFailure m.localTime
  let t := m.t2
  let p := m.pow
  { Mod.init with
    n128 := m.n128, out := m.out, freeIx := m.freeIx,
    ports := m.ports.map (fun h => { HostPort.init with perst := h.perst })
    svc := { Mod.init.svc with err := { ErrLog.init with journalled := m.svc.err.journalled } }
    pow := { Power.init with phase := p.phase, pwrPrsnt := p.pwrPrsnt, pwrEn := p.pwrEn, modReset := p.modReset, pwrEnPin := p.pwrEnPin,
                             modResetPin := p.modResetPin, slotId := p.slotId, inputFault := p.inputFault, modPwrgd := p.modPwrgd,
                             leakPin := p.leakPin, alertPin := p.alertPin, thermtripPin := p.thermtripPin, sbVrefLow := p.sbVrefLow,
                             hmPrsnt := p.hmPrsnt, dsPrsnt := p.dsPrsnt, fPrsnt := p.fPrsnt, dPerstOut := p.dPerstOut, dRefclkOut := p.dRefclkOut, vcblOut := p.vcblOut, inputLow := p.inputLow, sticky := p.sticky }
    t0 := { Tier0.init with layout := b.ownerConfig.elim 0x11 (fun c => (c.getD 0 0).toNat) }
    t2 := { Tier2.init with lostChannels := t.lostChannels, lostDies := t.lostDies, retired := t.retired, readOnly := t.readOnly,
                            saved := t.saved, destroyed := t.destroyed }
    test := { Test.init with
      cores := Tbl.mapV m.test.cores (fun _ k => { CoreTest.init with step := k.pendingStep.getD k.step, fenced := k.fenced || k.fencePending })
      units := Tbl.mapV m.test.units (fun _ u => (u.1, [])) }
    boot := { Boot.init with
      slots := b.slots, active := b.active, katStored := b.katStored, katDigest := b.katDigest, katNext := b.katNext, ownerConfig := b.ownerConfig,
      configInForce := b.ownerConfig, managers := b.managers, lastSequence := b.lastSequence, epoch := b.epoch, hasCert := b.hasCert,
      bootKeyEpoch := b.bootKeyEpoch + 1, storageEpoch := b.storageEpoch, debugMask := b.debugMask, keysMade := b.keysMade } }

/-- NAND programs and erases in progress complete, and the journal is committed (R557, R594); before the journal has been replayed there is
nothing to commit. -/
def Mod.finishNand (m : Mod) : Mod :=
  if !m.t2.inService ∨ !m.boot.journalDone then m
  else { m with t2 := { m.t2 with writeBuf := [] } }.commitJournal

/-- The rails are switched off, with the outcome of a cold reset (R31, R554, R557, R572). -/
def Mod.powerOff (m : Mod) (phase : PowerPhase) (sticky : Option (Nat × Nat × Int)) : Mod :=
  ((m.setPow (fun p => { p with phase := phase, sticky := sticky.or p.sticky })).coldReset).syncPins

/-- The records of the sticky bank, which is then cleared (R560, R576). -/
def Mod.logSticky (m : Mod) : Mod :=
  match m.pow.sticky with
  | none => m
  | some (cause, die, temp) =>
    (if cause = 4 then m.logErr { unit := 0xB00B, code := 0x0B09, sev := .module, detail := die, temp := some temp, restored := true }
     else m.logErr { unit := 0xB000, code := 0x0B0A, sev := .unit, detail := cause, restored := true }).setPow (fun p => { p with sticky := none })

/-- Power-on (R30, R590 step 1): once PWR_PRSNT# is mated, PWR_EN is high and the input is within range. -/
def Mod.tryPowerOn (m : Mod) : Mod :=
  if m.pow.phase = .off ∧ m.pow.pwrPrsnt ∧ m.pow.pwrEn ∧ !m.pow.inputFault then
    ((m.setPow (fun p => { p with phase := .on })).logSticky).syncPins
  else m

/-- PWR_PRSNT_MATE (R29, R30). -/
def execPwrPrsntMate (s : State) : Out :=
  s.act (fun m => (m.setPow (fun p => { p with pwrPrsnt := true, phase := if p.phase = .unmated then .off else p.phase })).tryPowerOn)

/-- PWR_EN is taken in as high or low (R30, R557). -/
def Mod.takePwrEn (m : Mod) (high : Bool) : Mod :=
  let m1 := m.setPow (fun p => { p with pwrEn := high })
  if high then m1.tryPowerOn
  else if m.pow.phase = .on then m1.finishNand.powerOff .off none else m1

/-- MOD_RESET# is taken in as asserted or released (R594): a module reset runs while PWR_EN is high. -/
def Mod.takeModReset (m : Mod) (low : Bool) : Mod :=
  let m1 := m.setPow (fun p => { p with modReset := low })
  if low ∧ m.pow.phase = .on ∧ !m.pow.modReset then m1.finishNand.coldReset.syncPins else m1

/-- PWR_EN_HIGH, held for 100 µs (R30, R651); not read while SB_VREF is low (R650). -/
def execPwrEnHigh (s : State) : Out :=
  s.act (fun m => let m1 := m.setPow (fun p => { p with pwrEnPin := true }); if m.pow.sbVrefLow then m1 else m1.takePwrEn true)

/-- PWR_EN_LOW (R557). -/
def execPwrEnLow (s : State) : Out :=
  s.act (fun m => let m1 := m.setPow (fun p => { p with pwrEnPin := false }); if m.pow.sbVrefLow then m1 else m1.takePwrEn false)

/-- UNMATING (R31): the outcome is that of a cold reset. -/
def execUnmating (s : State) : Out :=
  s.act (fun m =>
    let m1 := m.setPow (fun p => { p with pwrPrsnt := false })
    if m.pow.phase = .on then m1.powerOff .unmated (some (3, 0, 0)) else (m1.setPow (fun p => { p with phase := .unmated })).syncPins)

/-- MOD_RESET (R594, R651). -/
def execModReset (s : State) : Out :=
  s.act (fun m => let m1 := m.setPow (fun p => { p with modResetPin := true }); if m.pow.sbVrefLow then m1 else m1.takeModReset true)

/-- MOD_RESET_RELEASE: bring-up starts again from step 2 (R594). -/
def execModResetRelease (s : State) : Out :=
  s.act (fun m => let m1 := m.setPow (fun p => { p with modResetPin := false }); if m.pow.sbVrefLow then m1 else m1.takeModReset false)

/-- SB_VREF_LOW: PWR_EN and MOD_RESET# are held as last read, and MI3C and MOD_PWRGD go to high impedance (R650). -/
def execSbVrefLow (s : State) : Out :=
  s.act (fun m =>
    if m.pow.sbVrefLow then m
    else (((m.setPow (fun p => { p with sbVrefLow := true })).send (.pinFloat "MI3C_SCL")).send (.pinFloat "MI3C_SDA")).send (.pinFloat "MOD_PWRGD"))

/-- The effect of the row of `execSbVrefRecovered` where it acts. -/
def Mod.sbVrefBack (m : Mod) : Mod :=
  let m1 := (m.setPow (fun p => { p with sbVrefLow := false })).send (.pin "MOD_PWRGD" m.pow.modPwrgd)
  let m2 := if m1.pow.pwrEnPin = m1.pow.pwrEn then m1 else m1.takePwrEn m1.pow.pwrEnPin
  if m2.pow.modResetPin = m2.pow.modReset then m2 else m2.takeModReset m2.pow.modResetPin

/-- SB_VREF_RECOVERED: the inputs are read again, PWR_EN before MOD_RESET# (R650, R655), and MOD_PWRGD is driven. -/
def execSbVrefRecovered (s : State) : Out :=
  s.act (fun m =>
    if !m.pow.sbVrefLow then m
    else m.sbVrefBack)

/-! ### The input (R554) -/

/-- LIMIT_CAUSE (R575): the sources whose limit is the one in force, when it lies below 1,150 W, and the thermal governor. -/
def Power.limitCause (p : Power) : Nat :=
  let s := p.sustained
  (if s < 1150 then (if p.coolantLimit = s then p.coolantCause else 0) + (if p.inputLow ∧ s = 600 then 4 else 0) + (if p.hostLimit = s then 8 else 0) else 0) +
    16 * b2n p.thermalActive

/-- The sustained limit may have changed from `old`: LIMIT_CHANGED, and DERATED where it has fallen (R576). -/
def Mod.limitChanged (m : Mod) (old : Nat) : Mod :=
  let new := m.pow.sustained
  if new = old then m.syncPins
  else
    let m1 := m.raise 0x0E03 64 (new + m.pow.limitCause * 65536) 0 0
    (if new < old then m1.logErr { unit := 0xB00B, code := 0x0B06, sev := .info, detail := new, count := m.pow.limitCause } else m1).syncPins

/-- INPUT_LOW: 42 V ≤ VIN_56 < 46 V for 1 ms. -/
def execInputLow (mv : Nat) (s : State) : Out :=
  s.act (fun m =>
    if mv < 42000 ∨ 46000 ≤ mv ∨ m.pow.phase ≠ .on ∨ m.pow.inputLow then m
    else ((m.setPow (fun p => { p with inputLow := true })).logErr { unit := 0xB000, code := 0x0B04, sev := .unit, detail := mv }).limitChanged m.pow.sustained)

/-- The first stage is off until the input has recovered, with the outcome of unmating. -/
def Mod.inputOff (m : Mod) (cause : Nat) : Mod :=
  let m1 := m.setPow (fun p => { p with inputFault := true, inputLow := false })
  if m.pow.phase = .on then m1.powerOff .off (some (cause, 0, 0)) else m1

/-- INPUT_UNDERVOLTAGE: VIN_56 < 42 V for 100 µs. -/
def execInputUndervoltage (mv : Nat) (s : State) : Out := s.act (fun m => if 42000 ≤ mv ∨ m.pow.phase = .unmated then m else m.inputOff 1)

/-- INPUT_HIGH: 60 V < VIN_56 ≤ 64 V is logged at most once per hour. -/
def execInputHigh (mv : Nat) (s : State) : Out :=
  s.act (fun m =>
    let hour := m.localTime / 3600000000000
    if mv ≤ 60000 ∨ 64000 < mv ∨ m.pow.phase ≠ .on ∨ m.pow.inputHighHour = some hour then m
    else (m.setPow (fun p => { p with inputHighHour := some hour })).logErr { unit := 0xB000, code := 0x0B05, sev := .info, detail := mv })

/-- INPUT_OVERVOLTAGE: VIN_56 > 64 V for 10 µs. -/
def execInputOvervoltage (mv : Nat) (s : State) : Out := s.act (fun m => if mv ≤ 64000 ∨ m.pow.phase = .unmated then m else m.inputOff 2)

/-- INPUT_RECOVERED: VIN_56 at or above 46 V for 100 ms; the operating range ends at 64 V. -/
def execInputRecovered (mv : Nat) (s : State) : Out :=
  s.act (fun m =>
    if mv < 46000 ∨ 64000 < mv then m
    else ((m.setPow (fun p => { p with inputLow := false, inputFault := false })).limitChanged m.pow.sustained).tryPowerOn)

/-! ### Thermal trip (R572) -/

/-- THERMTRIP: a B-die (0 to 3) or C-die (4 to 11) junction at 125 °C or above. -/
def execThermtrip (die : Nat) (temp : Int) (s : State) : Out :=
  s.act (fun m => if m.pow.phase ≠ .on ∨ 12 ≤ die ∨ temp < 1000 then m else m.powerOff .tripped (some (4, die, temp)))

/-- THERMTRIP_RELEASE: PWR_EN has been low for 100 ms. -/
def execThermtripRelease (s : State) : Out :=
  s.act (fun m => if m.pow.phase ≠ .tripped ∨ m.pow.pwrEn then m else (m.setPow (fun p => { p with phase := .off })).syncPins)

end Sys2Proof.Machine
end

