-- ==== Sys2Proof/Machine/Power.lean ====
section
/-! DEFINITION. The leak cord, the coolant, the power and thermal governors and their commands (spec/01_module_package.md R35 to R38,
spec/18_power_coolant_rungs.md R559, R568 to R571, R575, R576). -/
namespace Sys2Proof.Machine

/-! ### The leak cord (R35 to R38) -/

/-- The classification that a sample shows: wet below 200 kΩ, open loop above 10 kΩ, dry above 2 MΩ with the loop continuous; none between
the thresholds. DESIGN CHOICE (log 55): a sample that is wet and open at once counts as wet. -/
def leakReading (cord loop : Nat) : Option Nat :=
  if cord < 200000 then some 1 else if 10000 < loop then some 2 else if 2000000 < cord then some 0 else none

/-- A detection (R36): the event is raised, and its record is written by the Gaffer, at once at P0 and at the wake below it. -/
def Mod.leakFound (m : Mod) (cls : Nat) : Mod :=
  let m1 := (m.raise (if cls = 1 then 0x0E01 else 0x0E02) 64 0 0 0).setPow (fun p => { p with
    leakPending := p.leakPending ++ [(if cls = 1 then 0x0B01 else 0x0B02, m.ftc, m.localTime)] })
  if m.pow.rung = 0 ∧ m.pow.phase = .on ∧ 3 ≤ m.boot.step then m1.writeLeaks else m1

/-- The effect of the row of `execLeakSensorSample` where it acts. -/
def Mod.takeLeak (m : Mod) (cordOhms : Nat) (loopOhms : Nat) : Mod :=
  let p := m.pow
  let cls := match leakReading cordOhms loopOhms with | some c => c | none => p.leakClass
  let held := if cls = p.leakClass then 0 else if cls = p.leakCand then p.leakHeld + 1 else 1
  let take := cls ≠ p.leakClass ∧ (cls = 0 ∨ 11 ≤ held)
  let now := if take then cls else p.leakClass
  let set := fun (p : Power) => { p with
    leakClass := now, leakCand := cls, leakHeld := if take then 0 else held,
    leakFlag := p.leakFlag || now = 1, sensorFlag := p.sensorFlag || now = 2 }
  let m1 := m.setPow set
  let m2 := if take ∧ cls ≠ 0 then m1.leakFound cls else m1
  (if m2.pow.leakFlag ≠ p.leakFlag ∨ m2.pow.sensorFlag ≠ p.sensorFlag then m2.moduleChanged else m2).syncPins

/-- LEAK_SENSOR_SAMPLE: wet and open take force once held for 100 ms, which eleven samples 10 ms apart show. A sample that finds the condition
in force sets its flag (R635). -/
def execLeakSensorSample (cordOhms loopOhms : Nat) (s : State) : Out :=
  s.act (fun m =>
    let p := m.pow
    if p.phase ≠ .on ∧ p.phase ≠ .tripped then m
    else m.takeLeak cordOhms loopOhms)

/-! ### Coolant (R559) -/

/-- The coolant limit that the sensors give, and its LIMIT_CAUSE bits. -/
def coolantLimitOf (t : Int) (flow : Nat) : Nat × Nat :=
  if 440 < t ∨ flow < 600 then (150, b2n (decide (440 < t)) + 2 * b2n (decide (flow < 600)))
  else
    let a := if 360 < t then 1150 - 5 * (t - 360).toNat else 1150
    let b := if flow < 1200 then 1150 * flow / 1200 else 1150
    (min a b, b2n (decide (a < 1150 ∧ a ≤ b)) + 2 * b2n (decide (b < 1150 ∧ b ≤ a)))

/-- The effect of the row of `execCoolantSample` where it acts. -/
def Mod.takeCoolant (m : Mod) (inlet : Int) (outlet : Int) (flow : Nat) : Mod :=
  let c := coolantLimitOf inlet flow
  let m1 := m.setPow (fun p => { p with inletT := inlet, outletT := outlet, flow := flow, coolantHeld := if c.1 = p.coolantLimit then 0 else p.coolantHeld + 1 })
  if m1.pow.coolantHeld < 11 then m1
  else (m1.setPow (fun p => { p with coolantLimit := c.1, coolantCause := c.2, coolantHeld := 0 })).limitChanged m.pow.sustained

/-- COOLANT_SAMPLE: a limit that differs from the one in force is applied once it has differed for 100 ms, which eleven samples show. -/
def execCoolantSample (inlet outlet : Int) (flow : Nat) (s : State) : Out :=
  s.act (fun m =>
    if m.pow.phase ≠ .on then m
    else m.takeCoolant inlet outlet flow)

/-! ### The governors (R568, R569, R571) -/

/-- The cap in force (R568). -/
def Power.cap (p : Power) : Nat :=
  if p.sustained < 1150 ∨ p.noBurst then p.sustained
  else if p.thermalUs = 0 then 1150 else if p.burstUs = 0 then 1350 else 1600

/-- One clock step down: the C-dies first, 16 steps, then the B-dies, 8 steps (R569). -/
def Power.stepDown (p : Power) : Power :=
  if p.cSteps < 16 then { p with cSteps := p.cSteps + 1 } else if p.bSteps < 8 then { p with bSteps := p.bSteps + 1 } else p

/-- One clock step up, B-die steps first. -/
def Power.stepUp (p : Power) : Power :=
  if 0 < p.bSteps then { p with bSteps := p.bSteps - 1 } else { p with cSteps := p.cSteps - 1 }

def Power.atFloors (p : Power) : Bool := p.cSteps = 16 && p.bSteps = 8

/-- A budget in µs after a sample of 10 µs: it falls by 10 while P100 lies above its line, and regains 1 otherwise (R568). -/
def budget (max_ now : Nat) (above : Bool) : Nat := if above then now - 10 else min max_ (now + 1)

/-- The effect of the row of `execPowerGovernorSample` where it acts. -/
def Mod.governPower (m : Mod) (p100 : Nat) (p20ms : Nat) (p2s : Nat) : Mod :=
  let p := { m.pow with p100 := p100, p20ms := p20ms, p2s := p2s, burstUs := budget 20000 m.pow.burstUs (1350 < p100),
                        thermalUs := budget 2000000 m.pow.thermalUs (1150 < p100), energyUJ := m.pow.energyUJ + p100 * 10 }
  let beyond := decide (p.cap < p100)
  let low := decide (p100 * 100 < p.cap * 95)
  let p1 := if beyond then { (if p.atFloors then { p with overFloorUs := p.overFloorUs + 10 } else p.stepDown) with belowUs := 0 }
    else if low then
      (if 90 ≤ p.belowUs ∧ !p.thermalActive then { p.stepUp with belowUs := 0, overFloorUs := 0 } else { p with belowUs := p.belowUs + 10, overFloorUs := 0 })
    else { p with belowUs := 0, overFloorUs := 0 }
  ((m.setPow (fun _ => { p1 with capFail := p1.capFail && beyond })).voidSlow).syncPins

/-- POWER_GOVERNOR_SAMPLE: every 10 µs the budgets and the energy move, and the clocks take a step down while P100 exceeds the cap, or a step
up for every 100 µs that it stays below 95% of the cap while the thermal governor lets them unwind. -/
def execPowerGovernorSample (p100 p20ms p2s : Nat) (s : State) : Out :=
  s.act (fun m =>
    if m.pow.phase ≠ .on then m
    else m.governPower p100 p20ms p2s)

/-- POWER_CAP_FAIL: P100 has exceeded the cap at both floors for 1 ms (R569, R576). -/
def execPowerCapFail (s : State) : Out :=
  s.act (fun m =>
    if m.pow.overFloorUs < 1000 ∨ m.pow.capFail then m
    else
      ((m.setPow (fun p => { p with capFail := true })).logErr { unit := 0xB00B, code := 0x0B07, sev := .unit, detail := m.pow.p100 }).raise 0x0E04 64 m.pow.p100 0 0
        |>.syncPins)

/-- The first reading above its threshold, by die index: B-dies 0 to 3, C-dies 4 to 11, GDDR7 devices 12 to 43; thresholds 105, 110 and
100 °C, in °C × 8 (R571). -/
def hotDie (bs cs gs : List Int) : Option (Nat × Int) :=
  let beyond := fun (l : List Int) (t : Int) (base : Nat) => ((List.range l.length).zip l).filterMap (fun x => if t < x.2 then some (base + x.1, x.2) else none)
  (beyond bs 840 0 ++ beyond cs 880 4 ++ beyond gs 800 12).head?

/-- Every reading lies 5 °C below its threshold. -/
def allCool (bs cs gs : List Int) : Bool := bs.all (fun t => t ≤ 800) && cs.all (fun t => t ≤ 840) && gs.all (fun t => t ≤ 760)

/-- The effect of the row of `execThermalGovernorSample` where it acts. -/
def Mod.governHeat (m : Mod) (bDies : List Int) (cDies : List Int) (gddr : List Int) (nand : List Int) : Mod :=
  let m1 := m.setPow (fun p => { p with bTemps := bDies, cTemps := cDies, gddrTemps := gddr, nandTemps := nand })
  match hotDie bDies cDies gddr with
  | none => if allCool bDies cDies gddr then m1.setPow (fun p => { p with thermalActive := false }) else m1
  | some (die, t) =>
    let minute := m.localTime / 60000000000
    let m2 := (m1.setPow (fun p => { p.stepDown with thermalActive := true, belowUs := 0 })).voidSlow
    if m2.pow.throttleMinute = some minute then m2
    else (m2.setPow (fun p => { p with throttleMinute := some minute })).logErr { unit := 0xB00B, code := 0x0B08, sev := .info, detail := die, temp := some t }

/-- THERMAL_GOVERNOR_SAMPLE: every 100 µs the die sensors are read; a hot one takes one clock step, and steps unwind again once every reading
lies 5 °C below its threshold. THERMAL_THROTTLE is logged at most once per minute. -/
def execThermalGovernorSample (bDies cDies gddr nand : List Int) (s : State) : Out :=
  s.act (fun m =>
    if m.pow.phase ≠ .on then m
    else m.governHeat bDies cDies gddr nand)

/-! ### The commands (R570, R575) -/

/-- POWER_SET_LIMIT. -/
def cmdPowerSetLimit : Cmd := fun r m =>
  let w := r.arg 0 2
  if w ≠ 0 ∧ (w < 300 ∨ 1150 < w) then badArg m 0
  else if 1 < r.arg 2 1 then badArg m 2
  else done ((m.setPow (fun p => { p with hostLimit := if w = 0 then 1150 else w, noBurst := bit (r.arg 2 1) 0 })).limitChanged m.pow.sustained)

/-- POWER_SET_LIMIT (R570). -/
def execPowerSetLimit (ch : ChanNo) (s : State) : Out := s.mailbox ch 0x0E02 anyForm cmdPowerSetLimit

/-- TELEMETRY_READ. No command brings in VIN_56 and the input current, so their values are free. -/
def cmdTelemetryRead : Cmd := noArgs fun _ m =>
  let v := m.freeVal
  let i := v.2.freeVal
  let p := m.pow
  let t := fun (x : Int) => le 2 (toTwos 16 x)
  done i.2 (le 2 v.1 ++ le 2 i.1 ++ le 2 p.p100 ++ le 2 p.p20ms ++ le 2 p.p2s ++ le 2 p.sustained ++ le 2 p.cap ++ le 1 p.limitCause ++ le 1 p.cSteps ++
    le 1 p.bSteps ++ le 1 0 ++ le 2 (p.burstUs / 1000) ++ le 2 (p.thermalUs / 1000) ++ t p.inletT ++ t p.outletT ++ le 2 p.flow ++
    (List.range 4).flatMap (fun i => t (p.bTemps.getD i 0)) ++ (List.range 8).flatMap (fun i => t (p.cTemps.getD i 0)) ++
    t (maxOf (p.gddrTemps.getD 0 0) p.gddrTemps) ++ t (maxOf (p.nandTemps.getD 0 0) p.nandTemps) ++ le 8 (p.energyUJ / 1000000))

/-- TELEMETRY_READ (R575). -/
def execTelemetryRead (ch : ChanNo) (s : State) : Out := s.mailbox ch 0x0E03 anyForm cmdTelemetryRead

end Sys2Proof.Machine
end

