-- ==== Sys2Proof/Machine/Boot.lean ====
section
/-! DEFINITION. Bring-up, signed objects, firmware, the life cycle, the manager list and the measurements
(spec/19_bringup_lifecycle_security.md R579 to R607, R609, R610). -/
namespace Sys2Proof.Machine

/-! ### The fuses as an epoch (R584, R586) -/

/-- Fuse bits [1023:960]: LC_OPERATIONAL, LC_RETURN, LC_END, OWNER_SET in bits 0 to 3, DEBUG_COUNT burnt from bit 8 upward. -/
def Fuses.epoch (f : Fuses) : Nat :=
  b2n f.lcOperational + 2 * b2n f.lcReturn + 4 * b2n f.lcEnd + 8 * b2n f.ownerSet + (2 ^ f.debugCount - 1) * 256

/-- The life-cycle state that an epoch stands for (R598). -/
def epochLifecycle (e : Nat) : Nat :=
  if bit e 2 then 5 else if bit e 1 then 4 else if !bit e 3 then 0 else if !bit e 0 then 1 else if popCount (e / 256) 32 % 2 = 1 then 3 else 2

/-! ### Bring-up (R19, R496, R510, R589, R590) -/

/-- A record of the root of trust (R609). -/
def Mod.logRot (m : Mod) (code : Nat) (sev : Sev) (detail : Nat) : Mod := m.logErr { unit := 0x9000, code := code, sev := sev, detail := detail }

/-- A new kernel set replaces the stored one (R587), and the Gaffer verifies it; which kernels fail is a free choice (R496). -/
def Mod.verifyKernels (m : Mod) : Mod :=
  let m := m.setBoot (fun b => { b with katStored := b.katStored || b.katNext.isSome, katDigest := b.katNext.getD b.katDigest, katNext := none })
  let f := m.freeVal
  if !m.boot.katStored then m.setBoot (fun b => { b with kernelSet := 0 })
  else
    let bad := onesOf f.1 48
    (f.2.each bad (fun m k => m.logErr { unit := 0, code := 0x0002, sev := .unit, opn := .test, detail := k })).setBoot (fun b => { b with
      kernelSet := packBits ((List.range 48).map (fun k => !bad.contains k)) })

/-- The router that a record of bridge `b` names: DESIGN CHOICE (log 59), the first of the lower-numbered B-die that the bridge joins. -/
def bridgeRouter (b : Nat) : Nat := 0xA000 + 16 * (if b < 3 then 0 else if b < 5 then 1 else 2)

/-- Bond lanes and bridge lanes that fail training and find no spare, which is a free choice: a bond lane fences its C-die, a bridge lane
halves its bridge (R19). -/
def Mod.trainBonds (m : Mod) : Mod :=
  let f := m.freeVal
  let m1 := f.2.each (onesOf f.1 8) (fun m c =>
    (m.logErr { unit := 0xA000 + 16 * (c / 2), code := 0x0A02, sev := .unit, opn := .training, detail := c }).setTest (fun t => { t with
      cores := (List.range 512).foldl (fun l i => Tbl.updD l (512 * c + i) CoreTest.init (fun k => { k with fenced := true })) t.cores }))
  let bridges := onesOf (f.1 / 256) 6
  (m1.each bridges (fun m b => m.logErr { unit := bridgeRouter b, code := 0x0A01, sev := .unit, opn := .training, detail := b })).setBoot (fun b => { b with
    halfBridges := bridges.length })

/-- A slot verifies as far as the model can tell: it holds an image whose SECURITY_VERSION is not rolled back (R582, R585). -/
def Mod.slotOk (m : Mod) (fz : Fuses) (i : Nat) : Bool :=
  let s := m.boot.slots.getD i FwSlot.init
  s.valid && decide (fz.antiRollback ≤ s.security)

/-- Steps 2 and 3 of bring-up with an image from a slot: FW_REVERTED where the active one has failed three times. The downstream ports with a
device begin to enumerate. -/
def Mod.bootFrom (m : Mod) (slot : Nat) : Mod :=
  let act := m.boot.active
  let reverted := slot ≠ act ∧ 3 ≤ (m.boot.slots.getD act FwSlot.init).failedBoots
  let m1 := m.setBoot (fun b => { b with booted := some slot, step := 3, active := if reverted then slot else act })
  let m2 := if reverted then m1.logRot 0x0903 .unit slot else m1
  if m2.boot.lifecycle = 5 then m2
  else
    (m2.verifyKernels.trainBonds).each ((List.range 8).filter (fun d => m.pow.dsPrsnt.getD d false)) (fun m d =>
      m.setT1 d (fun p => { p with present := true, state := .training }))

/-- The effect of the row of `execBootImageVerified` where it acts. -/
def Mod.imageVerified (m : Mod) (fz : Fuses) (slot : BitVec 1) (valid : Bool) : Mod :=
  let lc := fz.lifecycle
  let m1 := m.setBoot (fun b => { b with lifecycle := lc, debugMask := if lc = 3 then b.debugMask else 0, bootKeyPresent := true })
  if !valid then ((m1.setBoot (fun b => { b with recovery := true, step := 3 })).logRot 0x0906 .unit 0).syncPorts
  else if m1.slotOk fz slot.toNat then (m1.bootFrom slot.toNat).syncPorts else m

/-- BOOT_IMAGE_VERIFIED (R589): the root of trust boots a slot whose image verifies, or enters recovery when none does. -/
def execBootImageVerified (slot : BitVec 1) (valid : Bool) (s : State) : Out :=
  s.actF (fun fz m =>
    if m.pow.phase ≠ .on ∨ m.pow.modReset ∨ m.boot.step ≠ 2 then m
    else m.imageVerified fz slot valid)

/-! ### The journal (R216, R422, R424, R492, R600) -/

/-- What the journal restores: partitions, LD bindings, durable regions, records, extents, the serial counter and the field-test policy. A
record whose image lies on a die out of service is restored POISONED (R216). -/
def Mod.restore (m : Mod) : Mod :=
  let v := m.t2.saved
  let recs := Tbl.mapV v.recs (fun _ (x : PaneRec) => if x.tier = .t2 ∧ x.form ≠ .zero ∧ x.state ≠ .poisoned ∧ !m.dieOk x.die then
    { x with state := .poisoned, form := .zero, loc := 0, sectors := 0, die := 0, img := [] } else x)
  let m1 := m.setMem (fun e => { e with
    parts := v.parts, lds := v.lds, regions := v.regions, recs := recs, extents := v.extents, serial := v.serial + 2 ^ 20,
    nextRec := recs.foldl (fun n x => max n (x.1 + 1)) 0,
    tableSlots := v.regions.flatMap (fun g => g.2.tables.gens.map (fun t => t.2.slot)) })
  let m2 := { m1 with t2 := { m1.t2 with
    wearSpent := v.wearSpent
    keys := v.extents.map (fun (e : Nat × Extent) => e.2.serial)
    tableJournal := v.regions.flatMap (fun (g : Nat × Region) => g.2.tables.gens.map (fun (t : Nat × TableGen) => (g.1, t.1))) } }
  m2.setTest (fun t => { t with enabled := v.policy.1, roundHours := v.policy.2.1, deferMinutes := v.policy.2.2.1, drainPeriodS := v.policy.2.2.2.1, kernelMask := v.policy.2.2.2.2 })

/-- The journalled error records return to the log with new SEQUENCE numbers, their times, and RESTORED set (R492). -/
def Mod.restoreErrors (m : Mod) : Mod :=
  m.setErr (fun g =>
    let rs := (List.range g.journalled.length).zip g.journalled |>.map (fun x => { x.2 with seq := g.nextSeq + x.1, restored := true, read := false, hasAppendix := false })
    { g with recs := g.recs ++ rs, nextSeq := g.nextSeq + rs.length })

/-- The journal is formatted after a life-cycle change (R600 step 5): a new storage secret, nothing durable, an empty record journal. -/
def Mod.formatJournal (m : Mod) (fz : Fuses) : Mod :=
  let m1 := { m with t2 := { m.t2 with saved := { Saved.init with serial := m.t2.saved.serial, wearSpent := m.t2.saved.wearSpent }, wearSpent := m.t2.saved.wearSpent, journalPending := 0 } }
  (((m1.setMem (fun e => { e with serial := m.t2.saved.serial + 2 ^ 20 })).setBoot (fun b => { b with epoch := fz.epoch, storageEpoch := b.storageEpoch + 1 })).setErr (fun g => { g with journalled := [] })).logRot
    0x0905 .info (epochLifecycle m.boot.epoch + 256 * fz.lifecycle)

/-- The effect of the row of `execJournalReplayComplete` where it acts. -/
def Mod.replayed (m : Mod) (fz : Fuses) (readable : Bool) : Mod :=
  let chans := decide (m.t2.lostChannels.length < 32)
  let done := fun (m : Mod) => m.setBoot (fun b => { b with journalDone := true, progress := 1000 })
  let up := fun (m : Mod) (ok : Bool) => { m with t2 := { m.t2 with inService := ok } }
  if m.boot.epoch ≠ fz.epoch then done (up (m.formatJournal fz) chans)
  else if readable ∧ chans then done (up (m.restore.restoreErrors) true)
  else done (up m false)

/-- JOURNAL_REPLAY_COMPLETE (R424): the journal has been replayed or formatted and T2 is in service; where it cannot be mounted, or no channel
is left, T2 is lost. -/
def execJournalReplayComplete (readable : Bool) (s : State) : Out :=
  s.actF (fun fz m =>
    if m.boot.step ≠ 3 ∨ m.boot.recovery ∨ m.boot.lifecycle = 5 ∨ m.boot.journalDone ∨ m.boot.readiness ≠ .booting then m
    else m.replayed fz readable)

/-- The anti-rollback count follows the booted image once it is READY (R585). -/
def Mod.advanceRollback (m : Mod) (fz : Fuses) : Fuses × Mod :=
  let v := match m.boot.booted with | some i => (m.boot.slots.getD i FwSlot.init).security | none => 0
  if fz.antiRollback < v then ({ fz with antiRollback := v }, m.logRot 0x0904 .info v) else (fz, m)

/-- READY_ENTRY (R590 step 8): T0 has been swept, every downstream port is in or out of service, and the journal is done. The map store lies in
T0 where no T1 port holds it (R105). A module whose journal records FAILED_REPLACE enters it instead (R514). -/
def execReadyEntry (s : State) : Out :=
  s.burn (fun fz m =>
    if m.boot.readiness ≠ .booting ∨ m.boot.step ≠ 3 ∨ m.boot.recovery ∨ m.boot.lifecycle = 5 ∨ !m.boot.sweepDone ∨ !m.boot.journalDone ∨
        m.t1.any (fun p => p.state = .training) then (fz, m)
    else
      let m1 := m.setMem (fun e => { e with mapInT0 := m.mapPorts == [] })
      let m2 := m1.reserveMap.getD m1
      if m2.t2.saved.failed then (fz, m2.enterFailed)
      else
        let late := decide (20000000000 < m2.localTime)
        let m3 := m2.setBoot (fun b => { b with readiness := .ready, step := 8, slots := match b.booted with
          | some i => b.slots.modify i (fun s => { s with failedBoots := if late then s.failedBoots + 1 else 0 })
          | none => b.slots })
        let m4 := m3.each m3.ldNos (fun m l => m.setLd l (fun d => { d with memoryActive := true }))
        m4.moduleChanged.advanceRollback fz)

/-! ### Signed objects (R580 to R583) -/

/-- A signed object: its bytes and the fields of R581. -/
structure Signed where
  bytes : List Byte
  kind : Nat
  signers : Nat
  serial : Nat
  sequence : Nat
  payloadBytes : Nat
  opcode : Nat
  security : Nat
  version : Nat
  flags : Nat
  deriving DecidableEq, Repr

def field (bs : List Byte) (off n : Nat) : Nat := leNat ((bs.drop off).take n)

/-- The fields of an object. -/
def Signed.ofBytes (bs : List Byte) : Signed :=
  { bytes := bs, kind := field bs 4 2, signers := field bs 6 1, serial := field bs 8 8, sequence := field bs 0x10 8, payloadBytes := field bs 0x18 4,
    opcode := field bs 0x1C 2, security := field bs 0x1E 2, version := field bs 0x20 4, flags := field bs 0x24 4 }

def Signed.payload (o : Signed) : List Byte := (o.bytes.drop 0x40).take o.payloadBytes
def Signed.key (o : Signed) (n : Nat) : List Byte := (o.bytes.drop (0x40 + o.payloadBytes + 1984 * n)).take 1984
def Signed.sig (o : Signed) (n : Nat) : List Byte := (o.bytes.drop (0x40 + o.payloadBytes + 1984 * o.signers + 3373 * n)).take 3373

/-- Check 2 of R582: MAGIC, lengths and reserved fields as R581 requires. -/
def Signed.wellFormed (o : Signed) : Bool :=
  let fw := o.kind = 1
  let cmd := o.kind = 3 || o.kind = 4
  field o.bytes 0 4 = 0x4E47495A && 1 ≤ o.kind && o.kind ≤ 5 && (o.signers = 1 || o.signers = 2) && field o.bytes 7 1 = 0 &&
  (if cmd then 1 ≤ o.sequence else o.sequence = 0) &&
  o.payloadBytes ≤ (if fw then 16777216 else if o.kind = 2 then 1048576 else 4096) &&
  (o.kind = 3 || o.opcode = 0) && (if fw then o.security ≤ 128 && o.flags ≤ 1 else o.security = 0 && o.version = 0 && o.flags = 0) &&
  field o.bytes 0x28 24 = 0 && o.bytes.length = 64 + o.payloadBytes + 5357 * o.signers

/-- The digests that the signers' keys must have (R583), for the life-cycle state. -/
def signersFor (fz : Fuses) (lc : Nat) (o : Signed) : List Nat :=
  let early := lc = 0 || lc = 4
  match o.kind with
  | 1 => [fz.vendorRootDigest]
  | 2 => [fz.vendorRootDigest]
  | 4 => if early then [fz.vendorRootDigest] else [fz.vendorRootDigest, fz.ownerDigest]
  | _ =>
    if !early then [fz.ownerDigest]
    else if lc = 0 ∧ o.opcode = 0x0F04 then [Config.sha384 (o.key 0)] else [fz.vendorRootDigest]

/-- Checks 3 to 5 of R582: the DETAIL of the first that fails. -/
def Signed.refusal (o : Signed) (fz : Fuses) (lc : Nat) : Option Nat :=
  let ks := signersFor fz lc o
  if o.serial ≠ fz.serial ∧ !(o.serial = 0 ∧ o.kind ≤ 2) then some 0x0F03
  else if o.signers ≠ ks.length ∨ (List.range o.signers).any (fun n => Config.sha384 (o.key n) ≠ ks.getD n 0) then some 0x0F02
  else if (List.range o.signers).any (fun n => !Config.verifies (ks.getD n 0) (o.bytes.take (64 + o.payloadBytes) ++ o.sig n)) then some 0x0F02
  else none

/-- A signed command that has passed its checks stores its SEQUENCE (R582); one that then fails with BAD_ARGUMENT or NOT_PERMITTED leaves the
module as it was (R83). -/
def noteSequence (sequence : Nat) (m1 : Mod) (x : (Fuses × Mod) × Reply) : (Fuses × Mod) × Reply :=
  if x.2.status = .badArgument ∨ x.2.status = .notPermitted then ((x.1.1, m1), x.2)
  else ((x.1.1, x.1.2.setBoot (fun b => { b with lastSequence := sequence })), x.2)

/-- A command of permission S: it reads its object and runs the checks of R582 in order. `suits` is the rest of check 2, `mine` tells whether
the row carries out this object, and `allowed` is check 8. -/
def signedCmd (suits mine : Signed → Bool) (allowed : Fuses → Mod → Signed → Bool)
    (run : Req → Fuses → Mod → Signed → (Fuses × Mod) × Reply) : Req → Fuses → Mod → (Fuses × Mod) × Reply := fun r fz m =>
  let no := fun (m : Mod) (st : Status) (d : Nat) => ((fz, m), ({ status := st, detail := d } : Reply))
  match r.buffer 0 with
  | .inr off => no m .badArgument (0x10 + off)
  | .inl (addr, len, space) =>
    if !spaceOk r.owner space then no m .notPermitted 0
    else if 64 + 16777216 + 5357 * 2 < len ∨ len < 64 + 5357 then no m .badArgument 0x10
    else
      match m.readBuffer r.ch 0 0x10 r.owner r.partD addr len space with
      | (m1, .waiting) => no m1 .pending 0
      | (m1, .refused st) => no m1 (if st = .notPermitted then st else .badArgument) (if st = .notPermitted then 0 else 0x10)
      | (m1, .ready bs) =>
        let o := Signed.ofBytes bs
        if !(o.wellFormed && suits o) then no m1 .badArgument 0x10
        else if !mine o then no m .pending 0
        else
          match o.refusal fz m1.boot.lifecycle with
          | some d => no (m1.logRot 0x0902 .info d) .notPermitted d
          | none =>
            if (o.kind = 3 ∨ o.kind = 4) ∧ o.sequence ≤ m1.boot.lastSequence then no m1 .notPermitted 0x0F04
            else if o.kind = 1 ∧ o.security < fz.antiRollback then no m1 .notPermitted 0x0F05
            else if !allowed fz m1 o then no m1 .notPermitted 0x0F06
            else if o.kind = 3 ∨ o.kind = 4 then noteSequence o.sequence m1 (run r fz m1 o)
            else run r fz m1 o

/-- A row of permission S. -/
def State.signedRow (s : State) (ch : ChanNo) (op : Nat) (cmd : Req → Fuses → Mod → (Fuses × Mod) × Reply) : Out :=
  s.burn (fun fz m => m.serveF fz ch.toNat op anyForm cmd)

/-- Any object, for rows that carry out every one that suits. -/
def anyObject (_ : Signed) : Bool := true
def anyState (_ : Fuses) (_ : Mod) (_ : Signed) : Bool := true

/-- Answer ACCEPTED with a context that runs the work. -/
def acceptSigned (r : Req) (fz : Fuses) (m : Mod) (w : Work) (f : Nat → Mod → Mod) : (Fuses × Mod) × Reply :=
  match m.newCtx r w .none none with
  | (m1, .inr rep) => ((fz, m1), rep)
  | (m1, .inl n) => ((fz, f n m1), { status := .accepted, context := m1.idOf n })

/-! ### Firmware (R587 to R589) -/

/-- The payload of an OWNER_CONFIG object (R380, R603). -/
def configOk (p : List Byte) : Bool :=
  p.length = 16 && field p 0 1 / 32 = 0 && field p 0 1 % 16 ≤ 8 && field p 1 1 ≤ 1 && field p 2 14 = 0

/-- FW_UPDATE: in recovery only FIRMWARE objects are accepted, and only from host LD owners. -/
def cmdFwUpdate : Req → Fuses → Mod → (Fuses × Mod) × Reply := fun r fz m =>
  if m.boot.recovery ∧ r.ld = none then ((fz, m), { status := .notPermitted })
  else
    signedCmd (fun o => (o.kind = 1 || (!m.boot.recovery && (o.kind = 2 || (o.kind = 5 && configOk o.payload))))) anyObject anyState
      (fun r fz m o => acceptSigned r fz m (.fwUpdate o.kind) (fun n m => m.setBoot (fun b => { b with
        writing := Tbl.put b.writing n { kind := o.kind, version := o.version, security := o.security, rotChange := bit o.flags 0,
                                         digest := Config.sha384 o.payload, payload := if o.kind = 5 then o.payload else [] } }))) r fz m

/-- FW_UPDATE (R587). -/
def execFwUpdate (ch : ChanNo) (s : State) : Out := s.signedRow ch 0x0F00 cmdFwUpdate

/-- The slot that is not active. -/
def Boot.inactive (b : Boot) : Nat := 1 - b.active

/-- The work of FW_UPDATE goes on: its write begins, which is its point of no return and leaves a firmware slot empty meanwhile; then the
object has been written and read back. A write that fails, which is a free choice, leaves the slot empty and ends with ABORTED. In recovery
a cold reset follows. -/
def Mod.fwUpdateStep (m : Mod) (slot : Nat) (c : Ctx) : Mod :=
  match Tbl.find m.boot.writing slot with
  | none => m
  | some w =>
    let i := m.boot.inactive
    if !c.pastPonr then
      (m.setCtx slot (fun c => { c with pastPonr := true })).setBoot (fun b => { b with
        slots := if w.kind = 1 then b.slots.set i FwSlot.init else b.slots })
    else
      let f := m.choose 2
      let m1 := f.2.setBoot (fun b => { b with writing := Tbl.del b.writing slot })
      if f.1 = 1 then m1.finish slot .aborted 0 0
      else
        let m2 := m1.setBoot (fun b => match w.kind with
          | 1 => { b with slots := b.slots.set i { version := w.version, security := w.security, valid := true, rotChange := w.rotChange, failedBoots := 0, digest := w.digest } }
          | 2 => { b with katNext := some w.digest }
          | _ => { b with ownerConfig := some w.payload })
        let m3 := m2.finish slot .ok 0 0
        if m.boot.recovery then m3.coldReset.syncPins else m3

/-- FW_ACTIVATE, carried out by the row of its MODE. -/
def cmdFwActivate (mode : Nat) : Req → Fuses → Mod → (Fuses × Mod) × Reply :=
  signedCmd (fun o => o.kind = 3 && o.opcode = 0x0F01 && o.payloadBytes = 1 && field o.payload 0 1 ≤ 2) (fun o => field o.payload 0 1 = mode) anyState
    (fun r fz m _ =>
      let t := m.boot.slots.getD m.boot.inactive FwSlot.init
      if !m.slotOk fz m.boot.inactive then ((fz, m), { status := .badArgument, detail := 0x10 })
      else if mode = 1 ∧ t.rotChange then ((fz, m), { status := .notPermitted, detail := 0x0F08 })
      else acceptSigned r fz m (.fwActivate mode) (fun _ m => m))

/-- FW_ACTIVATE with MODE 0 (R588). -/
def execFwActivateNextReset (ch : ChanNo) (s : State) : Out := s.signedRow ch 0x0F01 (cmdFwActivate 0)
/-- FW_ACTIVATE with MODE 1 (R588). -/
def execFwActivateNow (ch : ChanNo) (s : State) : Out := s.signedRow ch 0x0F01 (cmdFwActivate 1)
/-- FW_ACTIVATE with MODE 2 (R588). -/
def execFwActivateRevert (ch : ChanNo) (s : State) : Out := s.signedRow ch 0x0F01 (cmdFwActivate 2)

/-! ### The Gaffer-initiated reset (R595) -/

/-- Answers that mailbox commands of closed channels wait for are forgotten. -/
def Mod.forgetWaits (m : Mod) : Mod :=
  ({ m with bufs := m.bufs.filter (fun b => decide (4096 ≤ b.key)) }).setFm (fun e => { e with
    vops := Tbl.mapV e.vops (fun _ v => { v with ch := 65536 }), joins := [], takes := [] })

/-- The reset: the Gaffer restarts from the active slot, every channel closes, loads and work before its point of no return end with ABORTED,
and the rest goes on. -/
def Mod.gafferReset (m : Mod) : Mod :=
  let m1 := (m.setBoot (fun b => { b with booted := some b.active })).forgetWaits.freeAllChans
  let m2 := m1.each m1.mvs (fun m v => if v.2.state = .loading then m.loadFail v.1 .aborted 0 0 else m)
  let m3 := m2.each m2.ctxs (fun m c => if c.2.work ≠ .none ∧ !c.2.pastPonr ∧ c.2.state ≠ .free ∧ c.2.state ≠ .complete then m.abortWork c.1 else m)
  { m3 with gaffer := { m3.gaffer with order := [], wakeLatched := false } }

/-- The work of FW_ACTIVATE ends: the slot is marked active, the kernel set is verified again (R496), and MODE 1 resets the Gaffer. -/
def Mod.fwActivateStep (m : Mod) (slot mode : Nat) : Mod :=
  let m1 := ((m.setBoot (fun b => { b with active := b.inactive })).verifyKernels).finish slot .ok 0 0
  if mode = 1 then m1.gafferReset else m1

/-- The effect of the row of `execGafferWatchdogReset` where it acts: its record comes after the channels have closed, since events of the reset
are not delivered (R595). -/
def Mod.watchdogReset (m : Mod) : Mod :=
  let recent := (m.boot.watchdogResets ++ [m.localTime]).filter (fun t => decide (m.localTime < t + 3600000000000))
  let m1 := (m.setBoot (fun b => { b with watchdogResets := recent })).gafferReset
  let m2 := m1.logErr { unit := 0, code := 0x0005, sev := .unit, detail := recent.length }
  if recent.length = 3 then m2.privilegedFault 0 0x0001 0 else m2

/-- GAFFER_WATCHDOG_RESET: the third within one hour is a privileged fault of pair 0. -/
def execGafferWatchdogReset (s : State) : Out :=
  s.act (fun m =>
    if m.pow.phase ≠ .on ∨ m.pow.modReset ∨ m.boot.step < 3 then m
    else m.watchdogReset)

/-! ### Life cycle (R598 to R601) -/

/-- A transition that R599 permits, from the life-cycle state in force; in FAILED_REPLACE to RETURN and END alone (R514). -/
def Mod.transition (m : Mod) (target : Nat) : Bool :=
  let lc := m.boot.lifecycle
  match target with
  | 2 => (lc = 1 || lc = 3) && m.boot.readiness != .failedReplace
  | 4 => lc = 1 || lc = 2 || lc = 3 || (m.boot.readiness = .failedReplace && lc = 0)
  | 5 => lc != 5
  | _ => false

/-- A life-cycle change is in progress before its step 3 (R610). -/
def Mod.changing (m : Mod) : Bool :=
  m.boot.lifecyclePending.isSome || m.ctxs.any (fun c => (c.2.state = .active || c.2.state = .cancelling) &&
    (match c.2.work with | .lifecycle _ => true | .debugUnlock => decide (m.boot.lifecycle ≠ 4) | _ => false))

/-- LIFECYCLE_SET. -/
def cmdLifecycleSet : Req → Fuses → Mod → (Fuses × Mod) × Reply :=
  signedCmd (fun o => o.kind = 3 && o.opcode = 0x0F02 && o.payloadBytes = 1) anyObject (fun _ m o => m.transition (field o.payload 0 1))
    (fun r fz m o =>
      if m.changing then ((fz, m), { status := .busy })
      else acceptSigned r fz m (.lifecycle (field o.payload 0 1)) (fun _ m => m))

/-- LIFECYCLE_SET (R599, R600). -/
def execLifecycleSet (ch : ChanNo) (s : State) : Out := s.signedRow ch 0x0F02 cmdLifecycleSet

/-- DEBUG_UNLOCK: a change of life cycle in OPERATIONAL; in RETURN the mask applies until the next cold reset. -/
def cmdDebugUnlock : Req → Fuses → Mod → (Fuses × Mod) × Reply :=
  signedCmd (fun o => o.kind = 4 && o.payloadBytes = 8 && field o.payload 0 8 ≤ 7) anyObject (fun _ m _ => m.boot.lifecycle = 2 || m.boot.lifecycle = 4)
    (fun r fz m o =>
      if m.boot.lifecycle = 2 ∧ m.changing then ((fz, m), { status := .busy })
      else if m.boot.lifecycle = 2 ∧ 32 ≤ fz.debugCount then ((fz, m), { status := .noResource })
      else acceptSigned r fz m .debugUnlock (fun n m => m.setCtx n (fun c => { c with progress := 0, data := field o.payload 0 8 })))

/-- DEBUG_UNLOCK (R599, R601). -/
def execDebugUnlock (ch : ChanNo) (s : State) : Out := s.signedRow ch 0x0F03 cmdDebugUnlock

/-- Steps 1 and 2 of R600: running movements end with ABORTED, streams and views close, and NAND work completes. -/
def Mod.quiesce (m : Mod) : Mod :=
  let m1 := m.each m.mvs (fun m v => if v.2.state = .running ∨ v.2.state = .stopping then m.haltRun v.1 7 else m)
  let m2 := m1.each (Tbl.keys m1.streams) Mod.closeStream
  let m3 := m2.each m2.ctxs (fun m c => match c.2.obj with | .view _ _ => m.closeObject c.1 7 | _ => m)
  { m3 with t2 := { m3.t2 with writeBuf := [] } }

/-- Step 3 of R600: the fuse of the transition; entry to RETURN or END erases the owner configuration, the manager list and the certificate
copy. -/
def burnFor (fz : Fuses) (lc target : Nat) : Fuses :=
  match target with
  | 2 => if lc = 3 then { fz with debugCount := fz.debugCount + 1 } else { fz with lcOperational := true }
  | 3 => { fz with debugCount := fz.debugCount + 1 }
  | 4 => { fz with lcReturn := true }
  | _ => { fz with lcEnd := true }

/-- Steps 3 and 4 of R600, with the debug mask that the new state keeps. -/
def Mod.changeLifecycle (m : Mod) (fz : Fuses) (target mask : Nat) : Fuses × Mod :=
  let m1 := m.setBoot (fun b => { b with debugMask := mask, bootKeyPresent := false })
  let m2 := if target = 4 ∨ target = 5 then m1.setBoot (fun b => { b with ownerConfig := none, managers := [], hasCert := false }) else m1
  (burnFor fz m.boot.lifecycle target, m2.coldReset.syncPins)

/-- OWNER_KEY_INSTALL: an empty payload signed by the key that it installs; OK is posted after step 3. -/
def cmdOwnerKeyInstall : Req → Fuses → Mod → (Fuses × Mod) × Reply :=
  signedCmd (fun o => o.kind = 3 && o.opcode = 0x0F04 && o.payloadBytes = 0) anyObject (fun fz m _ => m.boot.lifecycle = 0 && !fz.ownerSet)
    (fun _ fz m o =>
      (({ fz with ownerDigest := Config.sha384 (o.key 0), ownerSet := true }, m.quiesce.setBoot (fun b => { b with lifecyclePending := some 1 })), { status := .ok }))

/-- OWNER_KEY_INSTALL (R600, R603). -/
def execOwnerKeyInstall (ch : ChanNo) (s : State) : Out := s.signedRow ch 0x0F04 cmdOwnerKeyInstall

/-- LIFECYCLE_RESET_DELAY: step 4 of R600, 100 ms after OWNER_KEY_INSTALL posted OK. -/
def execLifecycleResetDelay (s : State) : Out :=
  s.act (fun m => if m.boot.lifecyclePending.isNone then m else m.coldReset.syncPins)

/-! ### The manager list and the measurements (R602, R606, R607) -/

/-- The identity that KIND and ID give (R49, R602); none where reserved bits are set. -/
def ownerOf (kind id : Nat) : Option Owner :=
  let o := match kind with
    | 1 => some (Owner.ld (BitVec.ofNat 6 id))
    | 2 => some (if bit id 31 then Owner.neighbour (BitVec.ofNat 4 id) else Owner.peer (BitVec.ofNat 14 id) (BitVec.ofNat 6 (id / 2 ^ 14)))
    | 3 => some (Owner.mctp (BitVec.ofNat 3 (id / 256)) (BitVec.ofNat 8 id))
    | _ => none
  o.bind (fun x => if x.ident = id then some x else none)

/-- The entries of a MANAGER_LIST_SET payload. -/
def managerEntries (p : List Byte) : Option (List Owner) :=
  let n := field p 0 1
  if 8 < n ∨ p.length ≠ 8 + 8 * n ∨ field p 1 7 ≠ 0 then none
  else
    (List.range n).foldl (fun (l : Option (List Owner)) i =>
      l.bind (fun xs => if field p (8 + 8 * i + 1) 3 ≠ 0 then none else (ownerOf (field p (8 + 8 * i) 1) (field p (8 + 8 * i + 4) 4)).map (fun o => xs ++ [o]))) (some [])

/-- MANAGER_LIST_SET: the whole list is replaced. -/
def cmdManagerListSet : Req → Fuses → Mod → (Fuses × Mod) × Reply :=
  signedCmd (fun o => o.kind = 3 && o.opcode = 0x0F05 && (managerEntries o.payload).isSome) anyObject anyState
    (fun _ fz m o => ((fz, m.setBoot (fun b => { b with managers := (managerEntries o.payload).getD [] })), { status := .ok }))

/-- MANAGER_LIST_SET (R602). -/
def execManagerListSet (ch : ChanNo) (s : State) : Out := s.signedRow ch 0x0F05 cmdManagerListSet

/-- The bytes of the manager list, as MANAGER_LIST_SET carries its entries. -/
def managerBytes (l : List Owner) : List Byte := l.flatMap (fun o => le 1 o.kind ++ le 3 0 ++ le 4 o.ident)

/-- A measurement: whether it is raw, and its bytes (R606). -/
def Mod.measurement (m : Mod) (fz : Fuses) (i : Nat) : Bool × List Byte :=
  let digest := fun (v : Nat) => (false, le 48 v)
  match i with
  | 1 => digest Config.bootRomDigest
  | 2 => digest (m.boot.booted.elim 0 (fun i => (m.boot.slots.getD i FwSlot.init).digest))
  | 3 => digest m.boot.katDigest
  | 4 => digest (m.boot.ownerConfig.elim 0 Config.sha384)
  | 5 => digest (Config.sha384 (managerBytes m.boot.managers))
  | 6 => (true, le 1 m.boot.lifecycle ++ le 1 fz.antiRollback ++ le 1 fz.debugCount)
  | _ => (true, le 1 m.t0.layout ++ le 1 (m.t0.channels.length - m.t0.offline.length) ++ le 1 0)

/-- GET_MEASUREMENTS. -/
def cmdGetMeasurements : Cmd := fun r m =>
  let i := r.arg 0 1
  if i < 1 ∨ 7 < i then badArg m 0
  else
    let v := m.measurement r.fuses i
    done m (le 1 i ++ le 1 (b2n v.1) ++ le 2 v.2.length ++ (v.2 ++ List.replicate 48 0).take 48)

/-- GET_MEASUREMENTS (R607). -/
def execGetMeasurements (ch : ChanNo) (s : State) : Out := s.mailbox ch 0x0F06 anyForm cmdGetMeasurements

end Sys2Proof.Machine
end

