-- ==== Sys2Proof/Machine/HostPorts.lean ====
section
/-! DEFINITION. The host ports and the functions: link training and loss, resets, the module as bus master, L1 (spec/14_host_ports.md R433 to
R435, R445, R449 to R452, R457 to R462). The places of registers in configuration space are PRESUMED (log 5). -/
namespace Sys2Proof.Machine

/-! ### The module as bus master (R457 to R459) -/

/-- Issue the writes that were held while Bus Master Enable was clear, in order, and the reads that may now be issued (R457, R462). -/
def Mod.flushDma (m : Mod) (l : Nat) : Mod :=
  if !(m.ld l).f1.busMaster then m
  else
    let due := (m.ld l).heldDma
    let m1 := m.setLd l (fun d => { d with heldDma := [] })
    (m1.each due (fun m w => (m.backToL0 l).hostWrites l w.1 w.2)).askReads askFuel

/-- The completion timeout in ns that Device Control 2 of function 1 selects: the upper end of the range (R459); 50 ms by default. -/
def Ld.timeoutNs (d : Ld) : Nat :=
  match Mem.rdLE d.f1.cfg 0x70 1 % 16 with
  | 1 => 100000 | 2 => 10000000 | 5 => 55000000 | 6 => 210000000 | 9 => 900000000 | 10 => 3500000000 | 13 => 13000000000
  | 14 => 64000000000 | _ => 50000000

/-- Retire a tag for twice the timeout (R459). -/
def Mod.retireTag (m : Mod) (l tag : Nat) : Mod :=
  m.setLd l (fun d => { d with retiredTags := (d.retiredTags.filter (fun x => decide (m.localTime < x.2) && x.1 != tag)) ++ [(tag, m.localTime + 2 * d.timeoutNs)] })

/-- A buffer key that no command and no load has: the reads of a buffer that has ended keep it until they complete. -/
def deadKey : Nat := 2 ^ 20

/-- The command or the load that issued a read ends; the completions of its other reads are no longer used (R458, R459). -/
def Mod.endReads (m : Mod) (l key : Nat) (st : Status) : Mod :=
  let m1 := m.setLd l (fun d => { d with reads := d.reads.map (fun r => if r.key = key then { r with key := deadKey } else r) })
  if key = deadKey then m1 else m1.bufFail key st

/-- Log a record of an LD against its host port (R460). -/
def Mod.portErr (m : Mod) (l code : Nat) (sev : Sev) : Mod := m.logErr { unit := 0x6000 + l / 16, code := code, sev := sev, context := 0x8000 + l }

/-- DMA_READ_COMPLETION: a piece of a read's data, in address order (R458). Poison or an error status ends the command that issued the read.
A completion that no outstanding read expects is unexpected (R459). -/
def execDmaReadCompletion (ld : LdId) (tag : BitVec 14) (data : List Byte) (poison : Bool) (error : Bool) (s : State) : Out :=
  s.act (fun m =>
    let l := ld.toNat
    if !m.presented l then m
    else
      match (m.ld l).reads.find? (fun r => r.tag = tag.toNat) with
      | none => (m.aer l 1 45 0).portErr l 0x0604 .info
      | some r =>
        let drop := fun (m : Mod) => m.setLd l (fun d => { d with reads := d.reads.filter (fun x => x.tag != tag.toNat) })
        if poison ∨ error then ((drop m).endReads l r.key (if error then .badArgument else .poisoned)).askReads askFuel
        else
          let n := min data.length r.left
          let m1 := if n = r.left then drop m else
            m.setLd l (fun d => { d with reads := d.reads.map (fun x => if x.tag = tag.toNat then { x with offset := x.offset + n, left := x.left - n } else x) })
          (m1.bufArrived r.key r.index r.offset (data.take n)).askReads askFuel)

/-- COMPLETION_TIMEOUT (R459). -/
def execCompletionTimeout (ld : LdId) (tag : BitVec 14) (s : State) : Out :=
  s.act (fun m =>
    let l := ld.toNat
    match (m.ld l).reads.find? (fun r => r.tag = tag.toNat) with
    | none => m
    | some r =>
      let m1 := (m.setLd l (fun d => { d with reads := d.reads.filter (fun x => x.tag != tag.toNat) })).retireTag l tag.toNat
      (((m1.aer l 1 14 1).portErr l 0x0603 .contained).endReads l r.key .timeout).askReads askFuel)

/-- BUS_MASTER_DISABLE: software clears Bus Master Enable of function 1; what has not been issued is held from here (R457). -/
def execBusMasterDisable (ld : LdId) (s : State) : Out :=
  s.act (fun m =>
    let l := ld.toNat
    if !m.presented l then m
    else if (m.ld l).f1.reset ≠ 0 then m.send (.retryStatus l 1)
    else (m.setLd l (fun d => d.setFunc 1 (fun f => { f with cfg := Mem.wrLE f.cfg 4 2 (clrBit (Mem.rdLE f.cfg 4 2) 2) }))).send (.cfgDone l 1))

/-! ### Resets (R449, R451) -/

/-- The registers of a function at an FLR: those that PCIe resets; the extended capabilities of the memory function stand (PRESUMED). -/
def Function.flr (f : Function) (fn kind : Nat) : Function :=
  let kept : Mem := if fn = 0 then f.cfg.filter (fun c => decide (0x100 ≤ c.1)) else []
  { f with cfg := Function.init.cfg ++ kept, reset := kind, intxStatus := 0, intxEnable := 0 }

/-- The effects on function 0: the primary mailbox and its registers, the event interrupt policy, which has one setting only, and INTX_. -/
def Mod.resetF0 (m : Mod) (l kind : Nat) : Mod :=
  (m.setLd l (fun d => { d with f0 := d.f0.flr 0 kind, regs := d.regs.filter (fun c => decide (c.1 < 0x11000)) })).syncIntx l 0

/-- The effects on function 1: DMA silenced and its tags retired, channels closing, rings removed, contexts closed, registers and the lease
reset. -/
def Mod.resetF1 (m : Mod) (l kind : Nat) : Mod :=
  let m1 := m.closeWhere (fun o => o.ldNo = some l)
  let m2 := { m1 with chans := Tbl.mapV m1.chans (fun _ c => if c.owner.ldNo = some l then { c with ring := none, held := [] } else c) }
  let m3 := m2.each (m.ld l).reads (fun m r => m.retireTag l r.tag)
  let m4 := m3.setLd l (fun d => { d with reads := [], heldDma := [], chnPend := [] })
  let m5 := m4.each (m4.bufs.filter (fun b => b.ld = some l && decide (b.key < 4096))) (fun m b => m.bufFail b.key .aborted)
  let m6 := m5.closeHolder (m5.heldCtxs l)
  let m7 := { m6 with bufs := m6.bufs.filter (fun b => b.ld != some l) }
  let m8 := m7.setMem (fun e => { e with lds := Tbl.upd e.lds l (fun b => { b with lease := .idle, since := m.localTime, cleanupLogged := false }) })
  (m8.setLd l (fun d => { d with f1 := d.f1.flr 1 kind })).syncIntx l 1

/-- What a CXL Reset adds: HDM decoders uncommitted, Memory_Active 0. -/
def Mod.resetCxl (m : Mod) (l : Nat) : Mod :=
  m.setLd l (fun d => { d with memoryActive := false, decoders := d.decoders.map (fun x => { x with committed := false, errNotCommitted := false }) })

/-- Memory_Active reads 1 again where R439 allows it. -/
def Mod.activate (m : Mod) (l : Nat) : Mod :=
  if m.boot.readiness = .ready ∧ m.presented l then m.setLd l (fun d => { d with memoryActive := true }) else m

/-- FLR_FUNCTION0. -/
def Mod.flr0 (m : Mod) (l : Nat) : Mod := if m.presented l then m.resetF0 l 1 else m
/-- FLR_FUNCTION1. -/
def Mod.flr1 (m : Mod) (l : Nat) : Mod := if m.presented l then m.resetF1 l 1 else m
/-- A CXL Reset of an LD, which does nothing on a port that runs as a PCIe endpoint. -/
def Mod.cxlReset (m : Mod) (l : Nat) : Mod :=
  if m.presented l ∧ (m.port (l / 16)).mode ≠ .pcie then ((m.resetF0 l 2).resetF1 l 2).resetCxl l else m

/-- FLR_FUNCTION0 (R449). -/
def execFlrFunction0 (ld : LdId) (s : State) : Out := s.act (fun m => m.flr0 ld.toNat)
/-- FLR_FUNCTION1 (R449). -/
def execFlrFunction1 (ld : LdId) (s : State) : Out := s.act (fun m => m.flr1 ld.toNat)
/-- CXL_RESET (R449). -/
def execCxlReset (ld : LdId) (s : State) : Out := s.act (fun m => m.cxlReset ld.toNat)

/-- RESET_COMPLETE (R451): an FLR ends for its function, a CXL Reset for both. -/
def execResetComplete (ld : LdId) (fn : BitVec 1) (s : State) : Out :=
  s.act (fun m =>
    let l := ld.toNat
    match ((m.ld l).func fn.toNat).reset with
    | 0 => m
    | 1 => m.setLd l (fun d => d.setFunc fn.toNat (fun f => { f with reset := 0 }))
    | _ => (m.setLd l (fun d => { d with f0 := { d.f0 with reset := 0 }, f1 := { d.f1 with reset := 0 } })).activate l)

/-- The last column of R449 for every LD of a port; its INTx is de-asserted without a message, since the link is down. -/
def Mod.portReset (m : Mod) (h : Nat) : Mod :=
  m.each (List.range 16) (fun m i =>
    let l := 16 * h + i
    let m0 := m.setLd l (fun d => { d with f0 := { d.f0 with intxEnable := 0, asserted := false }, f1 := { d.f1 with intxEnable := 0, asserted := false } })
    let m1 := ((m0.resetF0 l 0).resetF1 l 0).resetCxl l
    m1.setLd l (fun d => { d with
      f0 := { Function.init with urSecond := d.f0.urSecond }, f1 := { Function.init with urSecond := d.f1.urSecond }, regs := [] }))

/-- The link of a port goes down with its reset; the LTR value is forgotten. -/
def Mod.portDown (m : Mod) (h : Nat) : Mod :=
  ((m.takeClkreq h).portReset h).setPort h (fun p => { p with mode := .down, width := 0, rate := 0, inL1 := false, inL12 := false, ltr := none, ideSecure := false })

/-- PERST_ASSERT (R449, R651, R655): bring-up goes on. -/
def execPerstAssert (port : BitVec 2) (s : State) : Out :=
  s.act (fun m => (if m.pow.phase = .on then m.portDown port.toNat else m).setPort port.toNat (fun p => { p with perst := true }))

/-- PERST_DEASSERT: the port may train (R461, R592, R610). -/
def execPerstDeassert (port : BitVec 2) (s : State) : Out := s.act (fun m => m.setPort port.toNat (fun p => { p with perst := false }))

/-- HOT_RESET (R449). -/
def execHotReset (port : BitVec 2) (s : State) : Out :=
  s.act (fun m => if (m.port port.toNat).mode = .down then m else m.portDown port.toNat)

/-- HOST_LINK_LOST (R450). -/
def execHostLinkLost (port : BitVec 2) (s : State) : Out :=
  s.act (fun m => if (m.port port.toNat).mode = .down then m else (m.portErr (16 * port.toNat) 0x0605 .unit).portDown port.toNat)

/-- The effect of the row of `execIdeCheckFail` where it acts. -/
def Mod.ideFailed (m : Mod) (port : BitVec 2) : Mod :=
  let h := port.toNat
  let m1 := (m.send (.errFatal h)).portErr (16 * h) 0x0607 .unit
  ((m1.portErr (16 * h) 0x0605 .unit).portReset h).setPort h (fun p => { p with ideSecure := false, ideInsecure := true })

/-- IDE_CHECK_FAIL (R445): the data is discarded, the port is insecure, reports ERR_FATAL and is handled as a lost link until keys are
programmed again. Its configuration requests go on, since the keys come through them. -/
def execIdeCheckFail (port : BitVec 2) (s : State) : Out :=
  s.act (fun m =>
    let h := port.toNat
    if (m.port h).mode = .down ∨ !(m.port h).ideSecure then m
    else m.ideFailed port)

/-! ### Training and L1 (R433 to R435, R452) -/

/-- The widths and rates that a port trains to (R433). -/
def trainsTo (width rate : Nat) : Bool := [16, 8, 4].contains width && [2, 5, 8, 16, 32, 64, 128].contains rate

/-- The effect of the row of `execHostLinkTrained` where it acts. A port that trains has its connector mated, which no other command tells
(R12; log 54). -/
def Mod.linkTrained (m : Mod) (port : BitVec 2) (mode : BitVec 2) (width : Nat) (rate : Nat) : Mod :=
  let h := port.toNat
  let md := if rate ≤ 8 ∨ mode = 0 then PortMode.pcie else if mode = 2 then .mld else .sld
  let m0 := (m.takeClkreq h).setPow (fun p => { p with hmPrsnt := p.hmPrsnt.set h true })
  let m1 := m0.setPort h (fun p => { p with mode := md, width := width, rate := rate, inL1 := false, inL12 := false })
  let m2 := if width < 16 ∨ rate < 128 then m1.portErr (16 * h) 0x0606 .unit else m1
  let m3 := if md = .pcie then m2.portErr (16 * h) 0x0608 .info else m2
  m3.each (List.range 16) (fun m i => if (m.ld (16 * h + i)).f0.reset = 2 then m else m.activate (16 * h + i))

/-- HOST_LINK_TRAINED: mode 0 is a PCIe endpoint, 1 SLD, 2 MLD; at 8 GT/s and below only the first exists (R433, R434). Rate 2 stands for
2.5 GT/s. -/
def execHostLinkTrained (port : BitVec 2) (mode : BitVec 2) (width : Nat) (rate : Nat) (s : State) : Out :=
  s.act (fun m =>
    let h := port.toNat
    if m.pow.phase ≠ .on ∨ m.pow.modReset ∨ m.boot.step < 3 ∨ (m.port h).perst ∨ mode = 3 ∨ !trainsTo width rate then m
    else m.linkTrained port mode width rate)

/-- ASPM L1 and L1.2 as function 0 of the port's LD 0 enables them. -/
def Mod.aspmL1 (m : Mod) (h : Nat) : Bool := bit (Mem.rdLE (m.ld (16 * h)).f0.cfg 0x58 1) 1
def Mod.aspmL12 (m : Mod) (h : Nat) : Bool := bit (Mem.rdLE (m.ld (16 * h)).f0.cfg 0x158 1) 2

/-- L1_ENTRY_REQUEST (R452): L1 at P2 or below, L1.2 at P3 or P4 only. -/
def execL1EntryRequest (port : BitVec 2) (s : State) : Out :=
  s.act (fun m =>
    let h := port.toNat
    let deep := m.aspmL12 h && decide (3 ≤ m.pow.rung)
    if (m.port h).mode = .down ∨ !m.aspmL1 h ∨ m.pow.rung < 2 ∨ ((m.port h).inL1 ∧ ((m.port h).inL12 ∨ !deep)) then m
    else
      let m1 := (m.setPort h (fun p => { p with inL1 := true, inL12 := deep })).send (.l1Request h deep)
      if deep then m1.send (.portPin "CLKREQ#" h true) else m1)

end Sys2Proof.Machine
end

