-- ==== Sys2Proof/Machine/ConfigSpace.lean ====
section
/-! DEFINITION. What the functions show when they are read: configuration space (spec/14_host_ports.md R437 to R439, spec/21_register_map.md
R626) and the CXL structures in BAR0 of function 0 (R631). The values are the spec's; the places of the fields are those of PCI Express and
CXL (PRESUMED, log 5). -/
namespace Sys2Proof.Machine

/-- A field of some bytes at an offset, with its value. -/
structure ReadField where
  off : Nat
  width : Nat
  value : Nat

/-- The byte that a list of fields gives at an offset; unimplemented space reads 0 (R440). -/
def fieldByte (fs : List ReadField) (off : Nat) : Nat :=
  sumOf (fs.map (fun f => if f.off ≤ off ∧ off < f.off + f.width then f.value / 256 ^ (off - f.off) % 256 else 0))

/-! ### Configuration space (R437 to R439, R626) -/

/-- The header: identities, class codes, the kinds of the BARs, the multi-function bit, and INTA (R437, R453, R626). -/
def Mod.headerFields (m : Mod) (fz : Fuses) (l fn : Nat) : List ReadField :=
  [⟨0x00, 2, fz.vendorId % 2 ^ 16⟩, ⟨0x02, 2, 0x8420 + fn⟩, ⟨0x06, 1, 0x10 + 8 * b2n ((m.ld l).intxCond fn)⟩, ⟨0x08, 1, fz.hwRev % 256⟩,
   ⟨0x09, 3, if fn = 0 then 0x050210 else 0x088000⟩, ⟨0x0E, 1, 0x80⟩, ⟨0x10, 1, 4⟩, ⟨0x18, 1, if fn = 0 then 0 else 4⟩,
   ⟨0x20, 1, if fn = 0 then 0 else 4⟩, ⟨0x2C, 2, fz.vendorId % 2 ^ 16⟩, ⟨0x2E, 2, if m.n128 then 0x0080 else 0x0040⟩, ⟨0x34, 1, 0x40⟩, ⟨0x3D, 1, 1⟩]

/-- PCI Power Management with No_Soft_Reset, and PCI Express: an endpoint of 512 B payloads with FLR, completion timeout ranges A to D without
their disable, LTR on function 0, L1 without L0s, and the link as it runs (R438). -/
def Mod.capFields (m : Mod) (l fn : Nat) : List ReadField :=
  let p := m.port (l / 16)
  let speed := match p.rate with | 2 => 1 | 5 => 2 | 8 => 3 | 16 => 4 | 32 => 5 | 64 => 6 | 128 => 7 | _ => 0
  [⟨0x40, 1, 0x01⟩, ⟨0x41, 1, 0x48⟩, ⟨0x42, 2, 0x0003⟩, ⟨0x44, 1, 0x08⟩,
   ⟨0x48, 1, 0x10⟩, ⟨0x4A, 2, 0x0002⟩, ⟨0x4C, 4, 2 + 2 ^ 5 + 2 ^ 15 + 2 ^ 28⟩, ⟨0x54, 4, 7 + 16 * 2 ^ 4 + 2 * 2 ^ 10⟩, ⟨0x5A, 2, speed + p.width * 2 ^ 4⟩,
   ⟨0x6C, 4, 0xF + (if fn = 0 then 2 ^ 11 else 0) + 2 ^ 16 + 2 ^ 17⟩, ⟨0x74, 4, 0xFE⟩]

/-- An extended capability header: its ID, its version and the next one. -/
def extCap (off id version next : Nat) : ReadField := ⟨off, 4, id + version * 2 ^ 16 + next * 2 ^ 20⟩

/-- The headers of a DVSEC: vendor 0x1E98 with revision and length, then its ID. -/
def dvsec (off id revision length next : Nat) : List ReadField :=
  [extCap off 0x23 1 next, ⟨off + 4, 4, 0x1E98 + revision * 2 ^ 16 + length * 2 ^ 20⟩, ⟨off + 8, 2, id⟩]

/-- The extended capabilities of R438, and no others: AER, Device Serial Number and Register Locator on both functions, and on function 0 L1 PM
Substates, DOE, IDE and the DVSECs of CXL. The DVSEC for CXL Devices shows the settings of R439. -/
def Mod.extFields (m : Mod) (fz : Fuses) (l fn : Nat) : List ReadField :=
  let d := m.ld l
  let serial : ReadField := ⟨0x304, 8, fz.serial % 2 ^ 64⟩
  if fn = 0 then
    [extCap 0x100 0x01 2 0x150, extCap 0x150 0x1E 1 0x180, ⟨0x154, 1, 0x1C⟩, extCap 0x180 0x2E 1 0x1A0, extCap 0x1A0 0x30 1 0x200, ⟨0x1A4, 1, 0x01⟩] ++ dvsec 0x200 0 2 0x3C 0x240 ++
      [⟨0x20A, 2, 0x0096 + (if (m.port (l / 16)).mode = .mld then 2 ^ 13 else 0)⟩, ⟨0x21C, 4, 1 + 2 * b2n d.memoryActive⟩] ++ dvsec 0x240 5 0 0x10 0x260 ++
      dvsec 0x260 7 2 0x20 0x280 ++ [⟨0x26A, 2, 0x0026⟩] ++ dvsec 0x280 8 0 0x1C 0x300 ++
      [extCap 0x300 0x03 1 0, serial, ⟨0x28C, 4, 1 * 2 ^ 8⟩, ⟨0x294, 4, 3 * 2 ^ 8 + 0x10000⟩]
  else
    [extCap 0x100 0x01 2 0x280] ++ dvsec 0x280 8 0 0x24 0x300 ++
      [extCap 0x300 0x03 1 0, serial, ⟨0x28C, 4, 0xFF * 2 ^ 8⟩, ⟨0x294, 4, 2 + 0xFF * 2 ^ 8⟩, ⟨0x29C, 4, 4 + 0xFF * 2 ^ 8⟩]

/-- What a configuration read gives for one byte: the writable bits as they stand, and the bits that the module sets (R437 to R440). -/
def Mod.configRead (m : Mod) (fz : Fuses) (l fn off : Nat) : Nat :=
  (Mem.rd ((m.ld l).func fn).cfg off).toNat ||| fieldByte (m.headerFields fz l fn ++ m.capFields l fn ++ m.extFields fz l fn) off

/-! ### BAR0 of function 0 (R631) -/

/-- A 4 B register of an HDM decoder (R446). -/
def HdmDecoder.word (x : HdmDecoder) (off : Nat) : Nat :=
  match off with
  | 0x00 => x.base % 2 ^ 32
  | 0x04 => x.base / 2 ^ 32
  | 0x08 => x.size % 2 ^ 32
  | 0x0C => x.size / 2 ^ 32
  | 0x10 => x.granLog2 - 8 + x.waysLog2 * 2 ^ 4 + b2n x.lockOnCommit * 2 ^ 8 + b2n (x.committed || x.errNotCommitted) * 2 ^ 9 +
              b2n x.committed * 2 ^ 10 + b2n x.errNotCommitted * 2 ^ 11 + 2 ^ 12
  | 0x14 => x.skip % 2 ^ 32
  | 0x18 => x.skip / 2 ^ 32
  | _ => 0

/-- What a 4 B read of BAR0 of function 0 gives below the INTX_ registers. The capability headers name RAS, Link, HDM Decoder and IDE; the HDM
Decoder Capability names four decoders with granularities to 16 KiB, and poison for a read outside them; Event Status names the logs of R441 that
hold records; Media Status reads Ready exactly while Memory_Active reads 1, and Mailbox Interface Ready from step 3 of R590; the mailbox has
payloads of 4,096 B and no interrupt (R446, R631). -/
def Mod.f0Read (m : Mod) (l off : Nat) : Nat :=
  let d := m.ld l
  let p := m.port (l / 16)
  if 0x1210 ≤ off ∧ off < 0x1290 then (d.decoders.getD ((off - 0x1210) / 32) HdmDecoder.init).word ((off - 0x1210) % 32)
  else
    match off with
    | 0x1000 => 1 + 1 * 2 ^ 16 + 1 * 2 ^ 20 + 4 * 2 ^ 24
    | 0x1004 => 2 + 2 * 2 ^ 16 + 0x080 * 2 ^ 20
    | 0x1008 => 4 + 2 * 2 ^ 16 + 0x100 * 2 ^ 20
    | 0x100C => 5 + 1 * 2 ^ 16 + 0x200 * 2 ^ 20
    | 0x1010 => 7 + 1 * 2 ^ 16 + 0x300 * 2 ^ 20
    | 0x1200 => 2 + 2 ^ 8 + 2 ^ 9 + 2 ^ 10
    | 0x1300 => 0x07
    | 0x130C => if p.ideInsecure then 0x44 else if p.ideSecure then 0x11 else 0x88
    | 0x10000 => 1 * 2 ^ 16 + 1 * 2 ^ 24
    | 0x10004 => 3
    | 0x10010 => 1 + 2 * 2 ^ 16
    | 0x10014 => 0x80
    | 0x10018 => 8
    | 0x10020 => 2 + 1 * 2 ^ 16
    | 0x10024 => 0x1000
    | 0x10028 => 0x1020
    | 0x10030 => 0x4000 + 1 * 2 ^ 16
    | 0x10034 => 0x100
    | 0x10038 => 8
    | 0x10080 => packBits ((List.range 5).map (fun i => d.eventLogs.getD i [] != []))
    | 0x10100 => (if d.memoryActive then 4 else 0) + (if 3 ≤ m.boot.step then 16 else 0)
    | 0x11000 => 12
    | _ => Mem.rdLE d.regs off 4

end Sys2Proof.Machine
end

