-- ==== Sys2Proof/Machine/HostRows.lean ====
section
/-! DEFINITION. The channel rows of the table (spec/02_control_model.md R46 to R75) and the CXL.mem requests of the hosts (spec/14_host_ports.md R448). A request brings the link and the module to a rung that
serves it (spec/18_power_coolant_rungs.md R566). -/
namespace Sys2Proof.Machine

/-- A request of a host: an exit to P1 from a lower rung, and the end of a descent (R563, R566). FAILED_REPLACE answers where it rests. -/
def Mod.hostTraffic (m : Mod) (l : Nat) : Mod := (m.backToL0 l).wake (if m.pow.rung ≤ 1 then none else some 2) (some 1)

/-- An access to a channel page. One by a host LD, other than a doorbell, is served once the module is at P1 or above (R629). -/
def Mod.pageAccess (m : Mod) (who : Owner) (f : Mod → Mod) : Mod :=
  m.viaBar2 who (fun m => f (match who with | .ld id => m.hostTraffic id.toNat | _ => m))

/-! ### The channel rows -/


/-- OPEN_CHANNEL (R52, R53). -/
def execOpenChannel (ch : ChanNo) (who : Owner) (s : State) : Out :=
  s.act (fun m => m.pageAccess who (fun m => m.openChan ch.toNat who))

/-- CLOSE_CHANNEL (R55). -/
def execCloseChannel (ch : ChanNo) (who : Owner) (s : State) : Out :=
  s.act (fun m => m.pageAccess who (fun m => m.closeChan ch.toNat who))

/-- CHANNEL_FREE (R55). -/
def execChannelFree (ch : ChanNo) (s : State) : Out := s.act (fun m => m.chanFree ch.toNat)

/-- CHANNEL_IDLE_TIMEOUT: 600 s without an access by an owner that is not a host LD closes the channel (R56). -/
def execChannelIdleTimeout (ch : ChanNo) (s : State) : Out :=
  s.act (fun m => match Tbl.find m.chans ch.toNat with
    | some c => if c.owner.ldNo = none then m.moduleClose ch.toNat else m
    | none => m)

/-- RING_DOORBELL (R60, R61). With a fault in both Gaffer pairs, the wake logic alone takes it in (R44). -/
def execRingDoorbell (ch : ChanNo) (who : Owner) (s : State) : Out :=
  s.act (fun m =>
    if m.gafferDead then { m with gaffer := { m.gaffer with wakeLatched := true } } else m.viaBar2 who (fun m => m.ring ch.toNat who))

/-- CHN_ERR_CLEAR (R50, R51). -/
def execChnErrClear (ch : ChanNo) (who : Owner) (value : BitVec 64) (s : State) : Out :=
  s.act (fun m => m.pageAccess who (fun m => m.clearChnErr ch.toNat who value.toNat))

/-- RESULT_SLOT_WRITE (R50). -/
def execResultSlotWrite (ch : ChanNo) (who : Owner) (s : State) : Out :=
  s.act (fun m => m.pageAccess who (fun m => m.resultWrite ch.toNat who))

/-- CRING_TAIL_WRITE (R641). -/
def execCringTailWrite (ch : ChanNo) (who : Owner) (value : BitVec 64) (s : State) : Out :=
  s.act (fun m => m.pageAccess who (fun m => m.writeTail ch.toNat who value.toNat))

/-- The CODE of the record that the module last wrote to a ring slot, read from what it sent. -/
def lastCode (out : List Output) (l address : Nat) : Nat :=
  out.foldl (fun c o => match o with
    | .hostWrite l' a bs => if l' = l ∧ a = address then leNat ((bs.drop 16).take 2) else c
    | _ => c) 0

/-- RING_WRITE_FAILED: a ring write got an error response: CRING_FAULT, the ring disabled, later records held, and a
RING_WRITE_FAILED record (R73). -/
def execRingWriteFailed (ch : ChanNo) (index : BitVec 32) (s : State) : Out :=
  s.act (fun m => match Tbl.find m.chans ch.toNat with
    | none => m
    | some c =>
      match c.ring, c.owner.ldNo with
      | some r, some l =>
        let addr := r.base + 32 * (index.toNat % 2 ^ r.log2)
        ((m.setChan ch.toNat (fun c => { c with ring := some { r with disabled := true } })).setChnErr ch.toNat 4).logErr
          { unit := 0x6000 + l / 16, code := 0x0609, sev := .contained, opn := .background, address := addr,
            space := .hostPhys, context := 0x8000 + l, detail := lastCode m.out l addr }
      | _, _ => m)

/-- CONTEXT_RETIRE: 10 s after completion a COMPLETE context whose status has not been read becomes FREE (R86). -/
def execContextRetire (slot : SlotNo) (s : State) : Out := s.act (fun m => m.retireCtx (m.idOf slot.toNat))

/-- CHN_MSG (R75). An LD reaches its channels through BAR2, so a message names a fabric peer or an MCTP endpoint. -/
def execChnMsg (who : Owner) (write : Bool) (ch : ChanNo) (offset : BitVec 12) (length : Nat) (data : List Byte) (s : State) : Out :=
  s.act (fun m => if who.ldNo = none then m.viaBar2 who (fun m => m.chnMsg who write ch.toNat offset.toNat length data) else m)

/-! ### The CXL.mem rows (R448) -/

/-- MEM_RD: MemRd and MemRdData (R448). -/
def execMemRd (ld : LdId) (hpa : BitVec 64) (tag : BitVec 16) (check : Media) (s : State) : Out :=
  s.act (fun m =>
    let l := ld.toNat
    if !m.cxlUp l then m
    else
      let m := m.hostTraffic l
      match m.decodeHpa l (hpa.toNat / 64 * 64) with
      | none => let m1 := m.outsideLog l hpa.toNat .hostRead
                let d := m1.devLoad l
                d.2.send (.cxlData l tag.toNat (List.replicate 64 0) true d.1)
      | some dpa => m.hostReadAt l tag.toNat dpa hpa.toNat check)

/-- MEM_SPEC_RD: a hint that may start a promotion, which is a free choice; no response. -/
def execMemSpecRd (ld : LdId) (hpa : BitVec 64) (s : State) : Out :=
  s.act (fun m =>
    let l := ld.toNat
    if !m.cxlUp l then m
    else
      let c := (m.hostTraffic l).choose 2
      let m := c.2
      match m.decodeHpa l hpa.toNat with
      | none => m
      | some dpa =>
        match m.reachOf l dpa with
        | some (r, sel, pane, _) =>
          (match m.recAt r sel pane with
            | some (k, x) => if c.1 = 1 ∧ r < 0x8000 ∧ (x.tier = .t1 ∨ x.tier = .t2) ∧ x.form ≠ .zero ∧
                                  ((Tbl.find m.mem.regions r).elim false (fun g => m.residency g == Residency.float)) then c.2.promoteForRead k (some l) else c.2
            | none => c.2)
        | none => c.2)

/-- MEM_INV: MemInv and MemInvNT complete with Cmp at once (R448). -/
def execMemInv (ld : LdId) (_hpa : BitVec 64) (tag : BitVec 16) (s : State) : Out :=
  s.act (fun m => if m.cxlUp ld.toNat then (m.hostTraffic ld.toNat).hostCmp ld.toNat tag.toNat else m)

/-- A line write at an HPA. -/
def Mod.hostWrite (m : Mod) (l tag hpa : Nat) (data : List Byte) (enable : List Bool) (poison : Bool) : Mod :=
  if !m.cxlUp l then m
  else
    let m1 := (m.hostTraffic l).count 0x0009 (0x6000 + l / 16) l (m.ldPart l) 64
    match m1.decodeHpa l (hpa / 64 * 64) with
    | none => (m1.outsideLog l hpa .hostWrite).hostCmp l tag
    | some dpa => m1.hostWriteAt l tag dpa hpa ((data ++ List.replicate 64 0).take 64) enable poison

/-- MEM_WR: a whole-line write (R448). -/
def execMemWr (ld : LdId) (hpa : BitVec 64) (tag : BitVec 16) (data : List Byte) (poison : Bool) (s : State) : Out :=
  s.act (fun m => m.hostWrite ld.toNat tag.toNat hpa.toNat data [] poison)

/-- MEM_WR_PTL: a partial-line write of the enabled bytes (R386, R448). -/
def execMemWrPtl (ld : LdId) (hpa : BitVec 64) (tag : BitVec 16) (data : List Byte) (enable : BitVec 64) (poison : Bool) (s : State) : Out :=
  s.act (fun m => m.hostWrite ld.toNat tag.toNat hpa.toNat data ((List.range 64).map (fun i => bit enable.toNat i)) poison)

end Sys2Proof.Machine
end

