-- ==== Sys2Proof/Machine/Registers.lean ====
section
/-! DEFINITION. The host-visible registers (spec/21_register_map.md R627 to R645): what each reads, what a write does, the interrupt registers
(spec/14_host_ports.md R453 to R456), the HDM decoders (R446) and configuration space (R437 to R440). The places of registers in
configuration space, of the CXL structures in BAR0 of function 0 and of their fields are PRESUMED (log 5). -/
namespace Sys2Proof.Machine

/-! ### What the registers read (R633, R634, R637 to R639, R642, R643) -/

/-- Sum of fields, each with its lowest bit. -/
def fields (l : List (Nat × Nat)) : Nat := sumOf (l.map (fun p => p.2 * 2 ^ p.1))

/-- The IDN_ registers. -/
def Mod.idnReg (m : Mod) (fz : Fuses) (l : Nat) (off : Nat) : Option Nat :=
  match off with
  | 0x00 => some (fields [(0, fz.vendorId % 2 ^ 16), (16, 0x8420), (32, b2n m.n128), (40, fz.hwRev % 256)])
  | 0x08 => some (fz.serial % 2 ^ 64)
  | 0x10 => some (fields [(0, m.fwVersion % 2 ^ 32), (32, m.boot.booted.getD 0 % 2), (40, fz.antiRollback % 256)])
  | 0x18 => some (fields [(0, m.boot.lifecycle % 256), (8, fz.debugCount % 64), (16, b2n fz.ownerSet)])
  | 0x20 => some (m.t1Bytes % 2 ^ 64)
  | 0x28 => some (m.t2Bytes % 2 ^ 64)
  | 0x30 => some (fields [(0, l % 16), (4, l / 16 % 4), (6, b2n ((m.port (l / 16)).mode = .mld)), (8, (m.ldPart l).getD 0xFF % 256), (16, m.pow.slotId % 64)])
  | _ => none

/-- The lowest free channel, or 0xFFFF (R54). -/
def Mod.freeChannel (m : Mod) : Nat := ((Tbl.lowestFree m.chans 4096)).getD 0xFFFF

/-- The STS_ registers. -/
def Mod.stsReg (m : Mod) (off : Nat) : Option Nat :=
  match off with
  | 0x100 => some (fields [(0, m.boot.readiness.code), (3, b2n m.boot.recovery), (4, m.pow.rung % 8), (16, b2n (m.pow.leakClass = 1)),
      (17, b2n (m.pow.leakClass = 2)), (18, b2n m.pow.alertPin), (32, m.bootProgress % 2 ^ 16)])
  | 0x108 => some (b2n m.pow.leakFlag + 2 * b2n m.pow.sensorFlag)
  | 0x110 => some m.freeChannel
  | 0x118 => some (fields [(0, (if m.boot.step < 3 then 0 else m.t0.layout) % 256), (8, (m.t0.channels.length - m.t0.offline.length) % 256)])
  | 0x120 => some m.ftc
  | 0x128 => some (m.unreadErrors % 2 ^ 32)
  | 0x130 => some (fields [(0, toTwos 16 m.maxTemp), (16, toTwos 16 m.pow.inletT)])
  | _ => none

/-- INTX_CHN_PENDj of an LD. -/
def Ld.pendWord (d : Ld) (j : Nat) : Nat := packBits ((List.range 64).map (fun i => d.chnPend.contains (64 * j + i)))

/-- LSE_STATUS; the time to the next change in CLEANUP is not stated (R638): a free value. -/
def Mod.lseStatus (m : Mod) (l : Nat) : Nat :=
  match Tbl.find m.mem.lds l with
  | none => 0xFFFFFFFF * 2 ^ 32
  | some b =>
    let left := match b.lease with | .idle => 0xFFFFFFFF | .cleanup => Config.freeNat m.freeIx % 2 ^ 32 | _ => (b.since + b.ns - m.localTime) / 1000000
    fields [(0, b.lease.code), (16, b.periodS % 2 ^ 16), (32, left % 2 ^ 32)]

/-- The INTX_ and LSE_ registers of function 1. -/
def Mod.ldReg (m : Mod) (l : Nat) (off : Nat) : Option Nat :=
  if off = 0x200 then some ((m.ld l).intxStatus 1)
  else if off = 0x208 then some (m.ld l).f1.intxEnable
  else if 0x400 ≤ off ∧ off < 0x600 ∧ off % 8 = 0 then some ((m.ld l).pendWord ((off - 0x400) / 8))
  else if off = 0x800 then some 0
  else if off = 0x808 then some (m.lseStatus l)
  else none

/-- The PWR_ and FAB_ registers. -/
def Mod.pwrFabReg (m : Mod) (off : Nat) : Option Nat :=
  let p := m.pow
  match off with
  | 0xA00 => some (fields [(0, p.rung % 8), (4, p.resting % 8), (8, p.kept % 4), (16, p.sustained % 2 ^ 16), (32, p.p100 % 2 ^ 16), (48, p.cSteps % 32), (56, p.bSteps % 16)])
  | 0xA08 => some (m.blockers % 2 ^ 32)
  | 0xA10 => some (p.energyUJ / 1000000 % 2 ^ 64)
  | 0xC00 => some (fields [(0, m.fab.deviceId % 2 ^ 16), (16, m.fab.lastWave % 2 ^ 16), (32, m.fab.routeGen % 2 ^ 16), (48, b2n (m.fab.deviceId = 0xFFFF)),
      (49, b2n m.fab.stepped), (50, b2n m.fab.synced), (51, b2n m.fab.shadowDirty)])
  | 0xC08 => some (fields ((List.range 16).map (fun i => (4 * i, (m.fport i).state.code % 16))))
  | _ => none

def TraceState.number : TraceState → Nat
  | .idle => 0 | .recording => 1 | .capturing => 2 | .stopped => 3

/-- The CTR_ and TRC_ windows of BAR4; the TRC_ registers read zero off the manager list. -/
def Mod.bar4Reg (m : Mod) (l : Nat) (off : Nat) : Option Nat :=
  let own := fun (v : Nat) => some (if m.isManager (.ld (BitVec.ofNat 6 l)) then v else 0)
  let t := m.svc.trace
  if off < 0x200 ∧ off % 8 = 0 then some (match m.ldPart l with | some p => (m.counter (ctrKey (some p) (off / 8))).word | none => 0)
  else
    match off with
    | 0x200 => some (b2n (match m.ldPart l with | some p => (Tbl.find m.mem.parts p).elim false (fun x => x.frozen) | none => false) + 2 * b2n m.svc.ctr.moduleFrozen)
    | 0x208 => some (m.freezeOf (m.ldPart l)).2
    | 0x1000 => own (fields [(0, t.state.number), (2, t.mode % 4), (32, m.svc.hang.held.length % 2 ^ 32)])
    | 0x1008 => own t.events.length
    | 0x1010 => own t.dropped
    | 0x1018 => own ((t.events.findIdx? (fun e => e.kind = 0x0E)).getD (2 ^ 64 - 1))
    | 0x1020 => own (fields [(0, t.carveMiB % 2 ^ 32), (32, t.dumpMiB % 2 ^ 32)])
    | _ => none

/-- Offsets of BAR0 of function 0 that the structures of R631 implement. -/
def f0Implemented (off : Nat) : Bool :=
  (decide (0x1000 ≤ off) && decide (off < 0x1400)) || (decide (0x10000 ≤ off) && decide (off < 0x10140)) ||
    (decide (0x11000 ≤ off) && decide (off < 0x12020)) || off = 0x30000 || off = 0x30004 || off = 0x30008 || off = 0x3000C

/-- What an 8 B read of a register gives; none where no register is (R627, R631, R632, R642). -/
def Mod.register (m : Mod) (fz : Fuses) (l : Nat) (bar : Bar) (off : Nat) : Option Nat :=
  match bar with
  | .f0bar0 =>
    if off = 0x30000 then some ((m.ld l).intxStatus 0)
    else if off = 0x30008 then some (m.ld l).f0.intxEnable
    else if f0Implemented off then some (m.f0Read l off % 2 ^ 32 + m.f0Read l (off + 4) % 2 ^ 32 * 2 ^ 32)
    else none
  | .f1bar0 => (m.idnReg fz l off).or ((m.stsReg off).or ((m.ldReg l off).or (m.pwrFabReg off)))
  | .f1bar2 => none
  | .f1bar4 => m.bar4Reg l off

/-! ### W1C registers and INTX_ENABLE (R37, R453 to R456, R635 to R637) -/

/-- A write to STS_LATCH: only a manager clears, and a condition that persists stays set (R37, R635). -/
def Mod.clearLatch (m : Mod) (l v : Nat) : Mod :=
  if !m.isManager (.ld (BitVec.ofNat 6 l)) then m
  else
    let leak := m.pow.leakFlag && (!bit v 0 || m.pow.leakClass = 1)
    let sensor := m.pow.sensorFlag && (!bit v 1 || m.pow.leakClass = 2)
    if leak = m.pow.leakFlag ∧ sensor = m.pow.sensorFlag then m
    else ((m.setPow (fun p => { p with leakFlag := leak, sensorFlag := sensor })).syncPins).moduleChanged

/-- A W1C write to INTX_STATUS of a function (R454 to R456). -/
def Mod.clearIntx (m : Mod) (l fn v : Nat) : Mod :=
  (m.setLd l (fun d => d.setFunc fn (fun f => { f with intxStatus := packBits ((List.range 5).map (fun i => bit f.intxStatus i && !bit v i)) }))).syncIntx l fn

/-- A write to INTX_ENABLE of a function: its implemented bits (R454, R455). -/
def Mod.writeEnable (m : Mod) (l fn v : Nat) : Mod :=
  (m.setLd l (fun d => d.setFunc fn (fun f => { f with intxEnable := v % (if fn = 0 then 4 else 32) }))).syncIntx l fn

/-- A W1C write to INTX_CHN_PENDj: the bits of the LD's own channels (R637). -/
def Mod.clearPend (m : Mod) (l j v : Nat) : Mod :=
  let own := fun (ch : Nat) => (Tbl.find m.chans ch).elim false (fun c => c.owner.ldNo = some l)
  (m.setLd l (fun d => { d with chnPend := d.chnPend.filter (fun ch => !(ch / 64 = j && bit v (ch % 64) && own ch)) })).syncIntx l 1

/-- A memory request of an LD to an identity or status register of a function: served at P1 or above, or UR (R440, R451, R629). -/
def Mod.statusAccess (m : Mod) (l fn : Nat) (f : Mod → Mod) : Mod :=
  if !m.presented l then m else if m.blocked l fn then (m.backToL0 l).hostUR l fn else f (m.hostTraffic l)

/-- The same for any other register, which no longer answers once both Gaffer pairs have a fault (R44). -/
def Mod.regAccess (m : Mod) (l fn : Nat) (f : Mod → Mod) : Mod := if m.gafferDead then m else m.statusAccess l fn f

/-- STS_LATCH_CLEAR. -/
def execStsLatchClear (ld : LdId) (value : BitVec 64) (s : State) : Out :=
  s.act (fun m => m.statusAccess ld.toNat 1 (fun m => m.clearLatch ld.toNat value.toNat))

/-- INTX_STATUS_CLEAR. -/
def execIntxStatusClear (ld : LdId) (fn : BitVec 1) (value : BitVec 64) (s : State) : Out :=
  s.act (fun m => m.regAccess ld.toNat fn.toNat (fun m => m.clearIntx ld.toNat fn.toNat value.toNat))

/-- INTX_CHN_PEND_CLEAR. -/
def execIntxChnPendClear (ld : LdId) (word : BitVec 6) (value : BitVec 64) (s : State) : Out :=
  s.act (fun m => m.regAccess ld.toNat 1 (fun m => m.clearPend ld.toNat word.toNat value.toNat))

/-- INTX_ENABLE_WRITE. -/
def execIntxEnableWrite (ld : LdId) (fn : BitVec 1) (value : BitVec 64) (s : State) : Out :=
  s.act (fun m => m.regAccess ld.toNat fn.toNat (fun m => m.writeEnable ld.toNat fn.toNat value.toNat))

/-! ### HDM decoders (R446) -/

/-- The end of the DPA range of the decoder before decoder `i`. -/
def Ld.dpaEnd (d : Ld) (i : Nat) : Nat :=
  match i with
  | 0 => 0
  | k + 1 => let x := d.decoders.getD k HdmDecoder.init; x.dpaBase + x.size / 2 ^ x.waysLog2

/-- The settings of a decoder lie within R446, given where its DPA range begins and the decoders of the function. -/
def Ld.decoderOk (d : Ld) (i : Nat) (x : HdmDecoder) (start : Nat) : Bool :=
  x.base % 2 ^ 28 = 0 && x.size % 2 ^ 28 = 0 && decide (x.waysLog2 ≤ 3) && decide (8 ≤ x.granLog2) && decide (x.granLog2 ≤ 14) &&
    (d.decoders.take i).all (fun y => y.committed) &&
    d.decoders.all (fun y => !y.committed || decide (x.base + x.size ≤ y.base) || decide (y.base + y.size ≤ x.base)) &&
    decide (start + x.size / 2 ^ x.waysLog2 ≤ 2 ^ 48)

/-- A commit of decoder `i`: Committed, or Error Not Committed (R446). A committed decoder stands as it is. -/
def Mod.commitDecoder (m : Mod) (l i : Nat) : Mod :=
  let d := m.ld l
  let x := d.decoders.getD i HdmDecoder.init
  let start := d.dpaEnd i + x.skip
  if x.committed ∨ (m.port (l / 16)).mode = .pcie then m
  else if d.decoderOk i x start then m.setLd l (fun d => { d with decoders := d.decoders.set i { x with dpaBase := start, committed := true, errNotCommitted := false } })
  else m.setLd l (fun d => { d with decoders := d.decoders.set i { x with errNotCommitted := true } })

/-- HDM_DECODER_COMMIT. -/
def execHdmDecoderCommit (ld : LdId) (index : BitVec 2) (s : State) : Out :=
  s.act (fun m => m.regAccess ld.toNat 0 (fun m => m.commitDecoder ld.toNat index.toNat))

/-- Replace the low or high 32 bits of a value. -/
def putHalf (v : Nat) (high : Bool) (x : Nat) : Nat := if high then v % 2 ^ 32 + x % 2 ^ 32 * 2 ^ 32 else v / 2 ^ 32 * 2 ^ 32 + x % 2 ^ 32

/-- A 4 B write to a register of decoder `i`: its settings while it is not committed; its control register holds granularity, ways, Lock On
Commit and Commit, and clearing Commit uncommits a decoder that is not locked. -/
def Mod.writeDecoder (m : Mod) (l i off v : Nat) : Mod :=
  let x := (m.ld l).decoders.getD i HdmDecoder.init
  let put := fun (y : HdmDecoder) => m.setLd l (fun d => { d with decoders := d.decoders.set i y })
  match x.committed, off with
  | true, 0x10 => if bit v 9 ∨ x.lockOnCommit then m else put { x with committed := false }
  | true, _ => m
  | false, 0x00 => put { x with base := putHalf x.base false (v / 2 ^ 28 * 2 ^ 28) }
  | false, 0x04 => put { x with base := putHalf x.base true v }
  | false, 0x08 => put { x with size := putHalf x.size false (v / 2 ^ 28 * 2 ^ 28) }
  | false, 0x0C => put { x with size := putHalf x.size true v }
  | false, 0x10 =>
    let m1 := put { x with granLog2 := 8 + v % 16, waysLog2 := v / 16 % 16, lockOnCommit := bit v 8, errNotCommitted := false }
    if bit v 9 then m1.commitDecoder l i else m1
  | false, 0x14 => put { x with skip := putHalf x.skip false (v / 2 ^ 28 * 2 ^ 28) }
  | false, 0x18 => put { x with skip := putHalf x.skip true v }
  | false, _ => m

/-! ### REGISTER_WRITE (R440, R627, R631, R632, R642) -/

/-- The writable bits of a 4 B register of those structures; the others are reserved or read-only (R5; PRESUMED: the fields of the CXL
specification, log 5). The doorbell of the primary mailbox reads 0, because each of its commands is a row of the table. -/
def f0Mask (off : Nat) : Nat :=
  match off with
  | 0x1084 => 0x0001CFFF | 0x1088 => 0x0001CFFF | 0x1090 => 0x0000007F
  | 0x1204 => 0x00000003 | 0x1308 => 0x00000003
  | 0x11008 => 0xFFFFFFFF | 0x1100C => 0x0000001F
  | _ => if 0x11020 ≤ off ∧ off < 0x12020 then 0xFFFFFFFF else 0

/-- A 4 B write to BAR0 of function 0. -/
def Mod.f0Write (m : Mod) (l off : Nat) (bs : List Byte) : Mod :=
  let v := leNat bs
  if off = 0x30000 then m.clearIntx l 0 v
  else if off = 0x30008 then m.writeEnable l 0 v
  else if 0x1210 ≤ off ∧ off < 0x1290 then m.writeDecoder l ((off - 0x1210) / 32) ((off - 0x1210) % 32) v
  else if f0Mask off ≠ 0 then m.setLd l (fun d => { d with regs := Mem.wrLE d.regs off 4 (v &&& f0Mask off) })
  else m

/-- A write of 4 B or 8 B to a register of BAR0 of function 1; read-only registers discard it. -/
def Mod.f1Write (m : Mod) (l off v width : Nat) : Mod :=
  let reg := off / 8 * 8
  let val := if off % 8 = 4 then v * 2 ^ 32 else v
  if reg = 0x108 then m.clearLatch l val
  else if reg = 0x200 then m.clearIntx l 1 val
  else if reg = 0x208 then (if off % 8 = 4 then m else m.writeEnable l 1 (v % 2 ^ (8 * width)))
  else if 0x400 ≤ reg ∧ reg < 0x600 then m.clearPend l ((reg - 0x400) / 8) val
  else if reg = 0x800 then (if bit val 0 then m.renew l else m)
  else m

/-- An access of 4 B or 8 B that is aligned to its size. -/
def alignedAccess (off : Nat) (bs : List Byte) : Bool := (bs.length = 4 && off % 4 = 0) || (bs.length = 8 && off % 8 = 0)

/-- REGISTER_WRITE. An access that no register takes is an unsupported request. BAR2 is the mailbox aperture. A requester that is no LD has no
BARs. -/
def execRegisterWrite (who : Owner) (bar : Bar) (offset : Nat) (data : List Byte) (s : State) : Out :=
  s.actF (fun fz m =>
    match who with
    | .ld id =>
      let l := id.toNat
      (match bar with
        | .f0bar0 => m.regAccess l 0 (fun m =>
            if !alignedAccess offset data ∨ !f0Implemented offset then m.hostUR l 0
            else let m1 := m.f0Write l offset (data.take 4); if data.length = 8 then m1.f0Write l (offset + 4) (data.drop 4) else m1)
        | .f1bar0 => m.regAccess l 1 (fun m =>
            if !alignedAccess offset data ∨ (m.register fz l .f1bar0 (offset / 8 * 8)).isNone then m.hostUR l 1
            else m.f1Write l offset (leNat data) data.length)
        | .f1bar2 => m.regAccess l 1 (fun m =>
            if 2 ^ 24 ≤ offset then m.hostUR l 1
            else m.bar2Write l who (offset / 4096) (offset % 4096) data)
        | .f1bar4 => m.regAccess l 1 (fun m =>
            if !alignedAccess offset data ∨ (m.register fz l .f1bar4 (offset / 8 * 8)).isNone then m.hostUR l 1 else m))
    | _ => m)

/-! ### Configuration space (R437 to R440, R451 to R453) -/

/-- The bits of the AER registers that PCI Express defines for an endpoint (PRESUMED, log 5), byte by byte: uncorrectable errors, then
correctable ones. The others are reserved (R5). -/
def aerBits : Nat → Nat
  | 0 => 0x30 | 1 => 0xF0 | 2 => 0x5F | 3 => 0x72 | 4 => 0xC1 | 5 => 0xF1 | _ => 0

/-- The writable bits of a byte of configuration space, and those that a write of 1 clears. -/
def cfgRw (fn off : Nat) : Nat :=
  match off with
  | 0x04 => 0x46 | 0x05 => 0x05 | 0x0C => 0xFF | 0x3C => 0xFF | 0x44 => 0x03 | 0x50 => 0xFF | 0x51 => 0x7F | 0x58 => 0xCB | 0x59 => 0x03
  | 0x70 => 0x0F | 0x78 => 0x0F
  | _ =>
    if off = 0x71 then (if fn = 0 then 0x17 else 0x13)
    else if 0x12 ≤ off ∧ off < 0x18 then (if off = 0x12 ∧ fn = 0 then 0xFC else 0xFF)
    else if fn = 1 ∧ ((0x1B ≤ off ∧ off < 0x20) ∨ (0x22 ≤ off ∧ off < 0x28)) then 0xFF
    else if 0x108 ≤ off ∧ off < 0x110 then aerBits (off % 4)
    else if 0x114 ≤ off ∧ off < 0x118 then aerBits (4 + off % 4)
    else if fn = 0 then
      (if off = 0x158 then 0x0C else if off = 0x159 then 0xFF else if off = 0x15A then 0xFF else if off = 0x15B then 0xE3 else if off = 0x15C then 0xFB
       else if off = 0x188 then 0x02
       else if 0x190 ≤ off ∧ off < 0x198 then 0xFF else if off = 0x1AC then 0xFD else if off = 0x1AD then 0xC1 else if off = 0x1AE then 0x3F
       else if off = 0x1AF then 0xFF else if off = 0x20C then 0x04
       else if off = 0x214 then 0x01 else if 0x220 ≤ off ∧ off < 0x228 then 0xFF else 0)
    else 0
def cfgW1c (off : Nat) : Nat :=
  if off = 0x07 then 0xF9 else if off = 0x52 then 0x0F else if 0x104 ≤ off ∧ off < 0x108 then aerBits (off % 4)
  else if 0x110 ≤ off ∧ off < 0x114 then aerBits (4 + off % 4) else 0

/-- Bits that start something when written as 1 and read 0: Initiate FLR, and Initiate CXL Reset. -/
def cfgStart (fn off : Nat) : Nat := if off = 0x51 then 0x80 else if fn = 0 ∧ off = 0x210 then 0x04 else 0

/-- A byte of configuration space after a write. -/
def cfgByte (fn off old new : Nat) : Nat :=
  packBits ((List.range 8).map (fun i => if bit (cfgRw fn off) i then bit new i else bit old i && !(bit (cfgW1c off) i && bit new i)))

/-- Write bytes of configuration space. -/
def Function.cfgWrite (f : Function) (fn off : Nat) (bs : List Byte) : Function :=
  { f with cfg := (List.range bs.length).foldl (fun c i =>
      Mem.wr c (off + i) (BitVec.ofNat 8 (cfgByte fn (off + i) (Mem.rd c (off + i)).toNat (bs.getD i 0).toNat))) f.cfg }

/-- What a configuration write that reaches a register does: its bytes enter the space, the completion goes out, a change of the
interrupt state is told, and the bits that start a reset start it. -/
def Mod.configWritten (m : Mod) (l k o : Nat) (bs : List Byte) : Mod :=
  let starts := fun (off b : Nat) => decide (o ≤ off) && decide (off < o + bs.length) && bit (bs.getD (off - o) 0).toNat b
  let m1 := (((m.hostTraffic l).setLd l (fun d => d.setFunc k (fun f => f.cfgWrite k o bs))).send (.cfgDone l k)).syncIntx l k
  let m2 := (if k = 1 then m1.flushDma l else if l % 16 = 0 then m1.syncLtr (l / 16) else m1)
  if starts 0x51 7 then (if k = 0 then m2.flr0 l else m2.flr1 l)
  else if k = 0 ∧ starts 0x210 2 then m2.cxlReset l
  else m2

/-- CONFIG_WRITE (R440, R451). What a write changes follows at once: INTx with Interrupt Disable, held DMA with Bus Master Enable, LTR with its
mechanism enable, and the resets that it starts. -/
def execConfigWrite (ld : LdId) (fn : BitVec 1) (offset : BitVec 12) (data : List Byte) (s : State) : Out :=
  s.act (fun m =>
    let l := ld.toNat
    let k := fn.toNat
    let o := offset.toNat
    let bs := data.take (4 - o % 4)
    if !m.presented l then m
    else if ((m.ld l).func k).reset ≠ 0 then (m.backToL0 l).send (.retryStatus l k)
    else if (List.range bs.length).all (fun i => cfgRw k (o + i) = 0 && cfgW1c (o + i) = 0 && cfgStart k (o + i) = 0) then (m.hostTraffic l).hostUR l k
    else m.configWritten l k o bs)

end Sys2Proof.Machine
end

