-- ==== Sys2Proof/Machine/HostMbox.lean ====
section
/-! DEFINITION. The memory device face (spec/14_host_ports.md R435, R441 to R444, spec/15_integrity_poison.md R472), Dynamic Capacity
(spec/06_extents_sharing_versions.md R189 to R193), the FM API and the SPDM responder (spec/19_bringup_lifecycle_security.md R605). The spec
takes the payloads from the CXL and SPDM specifications; their layouts here are PRESUMED (log 6). -/
namespace Sys2Proof.Machine

/-! ### The primary mailbox (R441) -/

/-- What a primary mailbox or FM API command gives: the module, a return code and a payload. -/
abbrev Answer := Mod × String × List Byte

def ok (m : Mod) (payload : List Byte := []) : Answer := (m, "Success", payload)
def rc (m : Mod) (code : String) : Answer := (m, code, [])

/-- A command of the primary mailbox of an LD: until Memory_Active reads 1, all but the early ones complete with Retry Required; MBOX_DONE is
set at the end (R441, R455). -/
def Mod.primary (m : Mod) (l : Nat) (early : Bool) (f : Mod → Answer) : Mod :=
  m.regAccess l 0 (fun m =>
    let a := if !early ∧ !(m.ld l).memoryActive then rc m "Retry Required" else f m
    (a.1.send (.mbox l a.2.1 a.2.2)).setIntx l 0 1)

/-- IDENTIFY_MEMORY_DEVICE: the firmware revision string is a free value. -/
def ansIdentifyMemoryDevice : Mod → Answer := fun m =>
    ok { m with freeIx := m.freeIx + 1 } ((Config.freeBytes m.freeIx ++ List.replicate 16 0).take 16 ++ le 8 0 ++ le 8 0 ++ le 8 0 ++ le 8 0 ++
      le 2 64 ++ le 2 64 ++ le 2 64 ++ le 2 64 ++ le 4 0 ++ le 3 64 ++ le 2 0 ++ le 1 0 ++ le 1 0 ++ le 2 64)

/-- The row of `ansIdentifyMemoryDevice`. -/
def execIdentifyMemoryDevice (ld : LdId) (s : State) : Out := s.act (fun m => m.primary ld.toNat true ansIdentifyMemoryDevice)

/-- The UUID of the Command Effects Log. -/
def celUuid : List Byte := [0x0d, 0xa9, 0xc0, 0xb5, 0xbf, 0x41, 0x4b, 0x78, 0x8f, 0x79, 0x96, 0xb1, 0x62, 0x3b, 0x3f, 0x17]

/-- GET_SUPPORTED_LOGS. -/
def ansGetSupportedLogs : Mod → Answer := fun m => ok m (le 2 1 ++ le 6 0 ++ celUuid ++ le 4 Config.commandEffects.length)

/-- The row of `ansGetSupportedLogs`. -/
def execGetSupportedLogs (ld : LdId) (s : State) : Out := s.act (fun m => m.primary ld.toNat true ansGetSupportedLogs)

/-- GET_LOG. -/
def ansGetLog (input : List Byte) : Mod → Answer := fun m =>
    let off := field input 16 4
    let n := field input 20 4
    if input.length ≠ 24 then rc m "Invalid Payload Length"
    else if input.take 16 ≠ celUuid then rc m "Invalid Log"
    else if Config.commandEffects.length < off + n ∨ 4096 < n then rc m "Invalid Input"
    else ok m ((Config.commandEffects.drop off).take n)

/-- The row of `ansGetLog`. -/
def execGetLog (ld : LdId) (input : List Byte) (s : State) : Out := s.act (fun m => m.primary ld.toNat true (ansGetLog input))

/-- GET_EVENT_RECORDS: up to 31 records of a log, oldest first; a record's handle is its place in the log. -/
def ansGetEventRecords (ld : LdId) (input : List Byte) : Mod → Answer := fun m =>
    let i := field input 0 1
    let log := (m.ld ld.toNat).eventLogs.getD i []
    let dropped := (m.ld ld.toNat).eventOverflow.getD i 0
    if input.length ≠ 1 then rc m "Invalid Payload Length"
    else if 4 < i then rc m "Invalid Input"
    else ok m (le 1 (b2n (dropped != 0) + 2 * b2n (decide (31 < log.length))) ++ le 1 0 ++ le 2 dropped ++ le 8 0 ++ le 8 0 ++ le 2 (min 31 log.length) ++ le 10 0 ++
      ((List.range log.length).zip log |>.take 31).flatMap (fun r => le 2 (r.1 + 1) ++ le 46 0 ++ (r.2 ++ List.replicate 80 0).take 80))

/-- The row of `ansGetEventRecords`. -/
def execGetEventRecords (ld : LdId) (input : List Byte) (s : State) : Out := s.act (fun m => m.primary ld.toNat false (ansGetEventRecords ld input))

/-- CLEAR_EVENT_RECORDS: all of a log, or its oldest records in order. -/
def ansClearEventRecords (ld : LdId) (input : List Byte) : Mod → Answer := fun m =>
    let i := field input 0 1
    let n := field input 2 1
    let log := (m.ld ld.toNat).eventLogs.getD i []
    let keep := fun (m : Mod) (rs : List (List Byte)) => m.setLd ld.toNat (fun d => { d with eventLogs := d.eventLogs.set i rs })
    if input.length < 6 then rc m "Invalid Payload Length"
    else if 4 < i then rc m "Invalid Input"
    else if bit (field input 1 1) 0 then ok ((keep m []).setLd ld.toNat (fun d => { d with eventOverflow := d.eventOverflow.set i 0 }))
    else if input.length ≠ 6 + 2 * n then rc m "Invalid Payload Length"
    else if log.length < n ∨ (List.range n).any (fun k => field input (6 + 2 * k) 2 ≠ k + 1) then rc m "Invalid Handle"
    else ok (keep m (log.drop n))

/-- The row of `ansClearEventRecords`. -/
def execClearEventRecords (ld : LdId) (input : List Byte) (s : State) : Out := s.act (fun m => m.primary ld.toNat false (ansClearEventRecords ld input))

/-- GET_EVENT_INTERRUPT_POLICY: the one policy, no interrupts, for the five logs. -/
def ansGetEventInterruptPolicy : Mod → Answer := fun m => ok m (le 5 0)

/-- The row of `ansGetEventInterruptPolicy`. -/
def execGetEventInterruptPolicy (ld : LdId) (s : State) : Out := s.act (fun m => m.primary ld.toNat false ansGetEventInterruptPolicy)

/-- SET_EVENT_INTERRUPT_POLICY. -/
def ansSetEventInterruptPolicy (input : List Byte) : Mod → Answer := fun m => if input.all (fun b => b.toNat % 4 = 0) then ok m else rc m "Invalid Input"

/-- The row of `ansSetEventInterruptPolicy`. -/
def execSetEventInterruptPolicy (ld : LdId) (input : List Byte) (s : State) : Out := s.act (fun m => m.primary ld.toNat false (ansSetEventInterruptPolicy input))

/-- The DPA of a byte of a region pane, when the LD holds the extent. -/
def Mod.heldDpa (m : Mod) (l : Nat) (g : Region) (pane byte : Nat) : Option Nat :=
  match g.extentAt pane with
  | some e => if (Tbl.find m.mem.extents e).elim false (fun x => x.heldLds.contains l) then some (e * 2 ^ 28 + pane % 4096 * 65536 + byte) else none
  | none => none

/-- DPA and length of what Get Poison List reports to an LD (R472): POISONED panes, then poisoned lines of the last SCRUB summaries. -/
def Mod.poisonList (m : Mod) (l : Nat) : List (Nat × Nat) :=
  let regs := m.mem.regions.filter (fun g => match m.ldPart l with | some p => m.mayReach p g.1 | none => false)
  let panes := regs.flatMap (fun g =>
    ((m.mem.recs.filter (fun x => x.2.region = g.1 && x.2.state == .poisoned)).map (fun x => x.2.pane)).eraseDups.filterMap (fun p => (m.heldDpa l g.2 p 0).map (fun a => (a, 65536))))
  let lines := regs.flatMap (fun g => g.2.lastScrub.filterMap (fun e =>
    let kind := e / 2 ^ 62
    let a := e % 2 ^ 62
    if kind = 2 then none else (m.heldDpa l g.2 (a / 1024) (a % 1024 * 64)).map (fun d => (d, if kind = 3 then 2048 else 64))))
  panes ++ lines

/-- GET_POISON_LIST: the records that meet the range asked for; the first 64, with More Records (R472). -/
def ansGetPoisonList (ld : LdId) (input : List Byte) : Mod → Answer := fun m =>
    let lo := field input 0 8
    let hi := lo + field input 8 8 * 64
    let all := (m.poisonList ld.toNat).filter (fun r => decide (r.1 < hi) && decide (lo < r.1 + r.2))
    if input.length ≠ 16 then rc m "Invalid Payload Length"
    else ok m (le 1 (b2n (decide (64 < all.length))) ++ le 1 0 ++ le 8 0 ++ le 2 (min 64 all.length) ++ le 20 0 ++
      (all.take 64).flatMap (fun r => le 8 r.1 ++ le 4 (r.2 / 64) ++ le 4 0))

/-- The row of `ansGetPoisonList`. -/
def execGetPoisonList (ld : LdId) (input : List Byte) (s : State) : Out := s.act (fun m => m.primary ld.toNat false (ansGetPoisonList ld input))

/-- GET_TIMESTAMP: 0 until it is set; it counts with LOCAL_TIME from then, apart from the FTC. -/
def ansGetTimestamp (ld : LdId) : Mod → Answer := fun m =>
    let d := m.ld ld.toNat
    ok m (le 8 (if d.timestamp = 0 then 0 else d.timestamp + (m.localTime - d.timestampSet)))

/-- The row of `ansGetTimestamp`. -/
def execGetTimestamp (ld : LdId) (s : State) : Out := s.act (fun m => m.primary ld.toNat false (ansGetTimestamp ld))

/-- SET_TIMESTAMP. -/
def ansSetTimestamp (ld : LdId) (input : List Byte) : Mod → Answer := fun m =>
    if input.length ≠ 8 then rc m "Invalid Payload Length"
    else ok (m.setLd ld.toNat (fun d => { d with timestamp := leNat input, timestampSet := m.localTime }))

/-- The row of `ansSetTimestamp`. -/
def execSetTimestamp (ld : LdId) (input : List Byte) (s : State) : Out := s.act (fun m => m.primary ld.toNat false (ansSetTimestamp ld input))

/-! ### Dynamic Capacity at the host (R189 to R193) -/

/-- The one DC region (R189): base, decode length and length, block size, and its flag shareable. -/
def dcRegion : List Byte := le 8 0 ++ le 8 (2 ^ 20) ++ le 8 (2 ^ 48) ++ le 8 (2 ^ 28) ++ le 4 0 ++ le 1 2 ++ le 3 0

/-- GET_DYNAMIC_CAPACITY_CONFIGURATION. -/
def ansGetDynamicCapacityConfiguration (input : List Byte) : Mod → Answer := fun m =>
    if input.length ≠ 2 then rc m "Invalid Payload Length"
    else if field input 1 1 ≠ 0 then rc m "Invalid Input"
    else
      let n := min 1 (field input 0 1)
      ok m (le 1 1 ++ le 1 n ++ le 6 0 ++ (if n = 1 then dcRegion else []) ++ le 4 1048576 ++ le 4 (1048576 - m.reservedExtents) ++ le 4 0 ++ le 4 0)

/-- The row of `ansGetDynamicCapacityConfiguration`. -/
def execGetDynamicCapacityConfiguration (ld : LdId) (input : List Byte) (s : State) : Out := s.act (fun m => m.primary ld.toNat false (ansGetDynamicCapacityConfiguration input))

/-- The extents that are pending for an LD or held by it, in number order. -/
def Mod.ldExtents (m : Mod) (l : Nat) : List (Nat × Extent) := m.mem.extents.filter (fun e => e.2.pendingLds.contains l || e.2.heldLds.contains l)

/-- One extent of a list: DPA, length, tag. -/
def extentBytes (e : Nat × Extent) : List Byte := le 8 (e.1 * 2 ^ 28) ++ le 8 (2 ^ 28) ++ le 16 e.2.tag ++ le 8 0

/-- GET_DYNAMIC_CAPACITY_EXTENT_LIST: the generation number of the list is a free value. -/
def ansGetDynamicCapacityExtentList (ld : LdId) (input : List Byte) : Mod → Answer := fun m =>
    let all := m.ldExtents ld.toNat
    let v := m.freeVal
    let sel := (all.drop (field input 4 4)).take (min 102 (field input 0 4))
    if input.length ≠ 8 then rc m "Invalid Payload Length"
    else if all.length < field input 4 4 then rc m "Invalid Input"
    else ok v.2 (le 4 sel.length ++ le 4 all.length ++ le 4 v.1 ++ le 4 0 ++ sel.flatMap extentBytes)

/-- The row of `ansGetDynamicCapacityExtentList`. -/
def execGetDynamicCapacityExtentList (ld : LdId) (input : List Byte) (s : State) : Out := s.act (fun m => m.primary ld.toNat false (ansGetDynamicCapacityExtentList ld input))

/-- An extent ceases to be pending for an LD; with nothing left of it, it needs no wipe (R191). -/
def Mod.unpend (m : Mod) (l e : Nat) : Mod :=
  let m1 := m.setExtent e (fun x => { x with pendingLds := x.pendingLds.filter (fun y => y != l) })
  match Tbl.find m1.mem.extents e with
  | some x => if x.pendingLds = [] ∧ x.heldLds = [] ∧ x.region = none ∧ x.kept = none ∧ !x.inCullet then
      (m1.setMem (fun n => { n with extents := Tbl.del n.extents e })).spaceFreed else m1
  | none => m1

/-- ADD_DYNAMIC_CAPACITY_RESPONSE: the response answers the adds whose extents it names, or the oldest when it names none. What it accepts of
them is held; the rest ceases to be pending; an extent that has been removed meanwhile is left out (R191, R221). -/
def ansAddDynamicCapacityResponse (ld : LdId) (extents : List Nat) : Mod → Answer := fun m =>
    let l := ld.toNat
    let adds := (m.ld l).adds
    let mine := if extents = [] then adds.take 1 else adds.filter (fun a => a.any (fun e => extents.contains e))
    let offered := mine.flatten
    let pends := fun (m : Mod) (e : Nat) => (Tbl.find m.mem.extents e).elim false (fun x => x.pendingLds.contains l)
    if extents.any (fun e => !offered.contains e) then rc m "Invalid Input"
    else
      let m1 := m.setLd l (fun d => { d with adds := d.adds.filter (fun a => !mine.contains a) })
      let m2 := m1.each (offered.filter (pends m)) (fun m e =>
        if extents.contains e then m.setExtent e (fun x => { x with pendingLds := x.pendingLds.filter (fun y => y != l), heldLds := x.heldLds ++ [l], kept := none }) else m.unpend l e)
      ok m2

/-- The row of `ansAddDynamicCapacityResponse`. -/
def execAddDynamicCapacityResponse (ld : LdId) (extents : List Nat) (s : State) : Out := s.act (fun m => m.primary ld.toNat false (ansAddDynamicCapacityResponse ld extents))

/-- A Release Dynamic Capacity of an extent would be answered with Busy (R192). -/
def Mod.holdBusy (m : Mod) (l e : Nat) : Bool :=
  m.windowsOver e != [] ||
    (match Tbl.find m.mem.extents e with
      | some x => x.heldLds.all (fun y => y = l) && (match x.region with
        | some (id, _) => (Tbl.find m.mem.regions id).elim false (fun g => m.releaseBusy id g e)
        | none => false)
      | none => false)

/-- The holding of an extent ends; the last one of an extent in a region releases it from the region (R98, R192, R193). -/
def Mod.endHolding (m : Mod) (l e : Nat) : Mod :=
  let m1 := m.setExtent e (fun x => { x with heldLds := x.heldLds.filter (fun y => y != l) })
  match Tbl.find m1.mem.extents e with
  | some x => if x.heldLds ≠ [] then m1 else if x.region.isSome then m1.detach e else m1.toCullet e
  | none => m1

/-- RELEASE_DYNAMIC_CAPACITY: every extent is checked before any holding ends. -/
def ansReleaseDynamicCapacity (ld : LdId) (extents : List Nat) : Mod → Answer := fun m =>
    let l := ld.toNat
    let held := fun (e : Nat) => (Tbl.find m.mem.extents e).elim false (fun x => x.heldLds.contains l)
    if extents = [] ∨ extents.any (fun e => !held e) ∨ extents.eraseDups.length ≠ extents.length then rc m "Invalid Input"
    else if extents.any (m.holdBusy l) then rc m "Busy"
    else ok (m.each extents (fun m e => m.endHolding l e))

/-- The row of `ansReleaseDynamicCapacity`. -/
def execReleaseDynamicCapacity (ld : LdId) (extents : List Nat) (s : State) : Out := s.act (fun m => m.primary ld.toNat false (ansReleaseDynamicCapacity ld extents))

/-! ### The FM API (R190 to R192, R435, R591) -/

/-- An FM API command: over MCTP from a requester on the manager list; from any other it is Unsupported. While BOOTING, all but those that
report identity answer Retry Required. -/
def Mod.fmApi (m : Mod) (who : Owner) (identity : Bool) (f : Mod → Answer) : Mod :=
  m.viaBar2 who (fun m =>
    let mctp := match who with | .mctp _ _ => true | _ => false
    let a := if !mctp ∨ !m.isManager who then rc m "Unsupported"
      else if !identity ∧ m.boot.readiness = .booting then rc m "Retry Required"
      else f m
    a.1.send (.fmApi who a.2.1 a.2.2))

/-- GET_DCD_INFO: one DC region; the policies Free, Contiguous and Prescriptive; sharing. -/
def ansGetDcdInfo : Mod → Answer := fun m =>
    ok m (le 1 64 ++ le 1 1 ++ le 2 0 ++ le 2 7 ++ le 2 0 ++ le 2 4 ++ le 1 0 ++ le 1 1 ++ le 8 (2 ^ 20) ++ le 8 (2 ^ 28))

/-- The row of `ansGetDcdInfo`. -/
def execGetDcdInfo (who : Owner) (s : State) : Out := s.act (fun m => m.fmApi who false ansGetDcdInfo)

/-- GET_HOST_DC_REGION_CONFIGURATION. -/
def ansGetHostDcRegionConfiguration (ld : LdId) : Mod → Answer := fun m => ok m (le 2 ld.toNat ++ le 1 1 ++ le 1 1 ++ le 4 0 ++ dcRegion)

/-- The row of `ansGetHostDcRegionConfiguration`. -/
def execGetHostDcRegionConfiguration (who : Owner) (ld : LdId) (s : State) : Out := s.act (fun m => m.fmApi who false (ansGetHostDcRegionConfiguration ld))

/-- SET_DC_REGION_CONFIGURATION: accepted only with the values of R189. -/
def ansSetDcRegionConfiguration (region : Nat) (blockSize : Nat) (length : Nat) (base : Nat) : Mod → Answer := fun m =>
    if region = 0 ∧ blockSize = 2 ^ 28 ∧ length = 2 ^ 48 ∧ base = 0 then ok m else rc m "Invalid Input"

/-- The row of `ansSetDcRegionConfiguration`. -/
def execSetDcRegionConfiguration (who : Owner) (region : Nat) (blockSize : Nat) (length : Nat) (base : Nat) (s : State) : Out := s.act (fun m => m.fmApi who false (ansSetDcRegionConfiguration region blockSize length base))

/-- GET_DCD_EXTENT_LISTS: held, then pending. -/
def ansGetDcdExtentLists (ld : LdId) : Mod → Answer := fun m =>
    let held := m.mem.extents.filter (fun e => e.2.heldLds.contains ld.toNat)
    let pend := m.mem.extents.filter (fun e => e.2.pendingLds.contains ld.toNat)
    ok m (le 2 ld.toNat ++ le 2 0 ++ le 4 held.length ++ le 4 pend.length ++ held.flatMap extentBytes ++ pend.flatMap extentBytes)

/-- The row of `ansGetDcdExtentLists`. -/
def execGetDcdExtentLists (who : Owner) (ld : LdId) (s : State) : Out := s.act (fun m => m.fmApi who false (ansGetDcdExtentLists ld))

/-- The first run of `n` free extents from `e` upwards, or the lowest `n`, among those below 2^20; `got` holds what has been taken so far,
newest first. -/
def pickExtents (free : Nat → Bool) (run : Bool) (n : Nat) : Nat → Nat → List Nat → Option (List Nat)
  | 0, _, got => if got.length = n then some got.reverse else none
  | k + 1, e, got =>
    if got.length = n then some got.reverse
    else if free e then pickExtents free run n k (e + 1) (e :: got)
    else pickExtents free run n k (e + 1) (if run then [] else got)

/-- The extents that Free or Contiguous chooses. Only listed extents are not free, so a search just past them finds what there is to find. -/
def Mod.chooseExtents (m : Mod) (l : Nat) (run : Bool) (n : Nat) : Option (List Nat) :=
  let free := fun (e : Nat) => (Tbl.find m.mem.extents e).elim true (fun x =>
    x.heldLds = [] && x.kept.isNone && x.region.isNone && !x.inCullet && !x.pendingLds.contains l)
  let top := m.mem.extents.foldl (fun t e => max t (e.1 + 1)) 0
  if 1048576 < n then none
  else pickExtents free run n (min 1048576 (top + n)) 0 []

/-- A Dynamic Capacity event record: its type (0 add, 2 forced release), the LD, the count, the first DPA and the tag (R442). -/
def dcRecord (kind l : Nat) (es : List Nat) (tag : Nat) : List Byte :=
  le 1 kind ++ le 1 0 ++ le 2 l ++ le 4 es.length ++ le 8 (es.headD 0 * 2 ^ 28) ++ le 8 (es.length * 2 ^ 28) ++ le 16 tag

/-- An extent may not be named in an add to an LD: beyond the last, pending or held there, held elsewhere outside a SHARED region, or of a
PRIVATE region of another partition (R191, R622). -/
def Mod.addInvalid (m : Mod) (l e : Nat) : Bool :=
  decide (1048576 ≤ e) ||
    (match Tbl.find m.mem.extents e with
      | none => false
      | some x =>
        let g := x.region.bind (fun r => Tbl.find m.mem.regions r.1)
        x.pendingLds.contains l || x.heldLds.contains l || (x.heldLds != [] && g.elim true (fun g => !g.shared)) ||
          g.elim false (fun g => !g.shared && m.ldPart l != some g.owner))

/-- Make extents pending for an LD; its partition becomes a sharer of the SHARED regions of others that they lie in (R191). -/
def Mod.offer (m : Mod) (l : Nat) (es : List Nat) (tag : Nat) : Mod :=
  let blank : Extent := { pendingLds := [], heldLds := [], region := none, kept := none, serial := 0, inCullet := false, tag := 0 }
  let m1 := m.each es (fun m e =>
    let m1 := m.setMem (fun n => { n with extents := Tbl.updD n.extents e blank (fun x => { x with pendingLds := x.pendingLds ++ [l], tag := tag }) })
    match (Tbl.find m.mem.extents e).bind (fun x => x.region), m.ldPart l with
    | some (id, _), some p => m1.setRegion id (fun g => if g.shared ∧ g.owner ≠ p ∧ !g.sharers.contains p then { g with sharers := g.sharers ++ [p] } else g)
    | _, _ => m1)
  (m1.setLd l (fun d => { d with adds := d.adds ++ [es] })).eventLog l 4 (dcRecord 0 l es tag)

/-- INITIATE_DYNAMIC_CAPACITY_ADD (R191, R442). -/
def ansInitiateDynamicCapacityAdd (ld : LdId) (policy : AddPolicy) (count : Nat) (dpas : List Nat) (tag : Nat) : Mod → Answer := fun m =>
    let l := ld.toNat
    let named := match policy with
      | .prescriptive => if dpas.any (fun a => a % 2 ^ 28 ≠ 0) then some [] else some (dpas.map (· / 2 ^ 28))
      | .free => if count = 0 then some [] else m.chooseExtents l false count
      | .contiguous => if count = 0 then some [] else m.chooseExtents l true count
    match named with
    | none => rc m "Resources Exhausted"
    | some es =>
      if es = [] ∨ es.eraseDups.length ≠ es.length ∨ es.any (m.addInvalid l) then rc m "Invalid Input"
      else
        let m1 := m.offer l es tag
        let n := (m1.mem.extents.filter (fun e => e.2.pendingLds != [] || e.2.heldLds != [] || e.2.kept != none)).length
        if 64 ≤ ((m.ld l).eventLogs.getD 4 []).length ∨ (if m.mem.mapInT0 then 524288 else 1048576) < n then rc m "Resources Exhausted"
        else
          match m1.reserveMap with
          | none => rc m "Resources Exhausted"
          | some m2 =>
            if es.any (fun e => (Tbl.find m.mem.extents e).elim false (fun x => x.inCullet)) then rc m "Busy" else ok m2 (le 4 es.length ++ es.flatMap (fun e => le 8 (e * 2 ^ 28)))

/-- The row of `ansInitiateDynamicCapacityAdd`. -/
def execInitiateDynamicCapacityAdd (who : Owner) (ld : LdId) (policy : AddPolicy) (count : Nat) (dpas : List Nat) (tag : Nat) (s : State) : Out := s.act (fun m => m.fmApi who false (ansInitiateDynamicCapacityAdd ld policy count dpas tag))

/-- INITIATE_DYNAMIC_CAPACITY_RELEASE (R192): with Forced Removal the holdings end at once, and pending extents are never held (R221); without
it, they end when the host's Release Dynamic Capacity is accepted. -/
def ansInitiateDynamicCapacityRelease (ld : LdId) (forced : Bool) (dpas : List Nat) : Mod → Answer := fun m =>
    let l := ld.toNat
    let es := dpas.map (· / 2 ^ 28)
    let held := fun (m : Mod) (e : Nat) => (Tbl.find m.mem.extents e).elim false (fun x => x.heldLds.contains l)
    let pends := fun (m : Mod) (e : Nat) => (Tbl.find m.mem.extents e).elim false (fun x => x.pendingLds.contains l)
    if es = [] ∨ dpas.any (fun a => a % 2 ^ 28 ≠ 0) ∨ es.eraseDups.length ≠ es.length ∨ es.any (fun e => !held m e && !(forced && pends m e)) then rc m "Invalid Input"
    else if !forced then ok m
    else
      let m1 := m.each es (fun m e => if held m e then m.forceRemoval l e else if pends m e then m.unpend l e else m)
      ok (m1.eventLog l 4 (dcRecord 2 l es 0))

/-- The row of `ansInitiateDynamicCapacityRelease`. -/
def execInitiateDynamicCapacityRelease (who : Owner) (ld : LdId) (forced : Bool) (dpas : List Nat) (s : State) : Out := s.act (fun m => m.fmApi who false (ansInitiateDynamicCapacityRelease ld forced dpas))

/-- GET_LD_INFO (R435). -/
def ansGetLdInfo : Mod → Answer := fun m => ok m (le 8 (2 ^ 48) ++ le 2 16 ++ le 1 0)

/-- The row of `ansGetLdInfo`. -/
def execGetLdInfo (who : Owner) (s : State) : Out := s.act (fun m => m.fmApi who true ansGetLdInfo)

/-- GET_LD_ALLOCATIONS (R435): every LD at 2^48 B, in units of 256 MiB. -/
def ansGetLdAllocations : Mod → Answer := fun m => ok m (le 1 16 ++ le 1 0 ++ le 1 16 ++ le 1 0 ++ (List.range 16).flatMap (fun _ => le 8 (2 ^ 20) ++ le 8 0))

/-- The row of `ansGetLdAllocations`. -/
def execGetLdAllocations (who : Owner) (s : State) : Out := s.act (fun m => m.fmApi who true ansGetLdAllocations)

/-- SET_LD_ALLOCATIONS (R435): Unsupported. -/
def ansSetLdAllocations : Mod → Answer := fun m => rc m "Unsupported"

/-- The row of `ansSetLdAllocations`. -/
def execSetLdAllocations (who : Owner) (_input : List Byte) (s : State) : Out := s.act (fun m => m.fmApi who false ansSetLdAllocations)

/-! ### DOE (R443, R444) -/

/-- A request to the DOE mailbox of function 0, which configuration requests carry. -/
def Mod.doeRequest (m : Mod) (l : Nat) (f : Mod → Mod) : Mod :=
  if !m.presented l then m
  else if (m.ld l).f0.reset ≠ 0 then (m.backToL0 l).send (.retryStatus l 0)
  else f (m.hostTraffic l)

/-- The protocols of the DOE mailbox: vendor and type. -/
def doeProtocols : List (Nat × Nat) := [(0x0001, 0), (0x1E98, 2), (0x0001, 1), (0x0001, 2)]

/-- A data object: its header and payload. -/
def doeObject (vendor type : Nat) (payload : List Byte) : List Byte := le 2 vendor ++ le 1 type ++ le 1 0 ++ le 4 (2 + ceilDiv payload.length 4) ++ payload

/-- DOE_DISCOVERY (R444). -/
def doeDoeDiscovery (ld : LdId) (index : Byte) : Mod → Mod := fun m =>
    let p := doeProtocols.getD index.toNat (0xFFFF, 0xFF)
    m.send (.doe ld.toNat (doeObject 1 0 (le 2 p.1 ++ le 1 p.2 ++ le 1 (if index.toNat < 3 then index.toNat + 1 else 0))) false)

/-- The row of `doeDoeDiscovery`. -/
def execDoeDiscovery (ld : LdId) (index : Byte) (s : State) : Out := s.act (fun m => m.doeRequest ld.toNat (doeDoeDiscovery ld index))

/-- The CDAT of a port (R443): header, the DSMAS entry of DC region 0, which is shareable dynamic capacity, and the DSLBIS entry. -/
def cdatEntries (rate width : Nat) : List (List Byte) :=
  let dsmas := le 1 0 ++ le 1 0 ++ le 2 24 ++ le 1 0 ++ le 1 0x28 ++ le 2 0 ++ le 8 0 ++ le 8 (2 ^ 48)
  let dslbis := (Config.cdat rate width ++ List.replicate 24 0).take 24
  let sum := sumOf ((le 4 64 ++ le 1 1 ++ dsmas ++ dslbis).map (fun b => b.toNat))
  [le 4 64 ++ le 1 1 ++ le 1 ((256 - sum % 256) % 256) ++ le 10 0, dsmas, dslbis]

/-- CXL_TABLE_ACCESS (R443, R444). -/
def doeCxlTableAccess (ld : LdId) (entry : BitVec 16) : Mod → Mod := fun m =>
    let p := m.port (ld.toNat / 16)
    match (cdatEntries p.rate p.width)[entry.toNat]? with
    | some e => m.send (.doe ld.toNat (doeObject 0x1E98 2 (le 1 0 ++ le 1 0 ++ le 2 (if entry.toNat = 2 then 0xFFFF else entry.toNat + 1) ++ e)) false)
    | none => m.send (.doe ld.toNat [] true)

/-- The row of `doeCxlTableAccess`. -/
def execCxlTableAccess (ld : LdId) (entry : BitVec 16) (s : State) : Out := s.act (fun m => m.doeRequest ld.toNat (doeCxlTableAccess ld entry))

/-! ### SPDM (R444, R445, R605) -/

/-- An SPDM ERROR response. -/
def spdmError (code data : Nat) : List Byte := le 1 0x13 ++ le 1 0x7F ++ le 1 code ++ le 1 data

/-- The request codes that the responder supports. -/
def spdmCodes : List Nat := [0x84, 0xE1, 0xE3, 0x81, 0x82, 0x83, 0xE0, 0xE4, 0xE5, 0xE8, 0xE9, 0xEC, 0xFE, 0xFF]

/-- Keys of link IDE become active, or go, for a port (R445): in the insecure state the port is handled as a lost link until then. -/
def Mod.ideKeys (m : Mod) (h : Nat) (go : Bool) : Mod :=
  if !go then m.setPort h (fun p => { p with ideSecure := false })
  else
    let m1 := m.setPort h (fun p => { p with ideSecure := true, ideInsecure := false })
    if (m.port h).ideInsecure then m1.each (List.range 16) (fun m i => m.activate (16 * h + i)) else m1

/-- An IDE_KM or CXL_IDE_KM object in a VENDOR_DEFINED request of an authenticated session: K_SET_GO and K_SET_STOP act on the port that its
port index names. -/
def Mod.ideKm (m : Mod) (who : Owner) (request : List Byte) : Mod :=
  let h := match who with | .ld l => l.toNat / 16 | _ => field request 15 1 % 4
  if field request 4 2 ≠ 3 ∨ !(m.boot.sessions.any (fun x => x.requester = who && x.authenticated)) then m
  else if field request 12 1 = 4 then m.ideKeys h true
  else if field request 12 1 = 5 then m.ideKeys h false
  else m

/-- What the root of trust does with a request and answers (R605). What it computes is a free value; the rules bound it: one certificate slot, 16
sessions, and no request that it does not support. A session is authenticated by FINISH; a requester's own session is its newest. -/
def Mod.spdm (m : Mod) (who : Owner) (request : List Byte) : Mod × List Byte :=
  let code := field request 1 1
  let a := Config.spdmAnswer m.freeIx request
  let m1 := { m with freeIx := m.freeIx + 1 }
  let mine := (m.boot.sessions.filter (fun x => x.requester = who)).getLast?
  if !spdmCodes.contains code then (m, spdmError 0x07 code)
  else if code ≠ 0x84 ∧ field request 0 1 ≠ 0x13 then (m, spdmError 0x41 0)
  else if (code = 0x82 ∨ code = 0x83) ∧ field request 2 1 % 16 ≠ 0 then (m, spdmError 0x01 0)
  else
    match code with
    | 0xE4 =>
      if 16 ≤ m.boot.sessions.length then (m, spdmError 0x03 0)
      else
        (match a.2 with
          | none => (m1, a.1)
          | some _ => (m1.setBoot (fun b => { b with sessions := b.sessions ++ [{ id := b.keysMade, requester := who, authenticated := false }], keysMade := b.keysMade + 1 }), a.1))
    | 0xE5 =>
      (match mine, a.2 with
        | some x, some _ => (m1.setBoot (fun b => { b with sessions := b.sessions.map (fun y => if y.id = x.id then { y with authenticated := true } else y) }), a.1)
        | some _, none => (m1, a.1)
        | none, _ => (m, spdmError 0x04 0))
    | 0xEC =>
      (match mine with
        | some x => (m1.setBoot (fun b => { b with sessions := b.sessions.filter (fun y => y.id != x.id) }), a.1)
        | none => (m, spdmError 0x04 0))
    | 0xFE => (m1.ideKm who request, a.1)
    | _ => (m1, a.1)

/-- SPDM_MESSAGE: over the DOE of an LD, over MCTP, or in KEY flits of a neighbour (R605). A DOE object above 256 KiB gets the DOE Error bit
(R444). -/
def execSpdmMessage (who : Owner) (path : SpdmPath) (request : List Byte) (s : State) : Out :=
  s.act (fun m =>
    let answer := fun (m : Mod) => let a := m.spdm who request; a.1.send (.spdm who a.2)
    match path, who with
    | .doe, .ld l => m.doeRequest l.toNat (fun m =>
        if 262144 < request.length + 8 then m.send (.doe l.toNat [] true)
        else let a := m.spdm who request; a.1.send (.doe l.toNat (doeObject 1 1 a.2) false))
    | .mctp, .mctp _ _ => m.viaBar2 who answer
    | .key, .neighbour p => if (m.fport p.toNat).linked then answer m else m
    | _, _ => m)

end Sys2Proof.Machine
end

