-- ==== Sys2Proof/Machine/Works.lean ====
section
/-! DEFINITION. CONTEXT_WORK_COMPLETE: the work of a command that completed with ACCEPTED goes on and ends (spec/02_control_model.md R65, R81,
R87). Work with an end row of its own in the table ends there. -/
namespace Sys2Proof.Machine

/-- The work of SET_RESIDENCY: once every pane is placed, the region has its mode (R126). -/
def Mod.residencyStep (m : Mod) (slot id mode : Nat) : Mod :=
  let md := Residency.ofCode mode
  let m1 := m.moveAll id md
  if (m1.mem.recs.filter (fun x => x.2.region = id)).all (fun x => m1.placedFor md x.2) then
    (m1.setRegion id (fun g => { g with residency := md })).finish slot .ok 0 0
  else m1

/-- A pass of PREFETCH or EVICT_HINT: it ends when every pane is placed or skipped, with the count of the panes skipped (R127). -/
def Mod.visitStep (m : Mod) (slot : Nat) (one : Mod → Nat → Mod × Option Nat × Bool) (todo : List Nat) (skipped : Nat) (again : List Nat → Nat → Work) : Mod :=
  let v := m.visitAll one todo skipped
  if v.2.1 = [] then v.1.finish slot .ok 0 v.2.2 else v.1.setCtx slot (fun c => { c with work := again v.2.1 v.2.2 })

/-- A pass of TABLE_SWEEP, until no pane is left to visit (R173). -/
def Mod.sweepStep (m : Mod) (slot id gens flags : Nat) (todo going : List Nat) (n : Nat) : Mod :=
  let v := m.sweepPass id gens flags todo going n
  if v.2.1 = [] ∧ v.2.2.1 = [] then v.1.sweepDone slot id flags v.2.2.2 .ok
  else v.1.setCtx slot (fun c => { c with work := .sweep id gens flags v.2.1 v.2.2.1 v.2.2.2 })

/-- A descent that MODE NOW asked for has every precondition of its rung (R573). -/
def Mod.rungReached (m : Mod) (target : Nat) : Bool :=
  decide (max 1 target ≤ m.pow.rung) || (List.range (max 1 target)).all (fun i => m.blockersAt (i + 1) == [])

/-- A life-cycle change: first its steps 1 and 2, then its fuse and the cold reset (R600). -/
def Mod.lifecycleStep (m : Mod) (fz : Fuses) (slot target mask : Nat) (c : Ctx) : Fuses × Mod :=
  if c.progress = 0 then (fz, m.quiesce.setCtx slot (fun c => { c with progress := 1 })) else m.changeLifecycle fz target mask

/-- The work of an ACTIVE context goes on. -/
def Mod.workStep (m : Mod) (fz : Fuses) (slot : Nat) (c : Ctx) : Fuses × Mod :=
  match c.work with
  | .setResidency id mode => (fz, m.residencyStep slot id mode)
  | .prefetch id target todo skipped => (fz, m.visitStep slot (fun m k => m.prefetchOne target k) todo skipped (fun t n => .prefetch id target t n))
  | .evictHint id todo skipped => (fz, m.visitStep slot Mod.hintOne todo skipped (fun t n => .evictHint id t n))
  | .rebuild id s cover sel first n => (fz, m.rebuildDone slot id s cover sel first n)
  | .sweep id gens flags todo going n => (fz, m.sweepStep slot id gens flags todo going n)
  | .ftcSync mode => (fz, m.ftcSyncDone slot mode c)
  | .setRung target =>
    (fz, if m.rungReached target then (m.setPow (fun p => if p.nowCtx = some slot then { p with nowCtx := none } else p)).finish slot .ok 0 0 else m)
  | .fwUpdate _ => (fz, m.fwUpdateStep slot c)
  | .fwActivate mode => (fz, m.fwActivateStep slot mode)
  | .lifecycle target => m.lifecycleStep fz slot target (if target = 3 then m.boot.debugMask else 0) c
  | .debugUnlock =>
    if m.boot.lifecycle = 4 then (fz, (m.setBoot (fun b => { b with debugMask := c.data })).finish slot .ok 0 0)
    else m.lifecycleStep fz slot 3 c.data c
  | _ => (fz, m)

/-- A cancelled context ends with ABORTED, once nothing of its work is left: a scrub ends with its pass, a REHOME with its registrar's answer, a
test with the kernel in progress (R87, R342, R478, R517). -/
def Mod.cancelStep (m : Mod) (slot : Nat) (c : Ctx) : Mod :=
  match c.work with
  | .rehome => m
  | .scrub => m
  | .testRun => if m.test.running.any (fun r => r.2.2 = 2) then m else m.abortWork slot
  | _ => m.abortWork slot

/-- CONTEXT_WORK_COMPLETE (R65). -/
def execContextWorkComplete (slot : SlotNo) (s : State) : Out :=
  s.burn (fun fz m =>
    match Tbl.find m.ctxs slot.toNat with
    | none => (fz, m)
    | some c =>
      if m.pow.phase ≠ .on ∨ m.pow.modReset then (fz, m)
      else
        match c.state with
        | .active => m.workStep fz slot.toNat c
        | .cancelling => (fz, m.cancelStep slot.toNat c)
        | _ => (fz, m))

end Sys2Proof.Machine
end

