-- ==== Sys2Proof/Machine/Dispatch.lean ====
section
/-! DEFINITION. The meaning of every command: one arm per constructor, each one direct call of its meaning. -/
namespace Sys2Proof.Machine

/-- The effect of a command on everything but the queue. -/
def exec (i : Instr) (s : State) : Host.Outcome State Fault Refusal :=
  match i with
  | .openChannel ch who => Sys2Proof.Machine.execOpenChannel ch who s
  | .closeChannel ch who => Sys2Proof.Machine.execCloseChannel ch who s
  | .channelFree ch => Sys2Proof.Machine.execChannelFree ch s
  | .channelIdleTimeout ch => Sys2Proof.Machine.execChannelIdleTimeout ch s
  | .ringDoorbell ch who => Sys2Proof.Machine.execRingDoorbell ch who s
  | .chnErrClear ch who value => Sys2Proof.Machine.execChnErrClear ch who value s
  | .resultSlotWrite ch who => Sys2Proof.Machine.execResultSlotWrite ch who s
  | .cringTailWrite ch who value => Sys2Proof.Machine.execCringTailWrite ch who value s
  | .contextWorkComplete slot => Sys2Proof.Machine.execContextWorkComplete slot s
  | .ringWriteFailed ch index => Sys2Proof.Machine.execRingWriteFailed ch index s
  | .contextRetire slot => Sys2Proof.Machine.execContextRetire slot s
  | .gafferPairFault pair => Sys2Proof.Machine.execGafferPairFault pair s
  | .gafferWatchdogReset => Sys2Proof.Machine.execGafferWatchdogReset s
  | .lseRenew ld => Sys2Proof.Machine.execLseRenew ld s
  | .stsLatchClear ld value => Sys2Proof.Machine.execStsLatchClear ld value s
  | .intxStatusClear ld fn value => Sys2Proof.Machine.execIntxStatusClear ld fn value s
  | .intxChnPendClear ld word value => Sys2Proof.Machine.execIntxChnPendClear ld word value s
  | .intxEnableWrite ld fn value => Sys2Proof.Machine.execIntxEnableWrite ld fn value s
  | .registerWrite who bar offset data => Sys2Proof.Machine.execRegisterWrite who bar offset data s
  | .hdmDecoderCommit ld index => Sys2Proof.Machine.execHdmDecoderCommit ld index s
  | .configWrite ld fn offset data => Sys2Proof.Machine.execConfigWrite ld fn offset data s
  | .busMasterDisable ld => Sys2Proof.Machine.execBusMasterDisable ld s
  | .identify ch => Sys2Proof.Machine.execIdentify ch s
  | .getStatus ch => Sys2Proof.Machine.execGetStatus ch s
  | .getCapabilities ch => Sys2Proof.Machine.execGetCapabilities ch s
  | .getTime ch => Sys2Proof.Machine.execGetTime ch s
  | .channelInfo ch => Sys2Proof.Machine.execChannelInfo ch s
  | .ringSetup ch => Sys2Proof.Machine.execRingSetup ch s
  | .ringTeardown ch => Sys2Proof.Machine.execRingTeardown ch s
  | .eventSubscribe ch => Sys2Proof.Machine.execEventSubscribe ch s
  | .eventUnsubscribe ch => Sys2Proof.Machine.execEventUnsubscribe ch s
  | .contextStatus ch => Sys2Proof.Machine.execContextStatus ch s
  | .contextCancel ch => Sys2Proof.Machine.execContextCancel ch s
  | .contextList ch => Sys2Proof.Machine.execContextList ch s
  | .partitionCreate ch => Sys2Proof.Machine.execPartitionCreate ch s
  | .partitionBindLd ch => Sys2Proof.Machine.execPartitionBindLd ch s
  | .partitionUnbindLd ch => Sys2Proof.Machine.execPartitionUnbindLd ch s
  | .partitionDestroy ch => Sys2Proof.Machine.execPartitionDestroy ch s
  | .partitionQuery ch => Sys2Proof.Machine.execPartitionQuery ch s
  | .leaseSet ch => Sys2Proof.Machine.execLeaseSet ch s
  | .leaseQuery ch => Sys2Proof.Machine.execLeaseQuery ch s
  | .regionCreate ch => Sys2Proof.Machine.execRegionCreate ch s
  | .regionDestroy ch => Sys2Proof.Machine.execRegionDestroy ch s
  | .regionSetAttr ch => Sys2Proof.Machine.execRegionSetAttr ch s
  | .regionQuery ch => Sys2Proof.Machine.execRegionQuery ch s
  | .regionAddExtents ch => Sys2Proof.Machine.execRegionAddExtents ch s
  | .regionReleaseExtents ch => Sys2Proof.Machine.execRegionReleaseExtents ch s
  | .capacityQuery ch => Sys2Proof.Machine.execCapacityQuery ch s
  | .openView ch => Sys2Proof.Machine.execOpenView ch s
  | .closeView ch => Sys2Proof.Machine.execCloseView ch s
  | .openWorking ch => Sys2Proof.Machine.execOpenWorking ch s
  | .publish ch => Sys2Proof.Machine.execPublish ch s
  | .discardWorking ch => Sys2Proof.Machine.execDiscardWorking ch s
  | .checkpoint ch => Sys2Proof.Machine.execCheckpoint ch s
  | .versionList ch => Sys2Proof.Machine.execVersionList ch s
  | .versionRelease ch => Sys2Proof.Machine.execVersionRelease ch s
  | .setResidency ch => Sys2Proof.Machine.execSetResidency ch s
  | .prefetch ch => Sys2Proof.Machine.execPrefetch ch s
  | .evictHint ch => Sys2Proof.Machine.execEvictHint ch s
  | .residencyQuery ch => Sys2Proof.Machine.execResidencyQuery ch s
  | .rebuildTable ch => Sys2Proof.Machine.execRebuildTable ch s
  | .tableSweep ch => Sys2Proof.Machine.execTableSweep ch s
  | .tableQuery ch => Sys2Proof.Machine.execTableQuery ch s
  | .movementLoad ch => Sys2Proof.Machine.execMovementLoad ch s
  | .movementStart ch => Sys2Proof.Machine.execMovementStart ch s
  | .movementStopAtBarrier ch => Sys2Proof.Machine.execMovementStopAtBarrier ch s
  | .movementStopNow ch => Sys2Proof.Machine.execMovementStopNow ch s
  | .movementStatus ch => Sys2Proof.Machine.execMovementStatus ch s
  | .movementUnload ch => Sys2Proof.Machine.execMovementUnload ch s
  | .streamOpenPaced ch => Sys2Proof.Machine.execStreamOpenPaced ch s
  | .streamOpenIngest ch => Sys2Proof.Machine.execStreamOpenIngest ch s
  | .streamStop ch => Sys2Proof.Machine.execStreamStop ch s
  | .streamClose ch => Sys2Proof.Machine.execStreamClose ch s
  | .streamStatus ch => Sys2Proof.Machine.execStreamStatus ch s
  | .regSetMinimums ch => Sys2Proof.Machine.execRegSetMinimums ch s
  | .regSetShares ch => Sys2Proof.Machine.execRegSetShares ch s
  | .regSetWindow ch => Sys2Proof.Machine.execRegSetWindow ch s
  | .regSetLatencyTarget ch => Sys2Proof.Machine.execRegSetLatencyTarget ch s
  | .regQuery ch => Sys2Proof.Machine.execRegQuery ch s
  | .scrub ch => Sys2Proof.Machine.execScrub ch s
  | .errorLogRead ch => Sys2Proof.Machine.execErrorLogRead ch s
  | .errorLogClear ch => Sys2Proof.Machine.execErrorLogClear ch s
  | .setMirror ch => Sys2Proof.Machine.execSetMirror ch s
  | .poisonQuery ch => Sys2Proof.Machine.execPoisonQuery ch s
  | .testPolicySet ch => Sys2Proof.Machine.execTestPolicySet ch s
  | .testRunKernel ch => Sys2Proof.Machine.execTestRunKernel ch s
  | .testRunRound ch => Sys2Proof.Machine.execTestRunRound ch s
  | .testRunRequalify ch => Sys2Proof.Machine.execTestRunRequalify ch s
  | .testReport ch => Sys2Proof.Machine.execTestReport ch s
  | .unitStateQuery ch => Sys2Proof.Machine.execUnitStateQuery ch s
  | .counterConfig ch => Sys2Proof.Machine.execCounterConfig ch s
  | .counterFreeze ch => Sys2Proof.Machine.execCounterFreeze ch s
  | .counterThaw ch => Sys2Proof.Machine.execCounterThaw ch s
  | .counterThawZero ch => Sys2Proof.Machine.execCounterThawZero ch s
  | .counterRead ch => Sys2Proof.Machine.execCounterRead ch s
  | .traceConfig ch => Sys2Proof.Machine.execTraceConfig ch s
  | .traceArm ch => Sys2Proof.Machine.execTraceArm ch s
  | .traceStop ch => Sys2Proof.Machine.execTraceStop ch s
  | .traceManualTrigger ch => Sys2Proof.Machine.execTraceManualTrigger ch s
  | .traceMarker ch => Sys2Proof.Machine.execTraceMarker ch s
  | .traceRead ch => Sys2Proof.Machine.execTraceRead ch s
  | .hangRingEnable ch => Sys2Proof.Machine.execHangRingEnable ch s
  | .dumpRead ch => Sys2Proof.Machine.execDumpRead ch s
  | .dumpTensor ch => Sys2Proof.Machine.execDumpTensor ch s
  | .fabDiscover ch => Sys2Proof.Machine.execFabDiscover ch s
  | .fabDiscoverTimeout slot => Sys2Proof.Machine.execFabDiscoverTimeout slot s
  | .fabSetId ch => Sys2Proof.Machine.execFabSetId ch s
  | .fabLoadRoutes ch => Sys2Proof.Machine.execFabLoadRoutes ch s
  | .joinMember ch => Sys2Proof.Machine.execJoinMember ch s
  | .joinAccessor ch => Sys2Proof.Machine.execJoinAccessor ch s
  | .fabRegionLeave ch => Sys2Proof.Machine.execFabRegionLeave ch s
  | .fabRegionExport ch => Sys2Proof.Machine.execFabRegionExport ch s
  | .fabRegionUnexport ch => Sys2Proof.Machine.execFabRegionUnexport ch s
  | .takeRegistrar ch => Sys2Proof.Machine.execTakeRegistrar ch s
  | .treeSet ch => Sys2Proof.Machine.execTreeSet ch s
  | .treeClear ch => Sys2Proof.Machine.execTreeClear ch s
  | .rehome ch => Sys2Proof.Machine.execRehome ch s
  | .ftcSyncRootNow ch => Sys2Proof.Machine.execFtcSyncRootNow ch s
  | .ftcSyncRootSideband ch => Sys2Proof.Machine.execFtcSyncRootSideband ch s
  | .ftcSyncMeasure ch => Sys2Proof.Machine.execFtcSyncMeasure ch s
  | .fabQuery ch => Sys2Proof.Machine.execFabQuery ch s
  | .powerSetRung ch => Sys2Proof.Machine.execPowerSetRung ch s
  | .powerQuery ch => Sys2Proof.Machine.execPowerQuery ch s
  | .powerSetLimit ch => Sys2Proof.Machine.execPowerSetLimit ch s
  | .telemetryRead ch => Sys2Proof.Machine.execTelemetryRead ch s
  | .fwUpdate ch => Sys2Proof.Machine.execFwUpdate ch s
  | .fwActivateNextReset ch => Sys2Proof.Machine.execFwActivateNextReset ch s
  | .fwActivateNow ch => Sys2Proof.Machine.execFwActivateNow ch s
  | .fwActivateRevert ch => Sys2Proof.Machine.execFwActivateRevert ch s
  | .lifecycleSet ch => Sys2Proof.Machine.execLifecycleSet ch s
  | .debugUnlock ch => Sys2Proof.Machine.execDebugUnlock ch s
  | .ownerKeyInstall ch => Sys2Proof.Machine.execOwnerKeyInstall ch s
  | .lifecycleResetDelay => Sys2Proof.Machine.execLifecycleResetDelay s
  | .managerListSet ch => Sys2Proof.Machine.execManagerListSet ch s
  | .getMeasurements ch => Sys2Proof.Machine.execGetMeasurements ch s
  | .memRd ld hpa tag check => Sys2Proof.Machine.execMemRd ld hpa tag check s
  | .memSpecRd ld hpa => Sys2Proof.Machine.execMemSpecRd ld hpa s
  | .memInv ld hpa tag => Sys2Proof.Machine.execMemInv ld hpa tag s
  | .memWr ld hpa tag data poison => Sys2Proof.Machine.execMemWr ld hpa tag data poison s
  | .memWrPtl ld hpa tag data enable poison => Sys2Proof.Machine.execMemWrPtl ld hpa tag data enable poison s
  | .flrFunction0 ld => Sys2Proof.Machine.execFlrFunction0 ld s
  | .flrFunction1 ld => Sys2Proof.Machine.execFlrFunction1 ld s
  | .cxlReset ld => Sys2Proof.Machine.execCxlReset ld s
  | .resetComplete ld fn => Sys2Proof.Machine.execResetComplete ld fn s
  | .perstAssert port => Sys2Proof.Machine.execPerstAssert port s
  | .hotReset port => Sys2Proof.Machine.execHotReset port s
  | .hostLinkLost port => Sys2Proof.Machine.execHostLinkLost port s
  | .ideCheckFail port => Sys2Proof.Machine.execIdeCheckFail port s
  | .dmaReadCompletion ld tag data poison error => Sys2Proof.Machine.execDmaReadCompletion ld tag data poison error s
  | .completionTimeout ld tag => Sys2Proof.Machine.execCompletionTimeout ld tag s
  | .l1EntryRequest port => Sys2Proof.Machine.execL1EntryRequest port s
  | .identifyMemoryDevice ld => Sys2Proof.Machine.execIdentifyMemoryDevice ld s
  | .getSupportedLogs ld => Sys2Proof.Machine.execGetSupportedLogs ld s
  | .getLog ld input => Sys2Proof.Machine.execGetLog ld input s
  | .getEventRecords ld input => Sys2Proof.Machine.execGetEventRecords ld input s
  | .clearEventRecords ld input => Sys2Proof.Machine.execClearEventRecords ld input s
  | .getEventInterruptPolicy ld => Sys2Proof.Machine.execGetEventInterruptPolicy ld s
  | .setEventInterruptPolicy ld input => Sys2Proof.Machine.execSetEventInterruptPolicy ld input s
  | .getPoisonList ld input => Sys2Proof.Machine.execGetPoisonList ld input s
  | .getTimestamp ld => Sys2Proof.Machine.execGetTimestamp ld s
  | .setTimestamp ld input => Sys2Proof.Machine.execSetTimestamp ld input s
  | .getDynamicCapacityConfiguration ld input => Sys2Proof.Machine.execGetDynamicCapacityConfiguration ld input s
  | .getDynamicCapacityExtentList ld input => Sys2Proof.Machine.execGetDynamicCapacityExtentList ld input s
  | .addDynamicCapacityResponse ld extents => Sys2Proof.Machine.execAddDynamicCapacityResponse ld extents s
  | .releaseDynamicCapacity ld extents => Sys2Proof.Machine.execReleaseDynamicCapacity ld extents s
  | .getDcdInfo who => Sys2Proof.Machine.execGetDcdInfo who s
  | .getHostDcRegionConfiguration who ld => Sys2Proof.Machine.execGetHostDcRegionConfiguration who ld s
  | .setDcRegionConfiguration who region blockSize length base => Sys2Proof.Machine.execSetDcRegionConfiguration who region blockSize length base s
  | .getDcdExtentLists who ld => Sys2Proof.Machine.execGetDcdExtentLists who ld s
  | .initiateDynamicCapacityAdd who ld policy count dpas tag => Sys2Proof.Machine.execInitiateDynamicCapacityAdd who ld policy count dpas tag s
  | .initiateDynamicCapacityRelease who ld forced dpas => Sys2Proof.Machine.execInitiateDynamicCapacityRelease who ld forced dpas s
  | .getLdInfo who => Sys2Proof.Machine.execGetLdInfo who s
  | .getLdAllocations who => Sys2Proof.Machine.execGetLdAllocations who s
  | .setLdAllocations who input => Sys2Proof.Machine.execSetLdAllocations who input s
  | .doeDiscovery ld index => Sys2Proof.Machine.execDoeDiscovery ld index s
  | .cxlTableAccess ld entry => Sys2Proof.Machine.execCxlTableAccess ld entry s
  | .spdmMessage who path request => Sys2Proof.Machine.execSpdmMessage who path request s
  | .chnMsg who write ch offset length data => Sys2Proof.Machine.execChnMsg who write ch offset length data s
  | .pwrPrsntMate => Sys2Proof.Machine.execPwrPrsntMate s
  | .pwrEnHigh => Sys2Proof.Machine.execPwrEnHigh s
  | .pwrEnLow => Sys2Proof.Machine.execPwrEnLow s
  | .unmating => Sys2Proof.Machine.execUnmating s
  | .modReset => Sys2Proof.Machine.execModReset s
  | .inputLow mv => Sys2Proof.Machine.execInputLow mv s
  | .inputUndervoltage mv => Sys2Proof.Machine.execInputUndervoltage mv s
  | .inputHigh mv => Sys2Proof.Machine.execInputHigh mv s
  | .inputOvervoltage mv => Sys2Proof.Machine.execInputOvervoltage mv s
  | .inputRecovered mv => Sys2Proof.Machine.execInputRecovered mv s
  | .sbVrefLow => Sys2Proof.Machine.execSbVrefLow s
  | .ftcSyncEdge => Sys2Proof.Machine.execFtcSyncEdge s
  | .dsPresenceChange port present => Sys2Proof.Machine.execDsPresenceChange port present s
  | .fabPresenceChange port present => Sys2Proof.Machine.execFabPresenceChange port present s
  | .cablePowerFault connector => Sys2Proof.Machine.execCablePowerFault connector s
  | .leakSensorSample cordOhms loopOhms => Sys2Proof.Machine.execLeakSensorSample cordOhms loopOhms s
  | .coolantSample inlet outlet flow => Sys2Proof.Machine.execCoolantSample inlet outlet flow s
  | .powerGovernorSample p100 p20ms p2s => Sys2Proof.Machine.execPowerGovernorSample p100 p20ms p2s s
  | .powerCapFail => Sys2Proof.Machine.execPowerCapFail s
  | .thermalGovernorSample bDies cDies gddr nand => Sys2Proof.Machine.execThermalGovernorSample bDies cDies gddr nand s
  | .thermtrip die temp => Sys2Proof.Machine.execThermtrip die temp s
  | .rungDescent => Sys2Proof.Machine.execRungDescent s
  | .rungEntry => Sys2Proof.Machine.execRungEntry s
  | .wake cause => Sys2Proof.Machine.execWake cause s
  | .t0SweepComplete => Sys2Proof.Machine.execT0SweepComplete s
  | .promotionCommit record read => Sys2Proof.Machine.execPromotionCommit record read s
  | .evictionCommit record read => Sys2Proof.Machine.execEvictionCommit record read s
  | .oldLocationFreed record => Sys2Proof.Machine.execOldLocationFreed record s
  | .victimSelectorRun => Sys2Proof.Machine.execVictimSelectorRun s
  | .counterDecay pass => Sys2Proof.Machine.execCounterDecay pass s
  | .pinLowEviction record => Sys2Proof.Machine.execPinLowEviction record s
  | .repack record read => Sys2Proof.Machine.execRepack record read s
  | .unpackCommit record read => Sys2Proof.Machine.execUnpackCommit record read s
  | .copyOnWriteCommit index read => Sys2Proof.Machine.execCopyOnWriteCommit index read s
  | .exhaustHoldExpiry index => Sys2Proof.Machine.execExhaustHoldExpiry index s
  | .sealEncodeComplete record read => Sys2Proof.Machine.execSealEncodeComplete record read s
  | .checkpointEncodeComplete slot => Sys2Proof.Machine.execCheckpointEncodeComplete slot s
  | .durablePersistenceComplete region version => Sys2Proof.Machine.execDurablePersistenceComplete region version s
  | .versionRetired region version => Sys2Proof.Machine.execVersionRetired region version s
  | .extentClean extent => Sys2Proof.Machine.execExtentClean extent s
  | .leaseGrace ld => Sys2Proof.Machine.execLeaseGrace ld s
  | .leaseCleanup ld => Sys2Proof.Machine.execLeaseCleanup ld s
  | .firstTableBuilt region => Sys2Proof.Machine.execFirstTableBuilt region s
  | .generationFree region gen => Sys2Proof.Machine.execGenerationFree region gen s
  | .loadChecksComplete slot => Sys2Proof.Machine.execLoadChecksComplete slot s
  | .tileFetchComplete core ticket read => Sys2Proof.Machine.execTileFetchComplete core ticket read s
  | .tileStoreCommit core ticket => Sys2Proof.Machine.execTileStoreCommit core ticket s
  | .barrierRelease slot => Sys2Proof.Machine.execBarrierRelease slot s
  | .runFault core reason => Sys2Proof.Machine.execRunFault core reason s
  | .timeLimitExpiry slot => Sys2Proof.Machine.execTimeLimitExpiry slot s
  | .longBeat slot => Sys2Proof.Machine.execLongBeat slot s
  | .movementStopped slot => Sys2Proof.Machine.execMovementStopped slot s
  | .kernelInsertion core => Sys2Proof.Machine.execKernelInsertion core s
  | .nop core => Sys2Proof.Machine.execNop core s
  | .loop core => Sys2Proof.Machine.execLoop core s
  | .loopEnd core => Sys2Proof.Machine.execLoopEnd core s
  | .skip core => Sys2Proof.Machine.execSkip core s
  | .barrier core => Sys2Proof.Machine.execBarrier core s
  | .fetch core => Sys2Proof.Machine.execFetch core s
  | .store core => Sys2Proof.Machine.execStore core s
  | .gather core => Sys2Proof.Machine.execGather core s
  | .scatter core => Sys2Proof.Machine.execScatter core s
  | .putPane core => Sys2Proof.Machine.execPutPane core s
  | .fill core => Sys2Proof.Machine.execFill core s
  | .copy core => Sys2Proof.Machine.execCopy core s
  | .vec core => Sys2Proof.Machine.execVec core s
  | .convert core => Sys2Proof.Machine.execConvert core s
  | .sdot core => Sys2Proof.Machine.execSdot core s
  | .softmaxPartial core => Sys2Proof.Machine.execSoftmaxPartial core s
  | .softmaxMerge core => Sys2Proof.Machine.execSoftmaxMerge core s
  | .mma core => Sys2Proof.Machine.execMma core s
  | .reduce core => Sys2Proof.Machine.execReduce core s
  | .compare core => Sys2Proof.Machine.execCompare core s
  | .topk core => Sys2Proof.Machine.execTopk core s
  | .checksum core => Sys2Proof.Machine.execChecksum core s
  | .fritEncode core => Sys2Proof.Machine.execFritEncode core s
  | .lehrEncode core => Sys2Proof.Machine.execLehrEncode core s
  | .decode core => Sys2Proof.Machine.execDecode core s
  | .fabSend core => Sys2Proof.Machine.execFabSend core s
  | .fabRecv core => Sys2Proof.Machine.execFabRecv core s
  | .fabReduce core => Sys2Proof.Machine.execFabReduce core s
  | .portTrainingComplete port mode lanes => Sys2Proof.Machine.execPortTrainingComplete port mode lanes s
  | .hello port payload => Sys2Proof.Machine.execHello port payload s
  | .key port payload => Sys2Proof.Machine.execKey port payload s
  | .timestamp port payload => Sys2Proof.Machine.execTimestamp port payload s
  | .goodbye port => Sys2Proof.Machine.execGoodbye port s
  | .dataFlit port flit => Sys2Proof.Machine.execDataFlit port flit s
  | .idleFlit port flit => Sys2Proof.Machine.execIdleFlit port flit s
  | .retryReq port flit => Sys2Proof.Machine.execRetryReq port flit s
  | .ackTimer port => Sys2Proof.Machine.execAckTimer port s
  | .retrainTimeout port => Sys2Proof.Machine.execRetrainTimeout port s
  | .fecAlignmentLost port => Sys2Proof.Machine.execFecAlignmentLost port s
  | .keyEpochChange port => Sys2Proof.Machine.execKeyEpochChange port s
  | .linkStall port => Sys2Proof.Machine.execLinkStall port s
  | .fecMargin port corrected total => Sys2Proof.Machine.execFecMargin port corrected total s
  | .packetForward port => Sys2Proof.Machine.execPacketForward port s
  | .sync port => Sys2Proof.Machine.execSync port s
  | .unreachable port => Sys2Proof.Machine.execUnreachable port s
  | .msgRefused port => Sys2Proof.Machine.execMsgRefused port s
  | .msgSlotFree port => Sys2Proof.Machine.execMsgSlotFree port s
  | .freezeTrigger port => Sys2Proof.Machine.execFreezeTrigger port s
  | .lineRd port check => Sys2Proof.Machine.execLineRd port check s
  | .lineWr port => Sys2Proof.Machine.execLineWr port s
  | .tileRd port check => Sys2Proof.Machine.execTileRd port check s
  | .tileWr port => Sys2Proof.Machine.execTileWr port s
  | .lineData port => Sys2Proof.Machine.execLineData port s
  | .tileData port => Sys2Proof.Machine.execTileData port s
  | .wrAck port => Sys2Proof.Machine.execWrAck port s
  | .redirect port => Sys2Proof.Machine.execRedirect port s
  | .mapUpdate port => Sys2Proof.Machine.execMapUpdate port s
  | .versionRsp port => Sys2Proof.Machine.execVersionRsp port s
  | .reducePart port => Sys2Proof.Machine.execReducePart port s
  | .reduceResult port => Sys2Proof.Machine.execReduceResult port s
  | .msg port => Sys2Proof.Machine.execMsg port s
  | .rehomeData port => Sys2Proof.Machine.execRehomeData port s
  | .nack port => Sys2Proof.Machine.execNack port s
  | .vopOpenView port => Sys2Proof.Machine.execVopOpenView port s
  | .vopCloseView port => Sys2Proof.Machine.execVopCloseView port s
  | .vopOpenWorking port => Sys2Proof.Machine.execVopOpenWorking port s
  | .vopPublish port => Sys2Proof.Machine.execVopPublish port s
  | .vopCheckpoint port => Sys2Proof.Machine.execVopCheckpoint port s
  | .vopDiscardWorking port => Sys2Proof.Machine.execVopDiscardWorking port s
  | .vopVersionRelease port => Sys2Proof.Machine.execVopVersionRelease port s
  | .vopVersionList port => Sys2Proof.Machine.execVopVersionList port s
  | .sealPrepare port => Sys2Proof.Machine.execSealPrepare port s
  | .sealCommit port => Sys2Proof.Machine.execSealCommit port s
  | .sealAbort port => Sys2Proof.Machine.execSealAbort port s
  | .versionFree port => Sys2Proof.Machine.execVersionFree port s
  | .join port => Sys2Proof.Machine.execJoin port s
  | .mapFetch port => Sys2Proof.Machine.execMapFetch port s
  | .registrarQuery port => Sys2Proof.Machine.execRegistrarQuery port s
  | .leave port => Sys2Proof.Machine.execLeave port s
  | .rehomeForward port => Sys2Proof.Machine.execRehomeForward port s
  | .rehomeReserve port => Sys2Proof.Machine.execRehomeReserve port s
  | .rehomeSend port => Sys2Proof.Machine.execRehomeSend port s
  | .rehomeUnitCommit fregion unit => Sys2Proof.Machine.execRehomeUnitCommit fregion unit s
  | .remoteRequestTimeout tag => Sys2Proof.Machine.execRemoteRequestTimeout tag s
  | .versionOpTimeout token => Sys2Proof.Machine.execVersionOpTimeout token s
  | .sealAckTimeout fregion => Sys2Proof.Machine.execSealAckTimeout fregion s
  | .preparedSealTimeout fregion => Sys2Proof.Machine.execPreparedSealTimeout fregion s
  | .treeRoundTimeout tree round => Sys2Proof.Machine.execTreeRoundTimeout tree round s
  | .windowBoundary => Sys2Proof.Machine.execWindowBoundary s
  | .pacedTileFetch slot => Sys2Proof.Machine.execPacedTileFetch slot s
  | .pacedTileWrite slot => Sys2Proof.Machine.execPacedTileWrite slot s
  | .pacedCutoff slot => Sys2Proof.Machine.execPacedCutoff slot s
  | .pacedStopRecord slot => Sys2Proof.Machine.execPacedStopRecord slot s
  | .pacedEndRecord slot => Sys2Proof.Machine.execPacedEndRecord slot s
  | .ingestDrainIdle slot record => Sys2Proof.Machine.execIngestDrainIdle slot record s
  | .refreshDue channel bank => Sys2Proof.Machine.execRefreshDue channel bank s
  | .maintenanceRetrain => Sys2Proof.Machine.execMaintenanceRetrain s
  | .t0AccessFailed record line write => Sys2Proof.Machine.execT0AccessFailed record line write s
  | .t1NoResponse record => Sys2Proof.Machine.execT1NoResponse record s
  | .t1LinkDown port => Sys2Proof.Machine.execT1LinkDown port s
  | .t1RetrainTimeout port => Sys2Proof.Machine.execT1RetrainTimeout port s
  | .t1DeviceEvent port record => Sys2Proof.Machine.execT1DeviceEvent port record s
  | .t1EnumerationComplete port capacity accepted => Sys2Proof.Machine.execT1EnumerationComplete port capacity accepted s
  | .lostPortPoisonPass t2 index => Sys2Proof.Machine.execLostPortPoisonPass t2 index s
  | .nandProgramComplete record => Sys2Proof.Machine.execNandProgramComplete record s
  | .programFailure die block erase => Sys2Proof.Machine.execProgramFailure die block erase s
  | .t2ReadDecode record step => Sys2Proof.Machine.execT2ReadDecode record step s
  | .dieFailure channel die => Sys2Proof.Machine.execDieFailure channel die s
  | .blockRelocation die block => Sys2Proof.Machine.execBlockRelocation die block s
  | .journalCommit => Sys2Proof.Machine.execJournalCommit s
  | .wearGovernorChange state => Sys2Proof.Machine.execWearGovernorChange state s
  | .healCommit record read => Sys2Proof.Machine.execHealCommit record read s
  | .healTimeout record => Sys2Proof.Machine.execHealTimeout record s
  | .scrubPassComplete corrected found => Sys2Proof.Machine.execScrubPassComplete corrected found s
  | .kernelDue core => Sys2Proof.Machine.execKernelDue core s
  | .kernelDeferExpiry core => Sys2Proof.Machine.execKernelDeferExpiry core s
  | .kernelRunEnd core result => Sys2Proof.Machine.execKernelRunEnd core result s
  | .privilegedFault unit => Sys2Proof.Machine.execPrivilegedFault unit s
  | .drainPeriodExpiry => Sys2Proof.Machine.execDrainPeriodExpiry s
  | .hangDeclare slot => Sys2Proof.Machine.execHangDeclare slot s
  | .dumpWriteComplete dump => Sys2Proof.Machine.execDumpWriteComplete dump s
  | .captureTaken slot => Sys2Proof.Machine.execCaptureTaken slot s
  | .bootImageVerified slot valid => Sys2Proof.Machine.execBootImageVerified slot valid s
  | .journalReplayComplete readable => Sys2Proof.Machine.execJournalReplayComplete readable s
  | .readyEntry => Sys2Proof.Machine.execReadyEntry s
  | .perstDeassert port => Sys2Proof.Machine.execPerstDeassert port s
  | .hostLinkTrained port mode width rate => Sys2Proof.Machine.execHostLinkTrained port mode width rate s
  | .modResetRelease => Sys2Proof.Machine.execModResetRelease s
  | .sbVrefRecovered => Sys2Proof.Machine.execSbVrefRecovered s
  | .thermtripRelease => Sys2Proof.Machine.execThermtripRelease s
  | .t1FatalError port => Sys2Proof.Machine.execT1FatalError port s
  | .t1LinkRetrained port => Sys2Proof.Machine.execT1LinkRetrained port s
  | .ftcSyncEdgeTimeout => Sys2Proof.Machine.execFtcSyncEdgeTimeout s
  | .kernelRunStart => Sys2Proof.Machine.execKernelRunStart s

end Sys2Proof.Machine
end

