-- ==== Sys2Proof/Certificates/Slice0/Obligations.lean ====
section
/-! DEFINITION. The statements for the provers. -/
open Sys2Proof Sys2Proof.Machine

/-! ### Channels (chapter 2) -/

/-- The requester's access to BAR2 of function 1, or its message, gets an answer from the module (R44, R49, R459, R584). -/
def Sys2Proof.reaches (m : Mod) : Owner → Prop
  | .ld id => m.gafferDead = false ∧ m.presented id.toNat = true ∧ m.blocked id.toNat 1 = false
  | .mctp medium _ => m.gafferDead = false ∧ m.pow.phase = .on ∧ m.pow.modReset = false ∧ 3 ≤ m.boot.step ∧ m.mediumUp medium.toNat = true
  | _ => m.gafferDead = false ∧ m.pow.phase = .on ∧ m.pow.modReset = false ∧ 3 ≤ m.boot.step

/-- The module as the access finds it: a host's access has brought its link back to L0. -/
def Sys2Proof.linked (m : Mod) : Owner → Mod
  | .ld id => m.backToL0 id.toNat
  | _ => m

/-- The module as an access to a channel's page finds it: a host's access also has the effect of host traffic on the rung. -/
def Sys2Proof.touched (m : Mod) : Owner → Mod
  | .ld id => (m.backToL0 id.toNat).hostTraffic id.toNat
  | _ => m

/-- Every channel command has its effect where the requester reaches the module and the channel is in the state that the command
asks for. The next state is given outright, so that nothing else changes. -/
def Obligations.ChannelCommandsComplete : Prop :=
  (∀ (s : State) (ch : ChanNo) (who : Owner), reaches s.mach who → Tbl.find (touched s.mach who).chans ch.toNat = none →
    exec (.openChannel ch who) s =
      .next (s.after { touched s.mach who with chans := Tbl.put (touched s.mach who).chans ch.toNat (Chan.init who) })) ∧
  (∀ (s : State) (ch : ChanNo) (who : Owner) (c : Chan), reaches s.mach who → Tbl.find (touched s.mach who).chans ch.toNat = some c →
    c.owner = who →
    exec (.closeChannel ch who) s = .next (s.after ((touched s.mach who).setChan ch.toNat (fun c => { c with closing := true })))) ∧
  (∀ (s : State) (ch : ChanNo) (c : Chan), Tbl.find s.mach.chans ch.toNat = some c → c.closing = true → c.inflight = none →
    exec (.channelFree ch) s = .next (s.after (s.mach.freeChan ch.toNat))) ∧
  (∀ (s : State) (ch : ChanNo) (c : Chan), Tbl.find s.mach.chans ch.toNat = some c → c.owner.ldNo = none →
    exec (.channelIdleTimeout ch) s = .next (s.after (s.mach.setChan ch.toNat (fun c => { c with closing := true })))) ∧
  (∀ (s : State) (ch : ChanNo) (who : Owner) (c : Chan), reaches s.mach who → Tbl.find (linked s.mach who).chans ch.toNat = some c →
    c.owner = who → c.closing = false → c.inflight = none →
    exec (.ringDoorbell ch who) s = .next (s.after ((linked s.mach who).acceptDoorbell ch.toNat c))) ∧
  (∀ (s : State) (ch : ChanNo) (who : Owner) (value : BitVec 64) (c : Chan), reaches s.mach who →
    Tbl.find (touched s.mach who).chans ch.toNat = some c → c.owner = who →
    exec (.chnErrClear ch who value) s =
      .next (s.after ((touched s.mach who).setChan ch.toNat (fun c => { c with err := c.err &&& ~~~(BitVec.ofNat 5 value.toNat) })))) ∧
  (∀ (s : State) (ch : ChanNo) (who : Owner) (c : Chan), reaches s.mach who → Tbl.find (touched s.mach who).chans ch.toNat = some c →
    c.owner = who →
    exec (.resultSlotWrite ch who) s = .next (s.after ((touched s.mach who).setChnErr ch.toNat 1))) ∧
  (∀ (s : State) (ch : ChanNo) (who : Owner) (value : BitVec 64) (c : Chan) (r : Ring), reaches s.mach who →
    Tbl.find (touched s.mach who).chans ch.toNat = some c → c.owner = who → c.ring = some r →
    (c.head - BitVec.ofNat 32 value.toNat).toNat ≤ 2 ^ r.log2 →
    exec (.cringTailWrite ch who value) s =
      .next (s.after (((touched s.mach who).setChan ch.toNat (fun c => { c with tail := BitVec.ofNat 32 value.toNat })).flushHeld ch.toNat 64))) ∧
  (∀ (s : State) (ch : ChanNo) (index : BitVec 32) (c : Chan) (r : Ring) (l : Nat), Tbl.find s.mach.chans ch.toNat = some c →
    c.ring = some r → c.owner.ldNo = some l →
    exec (.ringWriteFailed ch index) s =
      .next (s.after (((s.mach.setChan ch.toNat (fun c => { c with ring := some { r with disabled := true } })).setChnErr ch.toNat 4).logErr
        { unit := 0x6000 + l / 16, code := 0x0609, sev := .contained, opn := .background,
          address := r.base + 32 * (index.toNat % 2 ^ r.log2), space := .hostPhys, context := 0x8000 + l,
          detail := lastCode s.mach.out l (r.base + 32 * (index.toNat % 2 ^ r.log2)) }))) ∧
  (∀ (s : State) (slot : SlotNo), exec (.contextRetire slot) s = .next (s.after (s.mach.retireCtx (s.mach.idOf slot.toNat)))) ∧
  (∀ (s : State) (who : Owner) (ch : ChanNo) (offset : BitVec 12) (length : Nat) (data : List Byte), reaches s.mach who → who.ldNo = none →
    offset.toNat % 4 = 0 → length % 4 = 0 → 4 ≤ length → length ≤ 256 → offset.toNat + length ≤ 0x1000 →
    exec (.chnMsg who true ch offset length data) s =
      .next (s.after ((s.mach.pageWrites who ch.toNat offset.toNat (data.take length) 64).send (.chnResponse who ch.toNat offset.toNat 0 []))) ∧
    exec (.chnMsg who false ch offset length data) s =
      .next (s.after (s.mach.send (.chnResponse who ch.toNat offset.toNat length (s.mach.pageRead who ch.toNat offset.toNat length)))))

/-! ### Sliver cores (chapters 7 and 8) -/

/-- A descriptor of a unit that is the next of its core, whose operands, those the descriptor gives and then those whose length it reads, lie
inside the crucible and are not busy, and which does not fault, has its effect, moves the core to the next descriptor and counts the bytes it moves. -/
def Sys2Proof.unitCompletes (row : CoreNo → Instr) (op : Nat) (effect : Effect) : Prop :=
  ∀ (s : State) (core : CoreNo) (i : Issue) (m : Mod), s.mach.nextDesc core.toNat = some i → i.d.op = op →
    spansOk i.k (i.d.knownSpans i.k) = true → spansFree i.k (i.k.busyUnits s.mach.treeType) (i.d.knownSpans i.k) = true →
    spansOk i.k (s.mach.spansOf i) = true → spansFree i.k (i.k.busyUnits s.mach.treeType) (s.mach.spansOf i) = true →
    effect i s.mach = (m, none) → (op = 0x72 → s.mach.roundStalls core.toNat = false) →
    exec (row core) s = .next (s.after ((m.setCore core.toNat (fun k => { k with pc := k.pc + 1 })).count 0x0001 (coreUnit core.toNat)
      (0x2000 + i.v.partition) (some i.v.partition) (spanBytes (s.mach.spansOf i))))

/-- The descriptors of the units of a core complete. -/
def Obligations.UnitDescriptorsComplete : Prop :=
  unitCompletes .fetch 0x10 effFetch ∧
  unitCompletes .store 0x11 effStore ∧
  unitCompletes .gather 0x12 effGather ∧
  unitCompletes .scatter 0x13 effScatter ∧
  unitCompletes .putPane 0x14 effPutPane ∧
  unitCompletes .fill 0x20 effFill ∧
  unitCompletes .copy 0x21 effCopy ∧
  unitCompletes .checksum 0x53 effChecksum ∧
  unitCompletes .vec 0x30 effVec ∧
  unitCompletes .convert 0x31 effConvert ∧
  unitCompletes .mma 0x40 effMma ∧
  unitCompletes .reduce 0x50 effReduce ∧
  unitCompletes .compare 0x51 effCompare ∧
  unitCompletes .topk 0x52 effTopk ∧
  unitCompletes .sdot 0x32 effSdot ∧
  unitCompletes .softmaxPartial 0x33 effSoftmaxPartial ∧
  unitCompletes .softmaxMerge 0x34 effSoftmaxMerge ∧
  unitCompletes .fritEncode 0x60 effFritEncode ∧
  unitCompletes .lehrEncode 0x61 effLehrEncode ∧
  unitCompletes .decode 0x62 effDecode ∧
  unitCompletes .fabSend 0x70 effFabSend ∧
  unitCompletes .fabRecv 0x71 effFabRecv ∧
  unitCompletes .fabReduce 0x72 effFabReduce

/-- The descriptors of the sequencer change their core outright: NOP goes on, LOOP opens a loop, LOOP_END closes or repeats it, SKIP
passes over COUNT descriptors where its predicate has the sense it asks for, BARRIER waits at the barrier. -/
def Obligations.SequencerDescriptorsComplete : Prop :=
  ∀ (s : State) (core : CoreNo) (i : Issue), s.mach.nextDesc core.toNat = some i →
    (i.d.op = 0x00 → exec (.nop core) s = .next (s.after (s.mach.setCore core.toNat (fun k => { k with pc := k.pc + 1 })))) ∧
    (i.d.op = 0x01 → exec (.loop core) s = .next (s.after (s.mach.setCore core.toNat (fun k =>
      { k with loops := { start := k.pc, iter := 0, count := i.d.count } :: k.loops, pc := k.pc + 1 })))) ∧
    (i.d.op = 0x02 → exec (.loopEnd core) s = .next (s.after (s.mach.setCore core.toNat loopEnd))) ∧
    (i.d.op = 0x03 → exec (.skip core) s = .next (s.after (s.mach.setCore core.toNat (fun k =>
      { k with pc := k.pc + 1 + (if k.preds.getD (i.d.sub % 4) false = bit i.d.sub 2 then i.d.count else 0) })))) ∧
    (i.d.op = 0x04 → i.k.busyUnits s.mach.treeType = [] → exec (.barrier core) s =
      .next (s.after ((s.mach.setCore i.c (fun k => { k with atBarrier := true, pc := k.pc + 1 })).traceEv (coreUnit i.c) 0x04 i.v.partition
        i.v.beat (s.mach.idOf i.slot) 0 0)))

/-! ### The commands of the mailbox (R77, R81) -/

/-- A command of the mailbox that waits in a channel, is its turn's and is admitted, and answers OK or ACCEPTED, puts that answer into
the channel in the state that the command makes; while it waits for something else to happen before it answers, it leaves the state that
it makes. -/
def Sys2Proof.mailboxCompletes (row : ChanNo → Instr) (op : Nat) (form : Mem → Bool) (cmd : Cmd) : Prop :=
  ∀ (s : State) (ch : ChanNo) (c : Chan) (fl : InFlight) (m : Mod) (rep : Reply),
    s.mach.servable ch.toNat op form = some (c, fl) →
    (s.mach.start ch.toNat).turnedAway ((s.mach.start ch.toNat).reqOf s.fuses ch.toNat c fl) = none →
    cmd ((s.mach.start ch.toNat).reqOf s.fuses ch.toNat c fl) (s.mach.start ch.toNat) = (m, rep) →
    (rep.status = .ok ∨ rep.status = .accepted →
      exec (row ch) s = .next (s.after ((m.post ch.toNat rep).serveUnknown m.gaffer.order.length))) ∧
    (rep.status = .pending → exec (row ch) s = .next (s.after m))

/-- The commands of identity and of channels and contexts (groups 0x00 and 0x01) complete. -/
def Obligations.ChannelAndIdentityCommandsComplete : Prop :=
  mailboxCompletes .identify 0x0000 anyForm cmdIdentify ∧
  mailboxCompletes .getStatus 0x0001 anyForm cmdGetStatus ∧
  mailboxCompletes .getCapabilities 0x0002 anyForm cmdGetCapabilities ∧
  mailboxCompletes .getTime 0x0003 anyForm cmdGetTime ∧
  mailboxCompletes .channelInfo 0x0100 anyForm cmdChannelInfo ∧
  mailboxCompletes .ringSetup 0x0101 anyForm cmdRingSetup ∧
  mailboxCompletes .ringTeardown 0x0102 anyForm cmdRingTeardown ∧
  mailboxCompletes .eventSubscribe 0x0103 anyForm cmdEventSubscribe ∧
  mailboxCompletes .eventUnsubscribe 0x0104 anyForm cmdEventUnsubscribe ∧
  mailboxCompletes .contextStatus 0x0105 anyForm cmdContextStatus ∧
  mailboxCompletes .contextList 0x0107 anyForm cmdContextList ∧
  mailboxCompletes .contextCancel 0x0106 anyForm cmdContextCancel

/-- The commands of partitions, leases, regions and extents (groups 0x02 and 0x03) complete. -/
def Obligations.PartitionAndRegionCommandsComplete : Prop :=
  mailboxCompletes .partitionDestroy 0x0203 anyForm cmdPartitionDestroy ∧
  mailboxCompletes .regionDestroy 0x0301 anyForm cmdRegionDestroy ∧
  mailboxCompletes .regionReleaseExtents 0x0305 anyForm cmdRegionReleaseExtents ∧
  mailboxCompletes .partitionCreate 0x0200 anyForm cmdPartitionCreate ∧
  mailboxCompletes .partitionBindLd 0x0201 anyForm cmdPartitionBindLd ∧
  mailboxCompletes .partitionUnbindLd 0x0202 anyForm cmdPartitionUnbindLd ∧
  mailboxCompletes .partitionQuery 0x0204 anyForm cmdPartitionQuery ∧
  mailboxCompletes .leaseSet 0x0205 anyForm cmdLeaseSet ∧
  mailboxCompletes .leaseQuery 0x0206 anyForm cmdLeaseQuery ∧
  mailboxCompletes .regionCreate 0x0300 anyForm cmdRegionCreate ∧
  mailboxCompletes .regionSetAttr 0x0302 anyForm cmdRegionSetAttr ∧
  mailboxCompletes .regionQuery 0x0303 anyForm cmdRegionQuery ∧
  mailboxCompletes .regionAddExtents 0x0304 anyForm cmdRegionAddExtents ∧
  mailboxCompletes .capacityQuery 0x0306 anyForm cmdCapacityQuery

/-- The commands of versions, residency and tables (groups 0x04 to 0x06) complete. -/
def Obligations.VersionResidencyTableCommandsComplete : Prop :=
  mailboxCompletes .setResidency 0x0500 anyForm cmdSetResidency ∧
  mailboxCompletes .prefetch 0x0501 anyForm cmdPrefetch ∧
  mailboxCompletes .evictHint 0x0502 anyForm cmdEvictHint ∧
  mailboxCompletes .residencyQuery 0x0503 anyForm cmdResidencyQuery ∧
  mailboxCompletes .rebuildTable 0x0600 anyForm cmdRebuildTable ∧
  mailboxCompletes .tableSweep 0x0601 anyForm cmdTableSweep ∧
  mailboxCompletes .tableQuery 0x0602 anyForm cmdTableQuery ∧
  mailboxCompletes .openView 0x0400 anyForm cmdOpenView ∧
  mailboxCompletes .closeView 0x0401 anyForm cmdCloseView ∧
  mailboxCompletes .openWorking 0x0402 anyForm cmdOpenWorking ∧
  mailboxCompletes .publish 0x0403 anyForm cmdPublish ∧
  mailboxCompletes .discardWorking 0x0404 anyForm cmdDiscardWorking ∧
  mailboxCompletes .checkpoint 0x0405 anyForm cmdCheckpoint ∧
  mailboxCompletes .versionList 0x0406 anyForm cmdVersionList ∧
  mailboxCompletes .versionRelease 0x0407 anyForm cmdVersionRelease

/-- The commands of movements, streams and regulation (groups 0x07 to 0x09) complete. -/
def Obligations.MovementStreamRegulatorCommandsComplete : Prop :=
  mailboxCompletes .movementLoad 0x0700 anyForm cmdMovementLoad ∧
  mailboxCompletes .movementStart 0x0701 anyForm cmdMovementStart ∧
  mailboxCompletes .movementStopAtBarrier 0x0702 stopBarrierForm cmdMovementStop ∧
  mailboxCompletes .movementStopNow 0x0702 stopNowForm cmdMovementStop ∧
  mailboxCompletes .movementStatus 0x0703 anyForm cmdMovementStatus ∧
  mailboxCompletes .movementUnload 0x0704 anyForm cmdMovementUnload ∧
  mailboxCompletes .streamOpenPaced 0x0800 anyForm cmdStreamOpenPaced ∧
  mailboxCompletes .streamOpenIngest 0x0801 anyForm cmdStreamOpenIngest ∧
  mailboxCompletes .streamStop 0x0802 anyForm cmdStreamStop ∧
  mailboxCompletes .streamClose 0x0803 anyForm cmdStreamClose ∧
  mailboxCompletes .streamStatus 0x0804 anyForm cmdStreamStatus ∧
  mailboxCompletes .regSetMinimums 0x0900 anyForm cmdRegSetMinimums ∧
  mailboxCompletes .regSetShares 0x0901 anyForm cmdRegSetShares ∧
  mailboxCompletes .regSetWindow 0x0902 anyForm cmdRegSetWindow ∧
  mailboxCompletes .regSetLatencyTarget 0x0903 anyForm cmdRegSetLatencyTarget ∧
  mailboxCompletes .regQuery 0x0904 anyForm cmdRegQuery

/-- The commands of integrity, field test and observation (groups 0x0A to 0x0C) complete. -/
def Obligations.IntegrityTestObservationCommandsComplete : Prop :=
  mailboxCompletes .testPolicySet 0x0B00 anyForm cmdTestPolicySet ∧
  mailboxCompletes .testRunKernel 0x0B01 testKernel cmdTestRun ∧
  mailboxCompletes .testRunRound 0x0B01 testRound cmdTestRun ∧
  mailboxCompletes .testRunRequalify 0x0B01 testRequalify cmdTestRun ∧
  mailboxCompletes .testReport 0x0B02 anyForm cmdTestReport ∧
  mailboxCompletes .unitStateQuery 0x0B03 anyForm cmdUnitStateQuery ∧
  mailboxCompletes .counterConfig 0x0C00 anyForm cmdCounterConfig ∧
  mailboxCompletes .counterFreeze 0x0C01 freezeForm cmdCounterFreeze ∧
  mailboxCompletes .counterThaw 0x0C01 (actionIs 1 1) cmdCounterFreeze ∧
  mailboxCompletes .counterThawZero 0x0C01 (actionIs 1 2) cmdCounterFreeze ∧
  mailboxCompletes .counterRead 0x0C02 anyForm cmdCounterRead ∧
  mailboxCompletes .traceConfig 0x0C03 anyForm cmdTraceConfig ∧
  mailboxCompletes .traceArm 0x0C04 armForm cmdTraceArm ∧
  mailboxCompletes .traceStop 0x0C04 (actionIs 0 1) cmdTraceStop ∧
  mailboxCompletes .traceManualTrigger 0x0C04 (actionIs 0 2) cmdTraceTrigger ∧
  mailboxCompletes .traceMarker 0x0C04 (actionIs 0 3) cmdTraceMarker ∧
  mailboxCompletes .traceRead 0x0C05 anyForm cmdTraceRead ∧
  mailboxCompletes .hangRingEnable 0x0C06 anyForm cmdHangRingEnable ∧
  mailboxCompletes .dumpRead 0x0C07 anyForm cmdDumpRead ∧
  mailboxCompletes .dumpTensor 0x0C08 anyForm cmdDumpTensor ∧
  mailboxCompletes .poisonQuery 0x0A04 anyForm cmdPoisonQuery ∧
  mailboxCompletes .scrub 0x0A00 anyForm cmdScrub ∧
  mailboxCompletes .errorLogRead 0x0A01 anyForm cmdErrorLogRead ∧
  mailboxCompletes .errorLogClear 0x0A02 anyForm cmdErrorLogClear ∧
  mailboxCompletes .setMirror 0x0A03 anyForm cmdSetMirror

/-- The commands of the fabric (group 0x0D) complete; those that ask another module wait for its answer. -/
def Obligations.FabricCommandsComplete : Prop :=
  mailboxCompletes .fabDiscover 0x0D00 anyForm cmdFabDiscover ∧
  mailboxCompletes .fabSetId 0x0D01 anyForm cmdFabSetId ∧
  mailboxCompletes .fabLoadRoutes 0x0D02 anyForm cmdFabLoadRoutes ∧
  mailboxCompletes .ftcSyncRootNow 0x0D05 (fun a => slotArg a 0 1 = 0) cmdFtcSync ∧
  mailboxCompletes .ftcSyncRootSideband 0x0D05 (fun a => slotArg a 0 1 = 1) cmdFtcSync ∧
  mailboxCompletes .ftcSyncMeasure 0x0D05 (fun a => decide (2 ≤ slotArg a 0 1)) cmdFtcSync ∧
  mailboxCompletes .fabQuery 0x0D06 anyForm cmdFabQuery ∧
  mailboxCompletes .joinMember 0x0D03 (joinForm 0) cmdJoinMember ∧
  mailboxCompletes .joinAccessor 0x0D03 (joinForm 1) cmdJoinAccessor ∧
  mailboxCompletes .fabRegionLeave 0x0D03 (joinForm 2) cmdFabRegionLeave ∧
  mailboxCompletes .fabRegionExport 0x0D03 (joinForm 3) cmdFabRegionExport ∧
  mailboxCompletes .fabRegionUnexport 0x0D03 (joinForm 4) cmdFabRegionUnexport ∧
  mailboxCompletes .takeRegistrar 0x0D03 (joinForm 5) cmdTakeRegistrar ∧
  mailboxCompletes .rehome 0x0D04 anyForm cmdRehome ∧
  mailboxCompletes .treeSet 0x0D03 (joinForm 6) cmdTreeSet ∧
  mailboxCompletes .treeClear 0x0D03 (joinForm 7) cmdTreeClear

/-- The commands of power, and GET_MEASUREMENTS, complete (groups 0x0E and 0x0F). -/
def Obligations.PowerAndMeasurementCommandsComplete : Prop :=
  mailboxCompletes .getMeasurements 0x0F06 anyForm cmdGetMeasurements ∧
  mailboxCompletes .powerSetLimit 0x0E02 anyForm cmdPowerSetLimit ∧
  mailboxCompletes .telemetryRead 0x0E03 anyForm cmdTelemetryRead ∧
  mailboxCompletes .powerSetRung 0x0E00 anyForm cmdPowerSetRung ∧
  mailboxCompletes .powerQuery 0x0E01 anyForm cmdPowerQuery

/-- A signed command that is admitted and answers OK or ACCEPTED puts that answer into its channel and leaves the fuses as it burns
them; while its object is still being read, it leaves the state that the reading makes. -/
def Sys2Proof.signedCompletes (row : ChanNo → Instr) (op : Nat) (cmd : Req → Fuses → Mod → (Fuses × Mod) × Reply) : Prop :=
  ∀ (s : State) (ch : ChanNo) (c : Chan) (fl : InFlight) (fz : Fuses) (m : Mod) (rep : Reply),
    s.mach.servable ch.toNat op anyForm = some (c, fl) →
    (s.mach.start ch.toNat).turnedAway ((s.mach.start ch.toNat).reqOf s.fuses ch.toNat c fl) = none →
    cmd ((s.mach.start ch.toNat).reqOf s.fuses ch.toNat c fl) s.fuses (s.mach.start ch.toNat) = ((fz, m), rep) →
    (rep.status = .ok ∨ rep.status = .accepted → exec (row ch) s =
      .next { s with mach := ((m.post ch.toNat rep).serveUnknown m.gaffer.order.length).settle, fuses := fz }) ∧
    (rep.status = .pending → exec (row ch) s = .next { s with mach := m.settle, fuses := fz })

/-- The commands that carry a signed object (R586) complete. -/
def Obligations.SignedCommandsComplete : Prop :=
  signedCompletes .fwUpdate 0x0F00 cmdFwUpdate ∧
  signedCompletes .fwActivateNextReset 0x0F01 (cmdFwActivate 0) ∧
  signedCompletes .fwActivateNow 0x0F01 (cmdFwActivate 1) ∧
  signedCompletes .fwActivateRevert 0x0F01 (cmdFwActivate 2) ∧
  signedCompletes .lifecycleSet 0x0F02 cmdLifecycleSet ∧
  signedCompletes .debugUnlock 0x0F03 cmdDebugUnlock ∧
  signedCompletes .ownerKeyInstall 0x0F04 cmdOwnerKeyInstall ∧
  signedCompletes .managerListSet 0x0F05 cmdManagerListSet

/-! ### The mailboxes of the host and of the fabric manager (chapter 14) -/

/-- A register access by a host LD to a function gets an answer from the module (R44, R440, R459, R584). -/
def Sys2Proof.hostReaches (m : Mod) (ld : LdId) (fn : Nat) : Prop := m.gafferDead = false ∧ m.presented ld.toNat = true ∧ m.blocked ld.toNat fn = false

/-- The command of the primary mailbox answers Success, and bit 0 of the interrupt status of function 0 is set. -/
def Sys2Proof.primaryCompletes (row : Instr) (ld : LdId) (early : Bool) (answer : Mod → Answer) : Prop :=
  ∀ (s : State) (m : Mod) (bytes : List Byte), hostReaches s.mach ld 0 →
    (early = true ∨ ((s.mach.hostTraffic ld.toNat).ld ld.toNat).memoryActive = true) →
    answer (s.mach.hostTraffic ld.toNat) = (m, "Success", bytes) →
    exec row s = .next (s.after ((m.send (.mbox ld.toNat "Success" bytes)).setIntx ld.toNat 0 1))

/-- Every command of an LD's primary mailbox completes with Success wherever its own checks pass. -/
def Obligations.PrimaryMailboxCompletes : Prop :=
  (∀ (ld : LdId), primaryCompletes (.identifyMemoryDevice ld) ld true ansIdentifyMemoryDevice) ∧
  (∀ (ld : LdId), primaryCompletes (.getSupportedLogs ld) ld true ansGetSupportedLogs) ∧
  (∀ (ld : LdId) (input : List Byte), primaryCompletes (.getLog ld input) ld true (ansGetLog input)) ∧
  (∀ (ld : LdId) (input : List Byte), primaryCompletes (.getEventRecords ld input) ld false (ansGetEventRecords ld input)) ∧
  (∀ (ld : LdId) (input : List Byte), primaryCompletes (.clearEventRecords ld input) ld false (ansClearEventRecords ld input)) ∧
  (∀ (ld : LdId), primaryCompletes (.getEventInterruptPolicy ld) ld false ansGetEventInterruptPolicy) ∧
  (∀ (ld : LdId) (input : List Byte), primaryCompletes (.setEventInterruptPolicy ld input) ld false (ansSetEventInterruptPolicy input)) ∧
  (∀ (ld : LdId) (input : List Byte), primaryCompletes (.getPoisonList ld input) ld false (ansGetPoisonList ld input)) ∧
  (∀ (ld : LdId), primaryCompletes (.getTimestamp ld) ld false (ansGetTimestamp ld)) ∧
  (∀ (ld : LdId) (input : List Byte), primaryCompletes (.setTimestamp ld input) ld false (ansSetTimestamp ld input)) ∧
  (∀ (ld : LdId) (input : List Byte), primaryCompletes (.getDynamicCapacityConfiguration ld input) ld false (ansGetDynamicCapacityConfiguration input)) ∧
  (∀ (ld : LdId) (input : List Byte), primaryCompletes (.getDynamicCapacityExtentList ld input) ld false (ansGetDynamicCapacityExtentList ld input)) ∧
  (∀ (ld : LdId) (extents : List Nat), primaryCompletes (.addDynamicCapacityResponse ld extents) ld false (ansAddDynamicCapacityResponse ld extents)) ∧
  (∀ (ld : LdId) (extents : List Nat), primaryCompletes (.releaseDynamicCapacity ld extents) ld false (ansReleaseDynamicCapacity ld extents))

/-- A command of the fabric management API has no effect but its answer, Unsupported, where its sender does not use MCTP or is not on the
manager list (R190), and Retry Required from a manager while the module is BOOTING, where that command asks for more than identity. -/
def Sys2Proof.fmTurnedAway (row : Owner → Instr) (identity : Bool) : Prop :=
  ∀ (s : State) (who : Owner), reaches s.mach who →
    ((∀ medium eid, who ≠ .mctp medium eid) ∨ (linked s.mach who).isManager who = false →
      exec (row who) s = .next (s.after ((linked s.mach who).send (.fmApi who "Unsupported" [])))) ∧
    (∀ medium eid, who = .mctp medium eid → s.mach.isManager who = true → identity = false → s.mach.boot.readiness = .booting →
      exec (row who) s = .next (s.after (s.mach.send (.fmApi who "Retry Required" []))))

/-- A command of the fabric management API from an endpoint of the manager list that reaches the module completes with Success and its
payload: GET_LD_INFO and GET_LD_ALLOCATIONS always, and once the module is no longer BOOTING the queries of the dynamic capacity always,
SET_DC_REGION_CONFIGURATION for the one configuration there is, and an add and a release wherever their checks pass.
SET_LD_ALLOCATIONS is Unsupported (R435). From anyone else each of them is Unsupported and has no effect (R190). -/
def Obligations.FabricManagerCommandsComplete : Prop :=
  (∀ (s : State) (medium : BitVec 3) (eid : Byte), reaches s.mach (.mctp medium eid) → s.mach.isManager (.mctp medium eid) = true →
    exec (.getLdInfo (.mctp medium eid)) s =
      .next (s.after (s.mach.send (.fmApi (.mctp medium eid) "Success" (le 8 (2 ^ 48) ++ le 2 16 ++ le 1 0)))) ∧
    exec (.getLdAllocations (.mctp medium eid)) s = .next (s.after (s.mach.send (.fmApi (.mctp medium eid) "Success"
      (le 1 16 ++ le 1 0 ++ le 1 16 ++ le 1 0 ++ (List.range 16).flatMap (fun _ => le 8 (2 ^ 20) ++ le 8 0)))))) ∧
  (∀ (s : State) (medium : BitVec 3) (eid : Byte), reaches s.mach (.mctp medium eid) → s.mach.isManager (.mctp medium eid) = true →
    s.mach.boot.readiness ≠ .booting →
    exec (.getDcdInfo (.mctp medium eid)) s = .next (s.after (s.mach.send (.fmApi (.mctp medium eid) "Success"
      (le 1 64 ++ le 1 1 ++ le 2 0 ++ le 2 7 ++ le 2 0 ++ le 2 4 ++ le 1 0 ++ le 1 1 ++ le 8 (2 ^ 20) ++ le 8 (2 ^ 28))))) ∧
    (∀ ld : LdId, exec (.getHostDcRegionConfiguration (.mctp medium eid) ld) s = .next (s.after (s.mach.send (.fmApi (.mctp medium eid) "Success"
      (le 2 ld.toNat ++ le 1 1 ++ le 1 1 ++ le 4 0 ++ dcRegion))))) ∧
    exec (.setDcRegionConfiguration (.mctp medium eid) 0 (2 ^ 28) (2 ^ 48) 0) s = .next (s.after (s.mach.send (.fmApi (.mctp medium eid) "Success" []))) ∧
    (∀ region blockSize length base : Nat, ¬ (region = 0 ∧ blockSize = 2 ^ 28 ∧ length = 2 ^ 48 ∧ base = 0) →
      exec (.setDcRegionConfiguration (.mctp medium eid) region blockSize length base) s =
        .next (s.after (s.mach.send (.fmApi (.mctp medium eid) "Invalid Input" [])))) ∧
    (∀ (ld : LdId) (held pend : List (Nat × Extent)), held = s.mach.mem.extents.filter (fun e => e.2.heldLds.contains ld.toNat) →
      pend = s.mach.mem.extents.filter (fun e => e.2.pendingLds.contains ld.toNat) →
      exec (.getDcdExtentLists (.mctp medium eid) ld) s = .next (s.after (s.mach.send (.fmApi (.mctp medium eid) "Success"
        (le 2 ld.toNat ++ le 2 0 ++ le 4 held.length ++ le 4 pend.length ++ held.flatMap extentBytes ++ pend.flatMap extentBytes))))) ∧
    (∀ input : List Byte, exec (.setLdAllocations (.mctp medium eid) input) s =
      .next (s.after (s.mach.send (.fmApi (.mctp medium eid) "Unsupported" []))))) ∧
  (∀ (s : State) (medium : BitVec 3) (eid : Byte) (ld : LdId) (policy : AddPolicy) (count : Nat) (dpas : List Nat) (tag : Nat) (es : List Nat) (m : Mod),
    reaches s.mach (.mctp medium eid) → s.mach.isManager (.mctp medium eid) = true → s.mach.boot.readiness ≠ .booting →
    (policy = .prescriptive ∧ dpas.any (fun a => a % 2 ^ 28 ≠ 0) = false ∧ es = dpas.map (· / 2 ^ 28) ∨
      policy = .free ∧ count ≠ 0 ∧ s.mach.chooseExtents ld.toNat false count = some es ∨
      policy = .contiguous ∧ count ≠ 0 ∧ s.mach.chooseExtents ld.toNat true count = some es) →
    es ≠ [] → es.eraseDups.length = es.length → es.any (s.mach.addInvalid ld.toNat) = false →
    ((s.mach.ld ld.toNat).eventLogs.getD 4 []).length < 64 →
    (((s.mach.offer ld.toNat es tag).mem.extents.filter (fun e => e.2.pendingLds != [] || e.2.heldLds != [] || e.2.kept != none)).length) ≤
      (if s.mach.mem.mapInT0 then 524288 else 1048576) →
    (s.mach.offer ld.toNat es tag).reserveMap = some m →
    es.any (fun e => (Tbl.find s.mach.mem.extents e).elim false (fun x => x.inCullet)) = false →
    exec (.initiateDynamicCapacityAdd (.mctp medium eid) ld policy count dpas tag) s =
      .next (s.after (m.send (.fmApi (.mctp medium eid) "Success" (le 4 es.length ++ es.flatMap (fun e => le 8 (e * 2 ^ 28))))))) ∧
  (∀ (s : State) (medium : BitVec 3) (eid : Byte) (ld : LdId) (forced : Bool) (dpas es : List Nat) (held pends : Mod → Nat → Bool),
    reaches s.mach (.mctp medium eid) → s.mach.isManager (.mctp medium eid) = true → s.mach.boot.readiness ≠ .booting →
    es = dpas.map (· / 2 ^ 28) → es ≠ [] → dpas.any (fun a => a % 2 ^ 28 ≠ 0) = false → es.eraseDups.length = es.length →
    held = (fun m e => (Tbl.find m.mem.extents e).elim false (fun x => x.heldLds.contains ld.toNat)) →
    pends = (fun m e => (Tbl.find m.mem.extents e).elim false (fun x => x.pendingLds.contains ld.toNat)) →
    es.any (fun e => !held s.mach e && !(forced && pends s.mach e)) = false →
    (forced = false → exec (.initiateDynamicCapacityRelease (.mctp medium eid) ld forced dpas) s = .next (s.after
      (s.mach.send (.fmApi (.mctp medium eid) "Success" [])))) ∧
    (forced = true → exec (.initiateDynamicCapacityRelease (.mctp medium eid) ld forced dpas) s = .next (s.after
      (((s.mach.each es (fun m e => if held m e then m.forceRemoval ld.toNat e else if pends m e then m.unpend ld.toNat e else m)).eventLog ld.toNat 4
        (dcRecord 2 ld.toNat es 0)).send (.fmApi (.mctp medium eid) "Success" []))))) ∧
  fmTurnedAway .getDcdInfo false ∧
  (∀ ld : LdId, fmTurnedAway (fun w => .getHostDcRegionConfiguration w ld) false ∧ fmTurnedAway (fun w => .getDcdExtentLists w ld) false) ∧
  (∀ region blockSize length base : Nat, fmTurnedAway (fun w => .setDcRegionConfiguration w region blockSize length base) false) ∧
  (∀ (ld : LdId) (policy : AddPolicy) (count : Nat) (dpas : List Nat) (tag : Nat),
    fmTurnedAway (fun w => .initiateDynamicCapacityAdd w ld policy count dpas tag) false) ∧
  (∀ (ld : LdId) (forced : Bool) (dpas : List Nat), fmTurnedAway (fun w => .initiateDynamicCapacityRelease w ld forced dpas) false) ∧
  fmTurnedAway .getLdInfo true ∧ fmTurnedAway .getLdAllocations true ∧
  (∀ input : List Byte, fmTurnedAway (fun w => .setLdAllocations w input) false)

/-- DOE Discovery and CDAT table access answer with their objects; an SPDM message gets the answer of the root of trust, be
it an ERROR, on the path it came by. -/
def Obligations.DoeAndSpdmComplete : Prop :=
  (∀ (s : State) (ld : LdId) (index : Byte), s.mach.presented ld.toNat = true → (s.mach.ld ld.toNat).f0.reset = 0 →
    exec (.doeDiscovery ld index) s = .next (s.after ((s.mach.hostTraffic ld.toNat).send (.doe ld.toNat
      (doeObject 1 0 (le 2 (doeProtocols.getD index.toNat (0xFFFF, 0xFF)).1 ++ le 1 (doeProtocols.getD index.toNat (0xFFFF, 0xFF)).2 ++
        le 1 (if index.toNat < 3 then index.toNat + 1 else 0))) false)))) ∧
  (∀ (s : State) (ld : LdId) (entry : BitVec 16) (e : List Byte), s.mach.presented ld.toNat = true → (s.mach.ld ld.toNat).f0.reset = 0 →
    (cdatEntries ((s.mach.hostTraffic ld.toNat).port (ld.toNat / 16)).rate ((s.mach.hostTraffic ld.toNat).port (ld.toNat / 16)).width)[entry.toNat]? = some e →
    exec (.cxlTableAccess ld entry) s = .next (s.after ((s.mach.hostTraffic ld.toNat).send (.doe ld.toNat
      (doeObject 0x1E98 2 (le 1 0 ++ le 1 0 ++ le 2 (if entry.toNat = 2 then 0xFFFF else entry.toNat + 1) ++ e)) false)))) ∧
  (∀ (s : State) (ld : LdId) (request : List Byte), s.mach.presented ld.toNat = true → (s.mach.ld ld.toNat).f0.reset = 0 →
    request.length + 8 ≤ 262144 →
    exec (.spdmMessage (.ld ld) .doe request) s = .next (s.after (((s.mach.hostTraffic ld.toNat).spdm (.ld ld) request).1.send
      (.doe ld.toNat (doeObject 1 1 ((s.mach.hostTraffic ld.toNat).spdm (.ld ld) request).2) false)))) ∧
  (∀ (s : State) (medium : BitVec 3) (eid : Byte) (request : List Byte), reaches s.mach (.mctp medium eid) →
    exec (.spdmMessage (.mctp medium eid) .mctp request) s = .next (s.after ((s.mach.spdm (.mctp medium eid) request).1.send
      (.spdm (.mctp medium eid) (s.mach.spdm (.mctp medium eid) request).2)))) ∧
  (∀ (s : State) (port : BitVec 4) (request : List Byte), (s.mach.fport port.toNat).linked = true →
    exec (.spdmMessage (.neighbour port) .key request) s = .next (s.after ((s.mach.spdm (.neighbour port) request).1.send
      (.spdm (.neighbour port) (s.mach.spdm (.neighbour port) request).2))))

/-! ### Packets of the fabric (chapters 9 and 10) -/

/-- A packet of the operation for this module is the next of its kind at the port; `m1` is the module once it has been taken. -/
def Sys2Proof.arrives (m : Mod) (port : BitVec 4) (op : Nat) (q : Packet) (m1 : Mod) : Prop :=
  m.take port.toNat (fun q => q.op = op) = some (q, m1)

/-- A VERSION_OP of the operation for a region that this module has joined is the next of its kind at the port. -/
def Sys2Proof.vopArrives (m : Mod) (port : BitVec 4) (op : Nat) (q : Packet) (f : FabRegion) (m1 : Mod) : Prop :=
  m.take port.toNat (fun q => q.op = 0x19 && q.vop = op) = some (q, m1) ∧ Tbl.find m1.fm.regions q.fregion = some f

/-- The same at the registrar of the region. -/
def Sys2Proof.registrarGets (m : Mod) (port : BitVec 4) (op : Nat) (q : Packet) (f : FabRegion) (g : Region) (m1 : Mod) : Prop :=
  vopArrives m port op q f m1 ∧ Tbl.find m1.mem.regions f.localRegion = some g ∧ f.registrar = m1.fab.deviceId

/-- Requests of other modules for memory that this module homes are served: reads answer with the line or the tile, writes enter the
write path, and no NACK and no REDIRECT is sent in their place. -/
def Obligations.RemoteAccessesComplete : Prop :=
  (∀ (s : State) (port : BitVec 4) (check : Media) (q : Packet) (m1 m2 : Mod) (r pane : Nat) (sel : VerSel), arrives s.mach port 0x10 q m1 →
    bit q.refFlags 1 = false → m1.atHome q (q.index / 1024) false = (m2, some (r, sel, pane)) → (m2.accessLost r sel pane).1 = false →
    exec (.lineRd port check) s = .next (s.after (m2.remoteLine q.flow q.src q.tag q.srcPart r sel pane (q.index % 1024) check))) ∧
  (∀ (s : State) (port : BitVec 4) (check : Media) (q : Packet) (m1 m2 : Mod) (r pane off : Nat), arrives s.mach port 0x10 q m1 →
    bit q.refFlags 1 = true → m1.absHome q port.toNat false = (m2, some (r, pane, off)) → (m2.accessLost r .head pane).1 = false →
    exec (.lineRd port check) s = .next (s.after (m2.remoteLine q.flow q.src q.tag q.srcPart r .head pane (off / 64) check))) ∧
  (∀ (s : State) (port : BitVec 4) (check : Media) (q : Packet) (m1 m2 : Mod) (r pane : Nat) (sel : VerSel), arrives s.mach port 0x12 q m1 →
    bit q.refFlags 1 = false → m1.atHome q (q.index / 32) false = (m2, some (r, sel, pane)) → (m2.accessLost r sel pane).1 = false →
    exec (.tileRd port check) s = .next (s.after (m2.remoteTile q.flow q.src q.tag q.srcPart r sel pane (q.index % 32) (bit q.refFlags 0) (bit q.refFlags 2)
      (bit q.refFlags 3) check))) ∧
  (∀ (s : State) (port : BitVec 4) (check : Media) (q : Packet) (m1 m2 : Mod) (r pane off : Nat), arrives s.mach port 0x12 q m1 →
    bit q.refFlags 1 = true → m1.absHome q port.toNat false = (m2, some (r, pane, off)) → (m2.accessLost r .head pane).1 = false →
    exec (.tileRd port check) s = .next (s.after (m2.remoteTile q.flow q.src q.tag q.srcPart r .head pane (off / 2048) (bit q.refFlags 0) (bit q.refFlags 2)
      (bit q.refFlags 3) check))) ∧
  (∀ (s : State) (port : BitVec 4) (q : Packet) (m1 m2 : Mod) (r pane : Nat) (sel : VerSel) (g : Region), arrives s.mach port 0x11 q m1 →
    bit q.refFlags 1 = false → m1.atHome q (q.index / 1024) true = (m2, some (r, sel, pane)) → m2.writesStopped = false →
    Tbl.find m2.mem.regions r = some g → (g.versioning = false ∨ ∃ k, sel = .part k) →
    exec (.lineWr port) s = .next (s.after (m2.submit {
      src := .remote q.flow q.src q.tag q.srcPart, region := r, sel := sel, pane := pane,
      offset := q.index % 1024 * 64, bytes := ((q.payload.drop 32) ++ List.replicate 64 0).take 64, enable := [], poisoned := q.poison, wait := .frame }))) ∧
  (∀ (s : State) (port : BitVec 4) (q : Packet) (m1 m2 : Mod) (r pane off : Nat) (g : Region), arrives s.mach port 0x11 q m1 →
    bit q.refFlags 1 = true → m1.absHome q port.toNat true = (m2, some (r, pane, off)) → m2.writesStopped = false →
    Tbl.find m2.mem.regions r = some g → g.versioning = false →
    exec (.lineWr port) s = .next (s.after (m2.submit {
      src := .remote q.flow q.src q.tag q.srcPart, region := r, sel := .head, pane := pane,
      offset := off / 64 * 64, bytes := ((q.payload.drop 32) ++ List.replicate 64 0).take 64, enable := [], poisoned := q.poison, wait := .frame }))) ∧
  (∀ (s : State) (port : BitVec 4) (q : Packet) (m1 m2 : Mod) (r pane : Nat) (sel : VerSel) (g : Region), arrives s.mach port 0x13 q m1 →
    bit q.refFlags 1 = false → m1.atHome q (q.index / 32) true = (m2, some (r, sel, pane)) → m2.writesStopped = false →
    Tbl.find m2.mem.regions r = some g → (g.versioning = false ∨ ∃ k, sel = .part k) →
    exec (.tileWr port) s = .next (s.after (m2.submit {
      src := .remote q.flow q.src q.tag q.srcPart, region := r, sel := sel, pane := pane,
      offset := q.index % 32 * 2048, bytes := (m1.writtenTile q).1, enable := [], poisoned := (m1.writtenTile q).2, wait := .frame }))) ∧
  (∀ (s : State) (port : BitVec 4) (q : Packet) (m1 m2 : Mod) (r pane off : Nat) (g : Region), arrives s.mach port 0x13 q m1 →
    bit q.refFlags 1 = true → m1.absHome q port.toNat true = (m2, some (r, pane, off)) → m2.writesStopped = false →
    Tbl.find m2.mem.regions r = some g → g.versioning = false →
    exec (.tileWr port) s = .next (s.after (m2.submit {
      src := .remote q.flow q.src q.tag q.srcPart, region := r, sel := .head, pane := pane,
      offset := off / 2048 * 2048, bytes := (m1.writtenTile q).1, enable := [], poisoned := (m1.writtenTile q).2, wait := .frame })))

/-- The answers to this module's requests take the request they answer off the list, count the member as reached, and go to who asked. -/
def Obligations.RemoteAnswersComplete : Prop :=
  (∀ (s : State) (port : BitVec 4) (p : Packet) (m1 : Mod) (q : RemoteReq) (l tag : Nat), arrives s.mach port 0x14 p m1 →
    m1.requestOf p.tag = some q → q.device = p.src → q.kind = 0 → q.src = .host l tag →
    exec (.lineData port) s = .next (s.after (((m1.settleRequest p.tag).reached p.src).hostData l tag q.context q.address
      (if p.poison then none else some ((p.payload ++ List.replicate 64 0).take 64))))) ∧
  (∀ (s : State) (port : BitVec 4) (p : Packet) (m1 : Mod) (q : RemoteReq), arrives s.mach port 0x15 p m1 → m1.requestOf p.tag = some q →
    q.device = p.src → exec (.tileData port) s = .next (s.after (((m1.settleRequest p.tag).reached p.src).tileArrived q p))) ∧
  (∀ (s : State) (port : BitVec 4) (p : Packet) (m1 : Mod) (q : RemoteReq), arrives s.mach port 0x16 p m1 → m1.requestOf p.tag = some q →
    q.device = p.src → exec (.wrAck port) s = .next (s.after (((m1.settleRequest p.tag).reached p.src).writeAcked q))) ∧
  (∀ (s : State) (port : BitVec 4) (p : Packet) (m1 : Mod) (q : RemoteReq), arrives s.mach port 0x17 p m1 → m1.requestOf p.tag = some q →
    q.device = p.src → exec (.redirect port) s =
      .next (s.after ((((m1.settleRequest p.tag).reached p.src).installEntry p.fregion (p.num 4 4) (p.num 0 4) (p.num 8 8)).resend q))) ∧
  (∀ (s : State) (port : BitVec 4) (p : Packet) (m1 : Mod) (q : RemoteReq), arrives s.mach port 0x1F p m1 → m1.requestOf p.tag = some q →
    q.device = p.src → exec (.nack port) s = .next (s.after (((m1.settleRequest p.tag).reached p.src).requestFailed q (p.num 0 1)))) ∧
  (∀ (s : State) (port : BitVec 4) (p : Packet) (m1 : Mod) (q : RemoteReq), arrives s.mach port 0x03 p m1 → m1.requestOf p.tag = some q →
    exec (.unreachable port) s = .next (s.after (((m1.settleRequest p.tag).memberLost q.device).requestFailed q 0))) ∧
  (∀ (s : State) (port : BitVec 4) (p : Packet) (m1 : Mod) (w : VopWait), arrives s.mach port 0x1A p m1 → Tbl.find m1.fm.vops p.tag = some w →
    w.device = p.src → exec (.versionRsp port) s =
      .next (s.after (((m1.setFm (fun e => { e with vops := Tbl.del e.vops p.tag })).reached p.src).vopAnswered w p)))

/-- Messages and reductions: a message enters the inbox of its core, a refusal holds the flow, a free slot sends again what was
refused, a part enters its round, a result goes down the tree. -/
def Obligations.MessagesAndReductionsComplete : Prop :=
  (∀ (s : State) (port : BitVec 4) (p : Packet) (m1 : Mod) (v : Nat × Movement), arrives s.mach port 0x1D p m1 →
    (m1.core (p.flow % 4096)).movement.isSome = true → m1.runOf (p.flow % 4096) = some v →
    m1.fm.refused.contains (p.flow % 4096, p.src, p.flow) = false → p.num 4 4 = 0 → m1.unmatched (p.flow % 4096) < 16 →
    ((p.payload.drop 16).take (p.num 8 4)).length = p.num 8 4 →
    exec (.msg port) s = .next (s.after
      (((m1.setCore (p.flow % 4096) (fun k => { k with msgs := k.msgs ++ [{
          srcDevice := p.src, srcCore := p.num 0 2, tag := p.tag, data := (p.payload.drop 16).take (p.num 8 4), total := p.num 8 4 }] })).recvTrace (p.flow % 4096)
        { srcDevice := p.src, srcCore := p.num 0 2, tag := p.tag, data := (p.payload.drop 16).take (p.num 8 4), total := p.num 8 4 }).matchRecv
        (p.flow % 4096)))) ∧
  (∀ (s : State) (port : BitVec 4) (p : Packet) (m1 : Mod) (f : MsgFlow) (i : Nat), arrives s.mach port 0x04 p m1 →
    m1.fab.flows.find? (fun (f : MsgFlow) => f.dest = p.src && f.core = p.flow % 4096) = some f →
    (f.sentWith p.tag)[(m1.choose (f.sentWith p.tag).length).1]? = some i →
    exec (.msgRefused port) s = .next (s.after ((m1.choose (f.sentWith p.tag).length).2.setFab (fun e => { e with flows := e.flows.map (fun f =>
      if f.dest = p.src && f.core = p.flow % 4096 then f.refuse i else f) })))) ∧
  (∀ (s : State) (port : BitVec 4) (p : Packet) (m1 : Mod) (f : MsgFlow), arrives s.mach port 0x05 p m1 →
    m1.fab.flows.find? (fun (f : MsgFlow) => f.dest = p.src && f.core = p.flow % 4096) = some f →
    exec (.msgSlotFree port) s = .next (s.after ((m1.setFab (fun e => { e with flows := e.flows.map (fun x =>
        if x.dest = p.src && x.core = p.flow % 4096 then { x with held := false, msgs := x.msgs.map (fun y => (false, y.2)) } else x) })).each
      ((f.msgs.filter (fun x => x.1)).flatMap (fun x => x.2)) Mod.sendPacket))) ∧
  (∀ (s : State) (port : BitVec 4) (p : Packet) (m1 m2 : Mod) (t : Tree), s.mach.take port.toNat (fun q => q.op = 0x1B) = some (p, m1) →
    Tbl.find m1.fm.trees (p.num 0 4) = some t → t.children.contains p.src = true → t.dead.contains p.tag = false →
    m1.openRound (p.num 0 4) t p.tag = some m2 →
    exec (.reducePart port) s = .next (s.after ((m2.addPart (p.num 0 4) p.tag p.src (p.elements 4) p.poison).treeCheck (p.num 0 4) p.tag))) ∧
  (∀ (s : State) (port : BitVec 4) (p : Packet) (m1 : Mod) (t : Tree), arrives s.mach port 0x1C p m1 →
    Tbl.find m1.fm.trees (p.num 0 4) = some t → t.round p.tag = none →
    exec (.reduceResult port) s = .next (s.after (m1.each t.children (fun m d =>
      m.sendPacket (m.packetTo d 2 p.flow 0x1C p.tag p.payload 0 p.poison))))) ∧
  (∀ (s : State) (port : BitVec 4) (p : Packet) (m1 m2 : Mod) (t : Tree) (rd : TreeRound) (xs : List Nat) (bad : Bool), arrives s.mach port 0x1C p m1 →
    Tbl.find m1.fm.trees (p.num 0 4) = some t → t.round p.tag = some rd →
    m2 = (m1.each t.children (fun m d => m.sendPacket (m.packetTo d 2 p.flow 0x1C p.tag p.payload 0 p.poison))).addPart (p.num 0 4) p.tag
      131072 (p.elements t.width) p.poison →
    ((Tbl.find m2.fm.trees (p.num 0 4)).bind (fun t => t.round p.tag)).bind (fun r => Tbl.find r.got 131072) = some (xs, bad) →
    t.elements ≤ xs.length →
    exec (.reduceResult port) s = .next (s.after ((m2.endRound (p.num 0 4) p.tag).deliverResult (p.num 0 4) p.tag t.width (xs.take t.elements) bad)))

/-- The operations on versions of a fabric region are carried out by the registrar, or by a member where they come to members, and
answered OK. -/
def Obligations.VersionOperationsComplete : Prop :=
  (∀ (s : State) (port : BitVec 4) (q : Packet) (f : FabRegion) (g : Region) (m : Mod) (v : Nat), registrarGets s.mach port 0x01 q f g m →
    m.versionArg f.localRegion g q.arg0 = some v →
    exec (.vopOpenView port) s = .next (s.after ((m.setFreg q.fregion (fun f => { f with holders := f.holders ++
      [{ device := q.src, token := 0, version := v, working := false }] })).vopRsp q.src q.fregion q.tag .ok v []))) ∧
  (∀ (s : State) (port : BitVec 4) (q : Packet) (f : FabRegion) (g : Region) (m : Mod), registrarGets s.mach port 0x02 q f g m →
    exec (.vopCloseView port) s = .next (s.after ((m.setFreg q.fregion (fun f => { f with
      holders := removeOne (fun h => !h.working && h.device = q.src && h.version = q.arg0) f.holders })).vopRsp q.src q.fregion q.tag .ok q.arg0 []))) ∧
  (∀ (s : State) (port : BitVec 4) (q : Packet) (f : FabRegion) (g : Region) (m : Mod) (v : Nat), registrarGets s.mach port 0x03 q f g m →
    g.versioning = true → m.versionArg f.localRegion g q.arg0 = some v →
    exec (.vopOpenWorking port) s = .next (s.after ((m.setFreg q.fregion (fun f => { f with holders := f.holders ++
      [{ device := q.src, token := q.wctx, version := v, working := true }] })).vopRsp q.src q.fregion q.tag .ok v []))) ∧
  (∀ (s : State) (port : BitVec 4) (q : Packet) (f : FabRegion) (g : Region) (m : Mod), registrarGets s.mach port 0x04 q f g m →
    exec (.vopPublish port) s = .next (s.after (m.queueSeal q true))) ∧
  (∀ (s : State) (port : BitVec 4) (q : Packet) (f : FabRegion) (g : Region) (m : Mod), registrarGets s.mach port 0x05 q f g m →
    (q.arg0 = 0xFFFFFFFE → exec (.vopCheckpoint port) s = .next (s.after (m.queueSeal q false))) ∧
    (q.arg0 ≠ 0xFFFFFFFE → g.versioning = true →
      exec (.vopCheckpoint port) s = .next (s.after (((m.headCheckpoint f.localRegion g (q.src = m.fab.deviceId)).each (f.others m.fab.deviceId)
        (fun m d => m.tellVop d q.fregion 0x05 g.head 0 q.src 0 0)).vopRsp q.src q.fregion q.tag .ok g.head [])))) ∧
  (∀ (s : State) (port : BitVec 4) (q : Packet) (f : FabRegion) (g : Region) (m : Mod), vopArrives s.mach port 0x05 q f m →
    Tbl.find m.mem.regions f.localRegion = some g → f.registrar ≠ m.fab.deviceId → f.registrar = q.src → q.arg0 = 0 →
    exec (.vopCheckpoint port) s = .next (s.after
      ((m.headCheckpoint f.localRegion g (q.origin = m.fab.deviceId)).vopRsp q.src q.fregion q.tag .ok g.head []))) ∧
  (∀ (s : State) (port : BitVec 4) (q : Packet) (f : FabRegion) (m : Mod), vopArrives s.mach port 0x06 q f m →
    f.registrar ≠ m.fab.deviceId →
    exec (.vopDiscardWorking port) s = .next (s.after ((m.discardPart q.fregion q.key).vopRsp q.src q.fregion q.tag .ok 0 []))) ∧
  (∀ (s : State) (port : BitVec 4) (q : Packet) (f : FabRegion) (m : Mod), vopArrives s.mach port 0x06 q f m →
    f.registrar = m.fab.deviceId →
    exec (.vopDiscardWorking port) s = .next (s.after ((((m.discardPart q.fregion q.key).setFreg q.fregion (fun f =>
        { f with holders := f.holders.filter (fun h => !(h.working && h.device = q.origin && h.token = q.wctx)) })).each
      (f.others m.fab.deviceId) (fun m d => m.tellVop d q.fregion 0x06 0xFFFFFFFE q.wctx q.origin 0 0)).vopRsp q.src q.fregion q.tag .ok 0 []))) ∧
  (∀ (s : State) (port : BitVec 4) (q : Packet) (f : FabRegion) (g : Region) (m : Mod) (v : Nat), registrarGets s.mach port 0x07 q f g m →
    q.arg0 ≠ 0xFFFFFFFF → m.versionArg f.localRegion g q.arg0 = some v →
    exec (.vopVersionRelease port) s = .next (s.after ((m.releaseVersion f.localRegion v).vopRsp q.src q.fregion q.tag .ok v []))) ∧
  (∀ (s : State) (port : BitVec 4) (q : Packet) (f : FabRegion) (g : Region) (m : Mod), registrarGets s.mach port 0x08 q f g m →
    exec (.vopVersionList port) s = .next (s.after (m.vopRsp q.src q.fregion q.tag .ok g.head
      (m.versionList f.localRegion g q.arg0 (fun v => (f.holders.filter (fun h => !h.working && h.version = v)).length))))) ∧
  (∀ (s : State) (port : BitVec 4) (q : Packet) (f : FabRegion) (m : Mod), vopArrives s.mach port 0x10 q f m →
    exec (.sealPrepare port) s = .next (s.after ((m.sealPrepare q.fregion q.arg0 q.key).vopRsp q.src q.fregion q.tag .ok q.arg0 []))) ∧
  (∀ (s : State) (port : BitVec 4) (q : Packet) (f : FabRegion) (m : Mod), vopArrives s.mach port 0x11 q f m →
    exec (.sealCommit port) s = .next (s.after ((m.sealApply q.fregion q.arg0 (bit q.vopFlags 0)).vopRsp q.src q.fregion q.tag .ok q.arg0 []))) ∧
  (∀ (s : State) (port : BitVec 4) (q : Packet) (f : FabRegion) (m : Mod), vopArrives s.mach port 0x12 q f m →
    exec (.sealAbort port) s = .next (s.after ((m.sealAbort q.fregion q.arg0).vopRsp q.src q.fregion q.tag .ok q.arg0 []))) ∧
  (∀ (s : State) (port : BitVec 4) (q : Packet) (f : FabRegion) (m : Mod), vopArrives s.mach port 0x13 q f m →
    exec (.versionFree port) s = .next (s.after ((m.freeVersion f.localRegion q.arg0).vopRsp q.src q.fregion q.tag .ok q.arg0 [])))

/-- The operations on the map of a fabric region and on its homes are carried out and answered. -/
def Obligations.MapOperationsComplete : Prop :=
  (∀ (s : State) (port : BitVec 4) (q : Packet) (m : Mod), arrives s.mach port 0x18 q m → Tbl.has m.fm.joins q.fregion = false →
    exec (.mapUpdate port) s = .next (s.after ((m.each q.mapRecords (fun m x => m.installMap q.fregion (q.num 0 4) x.1 x.2)).setFreg q.fregion
      (fun f => { f with registrar := q.src })))) ∧
  (∀ (s : State) (port : BitVec 4) (q : Packet) (f : FabRegion) (g : Region) (m : Mod), registrarGets s.mach port 0x18 q f g m →
    (q.vopData.drop 2).take 5 = g.joinAttrs →
    exec (.join port) s = .next (s.after ((m.setFreg q.fregion (fun f =>
      { f with members := if f.members.contains q.src then f.members else f.members ++ [q.src] })).sendWholeMap q f g.head))) ∧
  (∀ (s : State) (port : BitVec 4) (q : Packet) (f : FabRegion) (m : Mod), vopArrives s.mach port 0x19 q f m → f.registrar = m.fab.deviceId →
    exec (.mapFetch port) s = .next (s.after ((m.setFreg q.fregion (fun f =>
      { f with accessors := if f.accessors.contains q.src then f.accessors else f.accessors ++ [q.src] })).sendWholeMap q f
        ((Tbl.find m.mem.regions f.localRegion).elim 0 (fun g => g.head))))) ∧
  (∀ (s : State) (port : BitVec 4) (q : Packet) (f : FabRegion) (m : Mod), vopArrives s.mach port 0x1A q f m → f.accessor = false →
    exec (.registrarQuery port) s = .next (s.after (m.vopRsp q.src q.fregion q.tag .ok 0 (le 4 f.stripeGen ++
      le 4 ((Tbl.find m.mem.regions f.localRegion).elim 0 (fun g => g.head)) ++
      le 4 ((Tbl.find m.mem.regions f.localRegion).elim 0 (fun g => g.nextVersion - 1)))))) ∧
  (∀ (s : State) (port : BitVec 4) (q : Packet) (f : FabRegion) (g : Region) (m : Mod), registrarGets s.mach port 0x1B q f g m →
    f.stripe.any (fun e => e.2.home = q.src) = false →
    exec (.leave port) s = .next (s.after ((m.setFreg q.fregion (fun f => { f with
      members := f.members.filter (fun d => d != q.src),
      accessors := f.accessors.filter (fun d => d != q.src), holders := f.holders.filter (fun h => h.device != q.src) })).vopRsp
        q.src q.fregion q.tag .ok 0 []))) ∧
  (∀ (s : State) (port : BitVec 4) (q : Packet) (f : FabRegion) (g : Region) (m : Mod), registrarGets s.mach port 0x1C q f g m →
    q.arg1 % 2 ^ 32 ≠ 0 → q.arg0 + q.arg1 % 2 ^ 32 ≤ f.units → f.members.contains (bits q.arg1 32 16) = true →
    m.fm.rehomes.any (fun h => h.fregion = q.fregion && decide (h.unit < q.arg0 + q.arg1 % 2 ^ 32) && decide (q.arg0 < h.unit + h.left)) = false →
    exec (.rehomeForward port) s = .next (s.after ((m.setFm (fun e => { e with rehomes := e.rehomes ++ [{
      fregion := q.fregion, unit := q.arg0,
      left := q.arg1 % 2 ^ 32, dest := bits q.arg1 32 16, requester := q.src, token := q.tag, phase := 0, localUnit := 0, moved := 0, failed := none,
      cancelled := false }] })).rehomeRun q.fregion))) ∧
  (∀ (s : State) (port : BitVec 4) (q : Packet) (f : FabRegion) (m : Mod) (u : Nat), vopArrives s.mach port 0x1D q f m →
    m.boot.readiness ≠ .draining → m.freeLocalUnit f q.fregion = some u →
    exec (.rehomeReserve port) s = .next (s.after ((m.setFm (fun e => { e with unitMoves := e.unitMoves ++ [{
      fregion := q.fregion, unit := q.arg0,
      peer := (Tbl.find f.stripe q.arg0).elim 0 (fun e => e.home), sending := false, token := 0, registrar := q.src, left := 0, localUnit := u,
      parts := [] }] })).vopRsp q.src q.fregion q.tag .ok 0 (le 4 u)))) ∧
  (∀ (s : State) (port : BitVec 4) (q : Packet) (m m1 m2 : Mod) (x : UnitMove) (f : FabRegion) (g : Region), arrives s.mach port 0x1E q m →
    m.fm.unitMoves.find? (fun x => x.fregion = q.fregion && x.unit = q.num 0 4 && !x.sending) = some x →
    Tbl.find m.fm.regions q.fregion = some f → Tbl.find m.mem.regions f.localRegion = some g → q.num 12 4 = 0 →
    q.num 16 4 ≤ ((q.payload.drop 20).take (q.num 16 4)).length →
    m1 = m.setFm (fun e => { e with unitMoves := e.unitMoves.map (fun y => if y = x then { y with parts := [] } else y) }) →
    m1.placeRecord q.fregion f.localRegion (x.localUnit * f.span + q.num 4 8 % f.span) g (WireRec.read ((q.payload.drop 20).take (q.num 16 4))) = some m2 →
    exec (.rehomeData port) s = .next (s.after (m2.sendPacket (m2.packetTo q.src 1 q.flow 0x16 q.tag [])))) ∧
  (∀ (s : State) (port : BitVec 4) (q : Packet) (f : FabRegion) (m : Mod) (e : StripeEntry), vopArrives s.mach port 0x1E q f m →
    Tbl.find f.stripe q.arg0 = some e →
    (m.mem.recs.filter (fun x => x.2.region = f.localRegion && f.inUnit e.localUnit x.2.pane) = [] →
      exec (.rehomeSend port) s = .next (s.after (m.vopRsp q.src q.fregion q.tag .ok 0 []))) ∧
    (m.mem.recs.filter (fun x => x.2.region = f.localRegion && f.inUnit e.localUnit x.2.pane) ≠ [] →
      exec (.rehomeSend port) s = .next (s.after ((m.setFm (fun v => { v with unitMoves := v.unitMoves ++ [{
        fregion := q.fregion, unit := q.arg0,
        peer := q.arg1 % 16384, sending := true, token := q.tag, registrar := q.src,
        left := (m.mem.recs.filter (fun x => x.2.region = f.localRegion && f.inUnit e.localUnit x.2.pane)).length, localUnit := e.localUnit, parts := [] }] })).each
        (m.mem.recs.filter (fun x => x.2.region = f.localRegion && f.inUnit e.localUnit x.2.pane)) (fun m k =>
          m.sendRecord q.fregion q.arg0 (q.arg0 * f.span + k.2.pane % f.span) (q.arg1 % 16384) (m.wireRecord k.1 k.2 f)
            (k.2.state == .poisoned || k.2.poison != []))))))

/-! ### Host registers, traffic and ports (chapters 14 and 21) -/

/-- Accesses to the registers of a function that answers have their effects on them. -/
def Obligations.HostRegisterCommandsComplete : Prop :=
  (∀ (s : State) (ld : LdId) (value : BitVec 64) (m : Mod), s.mach.presented ld.toNat = true → s.mach.blocked ld.toNat 1 = false →
    m = s.mach.hostTraffic ld.toNat → m.isManager (.ld ld) = true →
    (m.pow.leakFlag = true ∧ bit value.toNat 0 = true ∧ m.pow.leakClass ≠ 1 ∨
      m.pow.sensorFlag = true ∧ bit value.toNat 1 = true ∧ m.pow.leakClass ≠ 2) →
    exec (.stsLatchClear ld value) s = .next (s.after (((m.setPow (fun p => { p with
      leakFlag := m.pow.leakFlag && (!bit value.toNat 0 || m.pow.leakClass = 1),
      sensorFlag := m.pow.sensorFlag && (!bit value.toNat 1 || m.pow.leakClass = 2) })).syncPins).moduleChanged))) ∧
  (∀ (s : State) (ld : LdId) (fn : BitVec 1) (value : BitVec 64), hostReaches s.mach ld fn.toNat →
    exec (.intxStatusClear ld fn value) s = .next (s.after (((s.mach.hostTraffic ld.toNat).setLd ld.toNat (fun d => d.setFunc fn.toNat (fun f =>
      { f with intxStatus := packBits ((List.range 5).map (fun i => bit f.intxStatus i && !bit value.toNat i)) }))).syncIntx ld.toNat fn.toNat))) ∧
  (∀ (s : State) (ld : LdId) (word : BitVec 6) (value : BitVec 64), hostReaches s.mach ld 1 →
    exec (.intxChnPendClear ld word value) s = .next (s.after (((s.mach.hostTraffic ld.toNat).setLd ld.toNat (fun d => { d with
      chnPend := d.chnPend.filter (fun ch => !(ch / 64 = word.toNat && bit value.toNat (ch % 64) &&
        (Tbl.find (s.mach.hostTraffic ld.toNat).chans ch).elim false (fun c => c.owner.ldNo = some ld.toNat))) })).syncIntx ld.toNat 1))) ∧
  (∀ (s : State) (ld : LdId) (fn : BitVec 1) (value : BitVec 64), hostReaches s.mach ld fn.toNat →
    exec (.intxEnableWrite ld fn value) s = .next (s.after (((s.mach.hostTraffic ld.toNat).setLd ld.toNat (fun d => d.setFunc fn.toNat (fun f =>
      { f with intxEnable := value.toNat % (if fn.toNat = 0 then 4 else 32) }))).syncIntx ld.toNat fn.toNat))) ∧
  (∀ (s : State) (ld : LdId) (index : BitVec 2) (x : HdmDecoder), hostReaches s.mach ld 0 →
    x = ((s.mach.hostTraffic ld.toNat).ld ld.toNat).decoders.getD index.toNat HdmDecoder.init → x.committed = false →
    ((s.mach.hostTraffic ld.toNat).port (ld.toNat / 16)).mode ≠ .pcie →
    ((s.mach.hostTraffic ld.toNat).ld ld.toNat).decoderOk index.toNat x (((s.mach.hostTraffic ld.toNat).ld ld.toNat).dpaEnd index.toNat + x.skip) = true →
    exec (.hdmDecoderCommit ld index) s = .next (s.after ((s.mach.hostTraffic ld.toNat).setLd ld.toNat (fun d => { d with
      decoders := d.decoders.set index.toNat { x with
        dpaBase := ((s.mach.hostTraffic ld.toNat).ld ld.toNat).dpaEnd index.toNat + x.skip, committed := true, errNotCommitted := false } })))) ∧
  (∀ (s : State) (ld : LdId) (offset : Nat) (data : List Byte), hostReaches s.mach ld 0 → data.length = 4 → offset % 4 = 0 → f0Implemented offset = true →
    exec (.registerWrite (.ld ld) .f0bar0 offset data) s = .next (s.after ((s.mach.hostTraffic ld.toNat).f0Write ld.toNat offset data))) ∧
  (∀ (s : State) (ld : LdId) (offset : Nat) (data : List Byte), hostReaches s.mach ld 0 → data.length = 8 → offset % 8 = 0 → f0Implemented offset = true →
    exec (.registerWrite (.ld ld) .f0bar0 offset data) s = .next (s.after
      (((s.mach.hostTraffic ld.toNat).f0Write ld.toNat offset (data.take 4)).f0Write ld.toNat (offset + 4) (data.drop 4)))) ∧
  (∀ (s : State) (ld : LdId) (offset : Nat) (data : List Byte), hostReaches s.mach ld 1 → alignedAccess offset data = true →
    ((s.mach.hostTraffic ld.toNat).register s.fuses ld.toNat .f1bar0 (offset / 8 * 8)).isSome = true →
    exec (.registerWrite (.ld ld) .f1bar0 offset data) s =
      .next (s.after ((s.mach.hostTraffic ld.toNat).f1Write ld.toNat offset (leNat data) data.length))) ∧
  (∀ (s : State) (ld : LdId) (offset : Nat) (data : List Byte), hostReaches s.mach ld 1 →
    pageTakes (offset % 4096) data.length = true → offset < 2 ^ 24 →
    exec (.registerWrite (.ld ld) .f1bar2 offset data) s =
      .next (s.after ((s.mach.hostTraffic ld.toNat).pageWrites (.ld ld) (offset / 4096) (offset % 4096) data 16))) ∧
  (∀ (s : State) (ld : LdId) (offset : Nat) (data : List Byte), hostReaches s.mach ld 1 → alignedAccess offset data = true →
    ((s.mach.hostTraffic ld.toNat).register s.fuses ld.toNat .f1bar4 (offset / 8 * 8)).isSome = true →
    exec (.registerWrite (.ld ld) .f1bar4 offset data) s = .next (s.after (s.mach.hostTraffic ld.toNat))) ∧
  (∀ (s : State) (ld : LdId) (fn : BitVec 1) (offset : BitVec 12) (data bs : List Byte), s.mach.presented ld.toNat = true →
    ((s.mach.ld ld.toNat).func fn.toNat).reset = 0 → bs = data.take (4 - offset.toNat % 4) →
    (List.range bs.length).all (fun i => cfgRw fn.toNat (offset.toNat + i) = 0 && cfgW1c (offset.toNat + i) = 0 &&
      cfgStart fn.toNat (offset.toNat + i) = 0) = false →
    exec (.configWrite ld fn offset data) s = .next (s.after (s.mach.configWritten ld.toNat fn.toNat offset.toNat bs))) ∧
  (∀ (s : State) (ld : LdId), s.mach.presented ld.toNat = true → (s.mach.ld ld.toNat).f1.reset = 0 →
    exec (.busMasterDisable ld) s = .next (s.after ((s.mach.setLd ld.toNat (fun d => d.setFunc 1 (fun f =>
      { f with cfg := Mem.wrLE f.cfg 4 2 (clrBit (Mem.rdLE f.cfg 4 2) 2) }))).send (.cfgDone ld.toNat 1)))) ∧
  (∀ (s : State) (ld : LdId), hostReaches s.mach ld 1 →
    exec (.lseRenew ld) s = .next (s.after ((s.mach.backToL0 ld.toNat).renew ld.toNat)))

/-- Traffic of a host's memory device, and the completions of the module's own reads, are served. -/
def Obligations.HostTrafficCommandsComplete : Prop :=
  (∀ (s : State) (ld : LdId) (hpa : BitVec 64) (tag : BitVec 16) (check : Media) (dpa r pane : Nat) (sel : VerSel) (w : Option Nat) (m : Mod),
    s.mach.cxlUp ld.toNat = true → m = s.mach.hostTraffic ld.toNat → m.decodeHpa ld.toNat (hpa.toNat / 64 * 64) = some dpa →
    m.reachOf ld.toNat dpa = some (r, sel, pane, w) → (m.accessLost r sel pane).1 = false →
    (r < 0x8000 → exec (.memRd ld hpa tag check) s =
      .next (s.after ((m.accessLost r sel pane).2.hostLine ld.toNat tag.toNat r sel pane (dpa / 64 % 1024) check))) ∧
    (0x8000 ≤ r → exec (.memRd ld hpa tag check) s =
      .next (s.after ((m.accessLost r sel pane).2.hostFabricRead ld.toNat tag.toNat (r - 0x8000) sel pane (dpa / 64 % 1024) check)))) ∧
  (∀ (s : State) (ld : LdId) (hpa : BitVec 64) (dpa r pane k : Nat) (sel : VerSel) (w : Option Nat) (m : Mod) (x : PaneRec) (g : Region),
    s.mach.cxlUp ld.toNat = true → m = ((s.mach.hostTraffic ld.toNat).choose 2).2 → m.decodeHpa ld.toNat hpa.toNat = some dpa →
    m.reachOf ld.toNat dpa = some (r, sel, pane, w) → m.recAt r sel pane = some (k, x) → r < 0x8000 → (x.tier = .t1 ∨ x.tier = .t2) →
    x.form ≠ .zero → Tbl.find m.mem.regions r = some g → m.residency g = .float →
    (((s.mach.hostTraffic ld.toNat).choose 2).1 = 1 → exec (.memSpecRd ld hpa) s = .next (s.after (m.promoteForRead k (some ld.toNat)))) ∧
    (((s.mach.hostTraffic ld.toNat).choose 2).1 ≠ 1 → exec (.memSpecRd ld hpa) s = .next (s.after m))) ∧
  (∀ (s : State) (ld : LdId) (hpa : BitVec 64) (tag : BitVec 16), s.mach.cxlUp ld.toNat = true →
    exec (.memInv ld hpa tag) s = .next (s.after ((s.mach.hostTraffic ld.toNat).hostCmp ld.toNat tag.toNat))) ∧
  (∀ (s : State) (ld : LdId) (hpa : BitVec 64) (tag : BitVec 16) (data : List Byte) (enable : BitVec 64) (poison : Bool) (m : Mod) (dpa r pane : Nat)
    (sel : VerSel) (w : Option Nat) (b : LdBind) (g : Region), s.mach.cxlUp ld.toNat = true →
    m = (s.mach.hostTraffic ld.toNat).count 0x0009 (0x6000 + ld.toNat / 16) ld.toNat (s.mach.ldPart ld.toNat) 64 →
    m.decodeHpa ld.toNat (hpa.toNat / 64 * 64) = some dpa → m.reachOf ld.toNat dpa = some (r, sel, pane, w) → Tbl.find m.mem.lds ld.toNat = some b →
    b.lease ≠ .cleanup → m.writesStopped = false → (∀ v, sel ≠ .sealed v) → r < 0x8000 → Tbl.find m.mem.regions r = some g →
    (w ≠ none ∨ g.versioning = false) →
    exec (.memWr ld hpa tag data poison) s = .next (s.after (m.submit {
      src := .host ld.toNat tag.toNat, region := r, sel := sel, pane := pane, offset := dpa / 64 % 1024 * 64,
      bytes := (data ++ List.replicate 64 0).take 64, enable := [], poisoned := poison, wait := .frame })) ∧
    exec (.memWrPtl ld hpa tag data enable poison) s = .next (s.after (m.submit {
      src := .host ld.toNat tag.toNat, region := r, sel := sel, pane := pane, offset := dpa / 64 % 1024 * 64,
      bytes := (data ++ List.replicate 64 0).take 64, enable := (List.range 64).map (fun i => bit enable.toNat i), poisoned := poison, wait := .frame }))) ∧
  (∀ (s : State) (ld : LdId) (hpa : BitVec 64) (tag : BitVec 16) (data : List Byte) (poison : Bool) (m : Mod) (dpa r pane : Nat)
    (sel : VerSel) (w : Option Nat) (b : LdBind), s.mach.cxlUp ld.toNat = true →
    m = (s.mach.hostTraffic ld.toNat).count 0x0009 (0x6000 + ld.toNat / 16) ld.toNat (s.mach.ldPart ld.toNat) 64 →
    m.decodeHpa ld.toNat (hpa.toNat / 64 * 64) = some dpa → m.reachOf ld.toNat dpa = some (r, sel, pane, w) → Tbl.find m.mem.lds ld.toNat = some b →
    b.lease ≠ .cleanup → m.writesStopped = false → (∀ v, sel ≠ .sealed v) → 0x8000 ≤ r →
    exec (.memWr ld hpa tag data poison) s = .next (s.after (m.hostFabricWrite ld.toNat tag.toNat (r - 0x8000) sel pane (dpa / 64 % 1024)
      ((data ++ List.replicate 64 0).take 64) [] poison))) ∧
  (∀ (s : State) (ld : LdId) (tag : BitVec 14) (data : List Byte) (r : DmaRead), s.mach.presented ld.toNat = true →
    (s.mach.ld ld.toNat).reads.find? (fun r => r.tag = tag.toNat) = some r →
    (r.left ≤ data.length → exec (.dmaReadCompletion ld tag data false false) s = .next (s.after
      (((s.mach.setLd ld.toNat (fun d => { d with reads := d.reads.filter (fun x => x.tag != tag.toNat) })).bufArrived r.key r.index r.offset
        (data.take r.left)).askReads askFuel))) ∧
    (data.length < r.left → exec (.dmaReadCompletion ld tag data false false) s = .next (s.after
      (((s.mach.setLd ld.toNat (fun d => { d with reads := d.reads.map (fun x => if x.tag = tag.toNat then
        { x with offset := x.offset + data.length, left := x.left - data.length } else x) })).bufArrived r.key r.index r.offset data).askReads askFuel)))) ∧
  (∀ (s : State) (ld : LdId) (tag : BitVec 14) (r : DmaRead), (s.mach.ld ld.toNat).reads.find? (fun r => r.tag = tag.toNat) = some r →
    exec (.completionTimeout ld tag) s = .next (s.after ((((((s.mach.setLd ld.toNat (fun d =>
      { d with reads := d.reads.filter (fun x => x.tag != tag.toNat) })).retireTag ld.toNat tag.toNat).aer ld.toNat 1 14 1).portErr ld.toNat 0x0603 .contained).endReads
        ld.toNat r.key .timeout).askReads askFuel)))

/-- Resets of functions and events of the host ports. -/
def Obligations.HostPortCommandsComplete : Prop :=
  (∀ (s : State) (ld : LdId), s.mach.presented ld.toNat = true →
    exec (.flrFunction0 ld) s = .next (s.after (s.mach.resetF0 ld.toNat 1)) ∧
    exec (.flrFunction1 ld) s = .next (s.after (s.mach.resetF1 ld.toNat 1)) ∧
    ((s.mach.port (ld.toNat / 16)).mode ≠ .pcie →
      exec (.cxlReset ld) s = .next (s.after (((s.mach.resetF0 ld.toNat 2).resetF1 ld.toNat 2).resetCxl ld.toNat)))) ∧
  (∀ (s : State) (ld : LdId) (fn : BitVec 1),
    (((s.mach.ld ld.toNat).func fn.toNat).reset = 1 → exec (.resetComplete ld fn) s =
      .next (s.after (s.mach.setLd ld.toNat (fun d => d.setFunc fn.toNat (fun f => { f with reset := 0 }))))) ∧
    (2 ≤ ((s.mach.ld ld.toNat).func fn.toNat).reset → exec (.resetComplete ld fn) s =
      .next (s.after ((s.mach.setLd ld.toNat (fun d => { d with f0 := { d.f0 with reset := 0 }, f1 := { d.f1 with reset := 0 } })).activate ld.toNat)))) ∧
  (∀ (s : State) (port : BitVec 2),
    (s.mach.pow.phase = .on → exec (.perstAssert port) s =
      .next (s.after ((s.mach.portDown port.toNat).setPort port.toNat (fun p => { p with perst := true })))) ∧
    (s.mach.pow.phase ≠ .on → exec (.perstAssert port) s = .next (s.after (s.mach.setPort port.toNat (fun p => { p with perst := true })))) ∧
    exec (.perstDeassert port) s = .next (s.after (s.mach.setPort port.toNat (fun p => { p with perst := false })))) ∧
  (∀ (s : State) (port : BitVec 2), (s.mach.port port.toNat).mode ≠ .down →
    exec (.hotReset port) s = .next (s.after (s.mach.portDown port.toNat)) ∧
    exec (.hostLinkLost port) s = .next (s.after ((s.mach.portErr (16 * port.toNat) 0x0605 .unit).portDown port.toNat)) ∧
    ((s.mach.port port.toNat).ideSecure = true → exec (.ideCheckFail port) s = .next (s.after (s.mach.ideFailed port.toNat)))) ∧
  (∀ (s : State) (port mode : BitVec 2) (width rate : Nat), s.mach.pow.phase = .on → s.mach.pow.modReset = false → 3 ≤ s.mach.boot.step →
    (s.mach.port port.toNat).perst = false → mode ≠ 3 → trainsTo width rate = true →
    exec (.hostLinkTrained port mode width rate) s = .next (s.after (s.mach.linkTrained port mode width rate))) ∧
  (∀ (s : State) (port : BitVec 2) (deep : Bool) (m : Mod), (s.mach.port port.toNat).mode ≠ .down → s.mach.aspmL1 port.toNat = true →
    2 ≤ s.mach.pow.rung → deep = (s.mach.aspmL12 port.toNat && decide (3 ≤ s.mach.pow.rung)) →
    ((s.mach.port port.toNat).inL1 = false ∨ (s.mach.port port.toNat).inL12 = false ∧ deep = true) →
    m = (s.mach.setPort port.toNat (fun p => { p with inL1 := true, inL12 := deep })).send (.l1Request port.toNat deep) →
    exec (.l1EntryRequest port) s = .next (s.after (if deep then m.send (.portPin "CLKREQ#" port.toNat true) else m)))

/-! ### Power, pins and the rungs (chapter 18) -/

/-- The pins, the input rail, the sensors and the governors have their effects. -/
def Obligations.PowerAndPinCommandsComplete : Prop :=
  (∀ (s : State), exec .pwrPrsntMate s = .next (s.after ((s.mach.setPow (fun p => { p with
    pwrPrsnt := true, phase := if p.phase = .unmated then .off else p.phase })).tryPowerOn))) ∧
  (∀ (s : State), s.mach.pow.sbVrefLow = false →
    exec .pwrEnHigh s = .next (s.after ((s.mach.setPow (fun p => { p with pwrEnPin := true })).takePwrEn true)) ∧
    exec .pwrEnLow s = .next (s.after ((s.mach.setPow (fun p => { p with pwrEnPin := false })).takePwrEn false)) ∧
    exec .modReset s = .next (s.after ((s.mach.setPow (fun p => { p with modResetPin := true })).takeModReset true)) ∧
    exec .modResetRelease s = .next (s.after ((s.mach.setPow (fun p => { p with modResetPin := false })).takeModReset false)) ∧
    exec .sbVrefLow s = .next (s.after ((((s.mach.setPow (fun p => { p with sbVrefLow := true })).send (.pinFloat "MI3C_SCL")).send
      (.pinFloat "MI3C_SDA")).send (.pinFloat "MOD_PWRGD")))) ∧
  (∀ (s : State), s.mach.pow.sbVrefLow = true →
    exec .pwrEnHigh s = .next (s.after (s.mach.setPow (fun p => { p with pwrEnPin := true }))) ∧
    exec .pwrEnLow s = .next (s.after (s.mach.setPow (fun p => { p with pwrEnPin := false }))) ∧
    exec .modReset s = .next (s.after (s.mach.setPow (fun p => { p with modResetPin := true }))) ∧
    exec .modResetRelease s = .next (s.after (s.mach.setPow (fun p => { p with modResetPin := false }))) ∧
    exec .sbVrefRecovered s = .next (s.after s.mach.sbVrefBack)) ∧
  (∀ (s : State),
    (s.mach.pow.phase = .on → exec .unmating s =
      .next (s.after ((s.mach.setPow (fun p => { p with pwrPrsnt := false })).powerOff .unmated (some (3, 0, 0))))) ∧
    (s.mach.pow.phase ≠ .on → exec .unmating s =
      .next (s.after (((s.mach.setPow (fun p => { p with pwrPrsnt := false })).setPow (fun p => { p with phase := .unmated })).syncPins)))) ∧
  (∀ (s : State) (mv : Nat), 42000 ≤ mv → mv < 46000 → s.mach.pow.phase = .on → s.mach.pow.inputLow = false →
    exec (.inputLow mv) s = .next (s.after (((s.mach.setPow (fun p => { p with inputLow := true })).logErr
      { unit := 0xB000, code := 0x0B04, sev := .unit, detail := mv }).limitChanged s.mach.pow.sustained))) ∧
  (∀ (s : State) (mv : Nat), mv < 42000 → s.mach.pow.phase ≠ .unmated →
    exec (.inputUndervoltage mv) s = .next (s.after (s.mach.inputOff 1))) ∧
  (∀ (s : State) (mv : Nat), 60000 < mv → mv ≤ 64000 → s.mach.pow.phase = .on →
    s.mach.pow.inputHighHour ≠ some (s.mach.localTime / 3600000000000) →
    exec (.inputHigh mv) s = .next (s.after ((s.mach.setPow (fun p => { p with inputHighHour := some (s.mach.localTime / 3600000000000) })).logErr
      { unit := 0xB000, code := 0x0B05, sev := .info, detail := mv }))) ∧
  (∀ (s : State) (mv : Nat), 64000 < mv → s.mach.pow.phase ≠ .unmated →
    exec (.inputOvervoltage mv) s = .next (s.after (s.mach.inputOff 2))) ∧
  (∀ (s : State) (mv : Nat), 46000 ≤ mv → mv ≤ 64000 →
    exec (.inputRecovered mv) s = .next (s.after (((s.mach.setPow (fun p => { p with inputLow := false, inputFault := false })).limitChanged
      s.mach.pow.sustained).tryPowerOn))) ∧
  (∀ (s : State) (die : Nat) (temp : Int), s.mach.pow.phase = .on → die < 12 → 1000 ≤ temp →
    exec (.thermtrip die temp) s = .next (s.after (s.mach.powerOff .tripped (some (4, die, temp))))) ∧
  (∀ (s : State), s.mach.pow.phase = .tripped → s.mach.pow.pwrEn = false →
    exec .thermtripRelease s = .next (s.after ((s.mach.setPow (fun p => { p with phase := .off })).syncPins))) ∧
  (∀ (s : State) (cordOhms loopOhms : Nat), (s.mach.pow.phase = .on ∨ s.mach.pow.phase = .tripped) →
    exec (.leakSensorSample cordOhms loopOhms) s = .next (s.after (s.mach.takeLeak cordOhms loopOhms))) ∧
  (∀ (s : State), s.mach.pow.phase = .on →
    (∀ (inlet outlet : Int) (flow : Nat), exec (.coolantSample inlet outlet flow) s = .next (s.after (s.mach.takeCoolant inlet outlet flow))) ∧
    (∀ (p100 p20ms p2s : Nat), exec (.powerGovernorSample p100 p20ms p2s) s = .next (s.after (s.mach.governPower p100 p20ms p2s))) ∧
    (∀ (bDies cDies gddr nand : List Int), exec (.thermalGovernorSample bDies cDies gddr nand) s =
      .next (s.after (s.mach.governHeat bDies cDies gddr nand)))) ∧
  (∀ (s : State), 1000 ≤ s.mach.pow.overFloorUs → s.mach.pow.capFail = false →
    exec .powerCapFail s = .next (s.after ((((s.mach.setPow (fun p => { p with capFail := true })).logErr
      { unit := 0xB00B, code := 0x0B07, sev := .unit, detail := s.mach.pow.p100 }).raise 0x0E04 64 s.mach.pow.p100 0 0).syncPins)))

/-- The module goes down the ladder of rungs one at a time where nothing blocks it, prepares for the deep rungs, and each cause of
waking brings it back to the rung that the cause asks for. -/
def Obligations.RungCommandsComplete : Prop :=
  (∀ (s : State), s.mach.mayDescend = true → s.mach.pow.preparing = false →
    (List.range (min (s.mach.pow.rung + 1) 2)).any (fun i => s.mach.blockersAt (i + 1) != []) = false →
    (s.mach.pow.rung + 1 ≤ 2 → exec .rungDescent s = .next (s.after (s.mach.enterRung (s.mach.pow.rung + 1)))) ∧
    (2 < s.mach.pow.rung + 1 → exec .rungDescent s = .next (s.after s.mach.prepare))) ∧
  (∀ (s : State), s.mach.mayDescend = true → s.mach.pow.preparing = true → 3 ≤ s.mach.pow.rung + 1 → s.mach.pow.rung + 1 ≤ 4 →
    (List.range (s.mach.pow.rung + 1)).any (fun i => s.mach.blockersAt (i + 1) != []) = false →
    exec .rungEntry s = .next (s.after s.mach.enterDeepRung)) ∧
  (∀ (s : State) (g : Byte), s.mach.pow.phase = .on → s.mach.pow.modReset = false →
    s.mach.gaffer.order.any (fun ch => ((Tbl.find s.mach.chans ch).bind (fun c => c.inflight)).elim false (fun f => slotOpcode f.slot / 256 = g.toNat)) = true →
    exec (.wake (.doorbell g)) s = .next (s.after { s.mach.wake (some 1) (if [0x00, 0x01, 0x02, 0x09, 0x0E, 0x0F].contains g.toNat then none else some 1) with
      gaffer := { s.mach.gaffer with wakeLatched := false } })) ∧
  (∀ (s : State), s.mach.pow.phase = .on → s.mach.pow.modReset = false →
    (∀ h, (s.mach.chooseFrom 4 (fun h => (s.mach.port h).inL1)).1 = some h → exec (.wake .hostLink) s = .next (s.after
      (((s.mach.chooseFrom 4 (fun h => (s.mach.port h).inL1)).2.setPort h (fun p => { p with inL1 := false, inL12 := false })).wake (some 2) (some 1)))) ∧
    (s.mach.pow.rung ≤ 2 → exec (.wake .fabric) s = .next (s.after (s.mach.wake (some 3) (some 1))) ∧
      exec (.wake .presence) s = .next (s.after (s.mach.wake (some 7) (some 1)))) ∧
    exec (.wake (.lease true)) s = .next (s.after (s.mach.wake (some 4) (some 1))) ∧
    exec (.wake (.lease false)) s = .next (s.after (s.mach.wake (some 4) none)) ∧
    exec (.wake .leak) s = .next (s.after ((s.mach.wake (some 5) none).writeLeaks)) ∧
    (s.mach.pow.sbVrefLow = false → exec (.wake .sideband) s = .next (s.after (s.mach.wake (some 6) none))) ∧
    exec (.wake .timer) s = .next (s.after (s.mach.wake none none)))

/-! ### Bring-up, resets, life cycle and privileged units (chapters 16 and 19) -/

/-- The steps of bring-up, the resets that the module makes itself, and the faults of its privileged units. -/
def Obligations.BringUpAndResetCommandsComplete : Prop :=
  (∀ (s : State) (slot : BitVec 1) (valid : Bool), s.mach.pow.phase = .on → s.mach.pow.modReset = false → s.mach.boot.step = 2 →
    exec (.bootImageVerified slot valid) s = .next (s.after (s.mach.imageVerified s.fuses slot valid))) ∧
  (∀ (s : State) (readable : Bool), s.mach.boot.step = 3 → s.mach.boot.recovery = false → s.mach.boot.lifecycle ≠ 5 → s.mach.boot.journalDone = false →
    s.mach.boot.readiness = .booting →
    exec (.journalReplayComplete readable) s = .next (s.after (s.mach.replayed s.fuses readable))) ∧
  (∀ (s : State) (m1 m2 m3 : Mod), s.mach.boot.readiness = .booting → s.mach.boot.step = 3 → s.mach.boot.recovery = false →
    s.mach.boot.lifecycle ≠ 5 → s.mach.boot.sweepDone = true → s.mach.boot.journalDone = true → s.mach.t1.any (fun p => p.state = .training) = false →
    m1 = s.mach.setMem (fun e => { e with mapInT0 := s.mach.mapPorts == [] }) → m2 = m1.reserveMap.getD m1 → m2.t2.saved.failed = false →
    m3 = m2.setBoot (fun b => { b with readiness := .ready, step := 8, slots := match b.booted with
      | some i => b.slots.modify i (fun s => { s with failedBoots := if decide (20000000000 < m2.localTime) then s.failedBoots + 1 else 0 })
      | none => b.slots }) →
    exec .readyEntry s = .next { s with
      mach := (((m3.each m3.ldNos (fun m l => m.setLd l (fun d => { d with memoryActive := true }))).moduleChanged).advanceRollback s.fuses).2.settle
      fuses := (((m3.each m3.ldNos (fun m l => m.setLd l (fun d => { d with memoryActive := true }))).moduleChanged).advanceRollback s.fuses).1 }) ∧
  (∀ (s : State), s.mach.pow.phase = .on → s.mach.pow.modReset = false → 3 ≤ s.mach.boot.step →
    exec .gafferWatchdogReset s = .next (s.after s.mach.watchdogReset)) ∧
  (∀ (s : State), s.mach.boot.lifecyclePending ≠ none →
    exec .lifecycleResetDelay s = .next (s.after (s.mach.coldReset.syncPins))) ∧
  (∀ (s : State) (pair : BitVec 1), exec (.gafferPairFault pair) s = .next (s.after (s.mach.privilegedFault pair.toNat 0x0001 0))) ∧
  (∀ (s : State) (unit : BitVec 16) (code : Nat), privilegedCode unit.toNat = some code →
    exec (.privilegedFault unit) s = .next (s.after (s.mach.privilegedFault unit.toNat code 0))) ∧
  (∀ (s : State), s.mach.boot.readiness = .draining → exec .drainPeriodExpiry s = .next (s.after s.mach.enterFailed)) ∧
  (∀ (s : State), s.mach.t2.inService = true → s.mach.t2.writeBuf = [] → s.mach.boot.readiness ≠ .booting →
    exec .journalCommit s = .next (s.after s.mach.commitJournal.endDrainCheck))

/-! ### The tiers (chapters 12 and 13) -/

/-- The events of the T0 controller. MAINTENANCE_RETRAIN closes the open rows of every channel (R389). -/
def Obligations.TierZeroCommandsComplete : Prop :=
  (∀ (s : State) (channel : BitVec 7) (bank : BitVec 6), s.mach.pow.rung < 2 → bank.toNat < 16 → s.mach.t0.channels.contains channel.toNat = true →
    s.mach.t0.offline.contains channel.toNat = false →
    exec (.refreshDue channel bank) s = .next (s.after (s.mach.refresh channel bank))) ∧
  (∀ (s : State), exec .maintenanceRetrain s = .next (s.after s.mach.closeT0)) ∧
  (∀ (s : State) (record : Nat) (line : BitVec 10) (write : Bool) (x : PaneRec) (a g : Nat) (m : Mod), Tbl.find s.mach.mem.recs record = some x →
    x.tier = .t0 → x.form ≠ .zero → line.toNat < x.sectors * 4 → a = x.t0Addr (line.toNat * 64) → g = s.mach.t0Channel a →
    m = s.mach.logErr { unit := 0x2000 + g, code := 0x0204, sev := .contained, address := a, space := .t0, partition := s.mach.ownerOf x.region,
                        region := x.region } →
    ((m.choose 2).1 = 1 → exec (.t0AccessFailed record line write) s = .next (s.after (((m.choose 2).2.closeRows g none).t0Offline g))) ∧
    ((m.choose 2).1 ≠ 1 → exec (.t0AccessFailed record line false) s = .next (s.after (((m.choose 2).2.closeRows g none).t0Suspect g 1))) ∧
    ((m.choose 2).1 ≠ 1 → exec (.t0AccessFailed record line true) s =
      .next (s.after ((((m.choose 2).2.closeRows g none).setRec record (fun x => x.poisonLines [line.toNat])).t0Suspect g 1)))) ∧
  (∀ (s : State), s.mach.t0.sweeping = true → s.mach.pow.phase = .on → 3 ≤ s.mach.boot.step → s.mach.boot.recovery = false → s.mach.boot.lifecycle ≠ 5 →
    exec .t0SweepComplete s = .next (s.after s.mach.sweepFinished))

/-- The events of the downstream CXL ports of T1. -/
def Obligations.TierOneCommandsComplete : Prop :=
  (∀ (s : State) (port : BitVec 3) (present : Bool), exec (.dsPresenceChange port present) s = .next (s.after (s.mach.dsPresence port.toNat present))) ∧
  (∀ (s : State) (port : BitVec 3) (capacity : Nat), (s.mach.t1.getD port.toNat T1Port.init).state = .training →
    (exec (.t1EnumerationComplete port capacity false) s = .next (s.after ((s.mach.setT1 port.toNat (fun p => { p with state := .refused })).logErr
      { unit := 0x3000 + port.toNat, code := 0x0305, sev := .unit, opn := .training }))) ∧
    (s.mach.boot.readiness = .booting → exec (.t1EnumerationComplete port capacity true) s = .next (s.after (s.mach.setT1 port.toNat (fun p => { p with
      state := .inService, capacity := min (capacity / 2 ^ 28 * 2 ^ 28) (2 ^ 41), holdsMap := true, mapShare := 0, poisonPass := false, mapSingle := false })))) ∧
    (s.mach.boot.readiness ≠ .booting → exec (.t1EnumerationComplete port capacity true) s = .next (s.after (((s.mach.setT1 port.toNat (fun p => { p with
      state := .inService, capacity := min (capacity / 2 ^ 28 * 2 ^ 28) (2 ^ 41), holdsMap := false, mapShare := 0, poisonPass := false })).raise
        0x0311 64 port.toNat 0 0).spaceFreed)))) ∧
  (∀ (s : State) (port : BitVec 3), (s.mach.t1.getD port.toNat T1Port.init).state = .inService →
    exec (.t1LinkDown port) s = .next (s.after (((s.mach.setT1 port.toNat (fun p => { p with state := .retraining })).logErr
      { unit := 0x3000 + port.toNat, code := 0x0306, sev := .info, opn := .training }).t1Suspect port.toNat))) ∧
  (∀ (s : State) (port : BitVec 3), (s.mach.t1.getD port.toNat T1Port.init).state = .retraining →
    exec (.t1LinkRetrained port) s = .next (s.after (((s.mach.setT1 port.toNat (fun p => { p with state := .inService })).serveReads .t1Link).retryWrites)) ∧
    exec (.t1RetrainTimeout port) s = .next (s.after (s.mach.t1Lost port.toNat (s.mach.t1.getD port.toNat T1Port.init)))) ∧
  (∀ (s : State) (port : BitVec 3), (s.mach.t1.getD port.toNat T1Port.init).state = .training →
    exec (.t1RetrainTimeout port) s = .next (s.after (s.mach.setT1 port.toNat (fun p => { p with state := .refused })))) ∧
  (∀ (s : State) (port : BitVec 3), ((s.mach.t1.getD port.toNat T1Port.init).state = .inService ∨ (s.mach.t1.getD port.toNat T1Port.init).state = .retraining) →
    exec (.t1FatalError port) s = .next (s.after (s.mach.t1Lost port.toNat (s.mach.t1.getD port.toNat T1Port.init)))) ∧
  (∀ (s : State) (record : Nat) (x : PaneRec), Tbl.find s.mach.mem.recs record = some x → x.tier = .t1 → x.form ≠ .zero → x.state ≠ .poisoned → x.dest = none →
    exec (.t1NoResponse record) s = .next (s.after (((s.mach.logErr {
      unit := 0x3000 + x.loc / 2 ^ 40, code := 0x0302, sev := .contained, address := x.loc,
      space := .t1, partition := s.mach.ownerOf x.region, region := x.region }).poisonPane record .none).retryWrites))) ∧
  (∀ (s : State) (port : BitVec 3) (record : List Byte), ((s.mach.t1.getD port.toNat T1Port.init).state = .inService ∨
      (s.mach.t1.getD port.toNat T1Port.init).state = .training) → record.length = 128 →
    exec (.t1DeviceEvent port record) s = .next (s.after (s.mach.logErr {
      unit := 0x3000 + port.toNat, code := 0x0303, sev := .info,
      appendix := [record.take 48, (record.drop 48).take 48, record.drop 96 ++ List.replicate 16 0] })))

/-- The events of the flash array of T2. -/
def Obligations.TierTwoCommandsComplete : Prop :=
  (∀ (s : State) (channel : BitVec 5) (d : Nat), s.mach.t2.inService = true → d % 16 * 32 + channel.toNat < s.mach.t2Dies →
    s.mach.t2.lostDies.contains (d % 16 * 32 + channel.toNat) = false →
    exec (.dieFailure channel (some d)) s = .next (s.after ((({ s.mach with t2 := { s.mach.t2 with lostDies := s.mach.t2.lostDies ++
      [d % 16 * 32 + channel.toNat] } } : Mod).logErr { unit := 0x4000 + channel.toNat, code := 0x0404, sev := .unit, detail := d % 16 }).afterDieLoss))) ∧
  (∀ (s : State) (channel : BitVec 5), s.mach.t2.inService = true → s.mach.t2.lostChannels.contains channel.toNat = false →
    exec (.dieFailure channel none) s = .next (s.after ((({ s.mach with t2 := { s.mach.t2 with
      lostChannels := s.mach.t2.lostChannels ++ [channel.toNat],
      inService := s.mach.t2.inService && decide ((s.mach.t2.lostChannels ++ [channel.toNat]).length < 32) } } : Mod).logErr
        { unit := 0x4000 + channel.toNat, code := 0x0405, sev := .unit }).afterDieLoss))) ∧
  (∀ (s : State) (index : Nat), s.mach.dieOk index = false → exec (.lostPortPoisonPass true index) s = .next (s.after
    ((s.mach.each ((s.mach.mem.recs.filter (fun x => x.2.tier = .t2 && x.2.form != .zero && x.2.die == index)).map (fun x => x.1))
      (fun m k => m.poisonPane k .background)).retryWrites))) ∧
  (∀ (s : State) (index : Nat) (m : Mod), (s.mach.t1.getD index T1Port.init).poisonPass = true →
    m = s.mach.setT1 index (fun p => { p with poisonPass := false }) →
    exec (.lostPortPoisonPass false index) s = .next (s.after
      ((m.each ((m.mem.recs.filter (fun x => x.2.tier = .t1 && x.2.form != .zero && x.2.loc / 2 ^ 40 == index)).map (fun x => x.1))
        (fun m k => m.poisonPane k .background)).retryWrites))) ∧
  (∀ (s : State) (record : Nat) (w : Buffered), s.mach.t2.writeBuf.find? (fun w => w.record = record) = some w →
    exec (.nandProgramComplete record) s = .next (s.after ((({ s.mach with t2 := { s.mach.t2 with writeBuf := s.mach.t2.writeBuf.erase w } } : Mod).chargeWear
      (w.place.sectors * 256)).count 0x0008 (0x4000 + w.place.die % 32) w.master
        ((Tbl.find s.mach.mem.recs record).map (fun (x : PaneRec) => s.mach.ownerOf x.region)) (w.place.sectors * 256)))) ∧
  (∀ (s : State) (die block : Nat) (erase : Bool), die < s.mach.t2Dies → s.mach.dieOk die = true → s.mach.t2.inService = true →
    exec (.programFailure die block erase) s = .next (s.after ((s.mach.retireBlock die block).dieFailed die)) ∧
    exec (.blockRelocation die block) s = .next (s.after (s.mach.relocate die))) ∧
  (∀ (s : State) (record : Nat) (step : BitVec 3) (x : PaneRec), Tbl.find s.mach.mem.recs record = some x → x.tier = .t2 → x.form ≠ .zero →
    2 ≤ step.toNat → step.toNat ≤ 4 → x.state ≠ .poisoned → s.mach.homeLost x = false →
    exec (.t2ReadDecode record step) s = .next (s.after
      ((if step.toNat = 3 then s.mach.relocate x.die else s.mach).readRetried x x.loc x.sectors x.die (step.toNat = 4)))) ∧
  (∀ (s : State) (state : BitVec 2), state.toNat ≠ s.mach.t2.wearState → state.toNat = s.mach.wearCalls → s.mach.t2.inService = true →
    exec (.wearGovernorChange state) s = .next (s.after (s.mach.wearTo state)))

/-! ### Panes, moves, versions and extents (chapters 3 to 6) -/

/-- Moves between the tiers, unpacks, repacks, copies on write and drops of held writes commit. -/
def Obligations.PaneMoveCommandsComplete : Prop :=
  (∀ (s : State) (record : Nat) (read : Media) (x : PaneRec) (d : Place), Tbl.find s.mach.mem.recs record = some x →
    x.dest = some d → x.state = .movingUp →
    s.mach.svc.heals.any (fun h => h.record = record) = false → s.mach.linkWaits x = false → s.mach.placeWaits d = false →
    s.mach.moveHeld x d (x.mover.getD (s.mach.moveMaster x.region)) = false → badRead (x.checkHome read) = false → s.mach.homeLost x = false →
    exec (.promotionCommit record read) s = .next (s.after (s.mach.promoted record x d))) ∧
  (∀ (s : State) (record : Nat) (read : Media) (x : PaneRec) (g : Region) (d : Place), Tbl.find s.mach.mem.recs record = some x →
    Tbl.find s.mach.mem.regions x.region = some g → x.dest = some d → x.state = .movingDown → s.mach.linkWaits x = false → s.mach.placeWaits d = false →
    s.mach.moveHeld x d (s.mach.moverOf x d) = false →
    (∀ p, x.parked = some p → p.place = d →
      exec (.evictionCommit record read) s = .next (s.after ((s.mach.evictedToSlot record x p).serveReads .encode))) ∧
    ((∀ p, x.parked = some p → p.place ≠ d) → badRead (x.checkHome read) = false →
      exec (.evictionCommit record read) s = .next (s.after ((s.mach.evictedEncoded record x g d).serveReads .encode)))) ∧
  (∀ (s : State) (record : Nat) (x : PaneRec) (p : Parked), Tbl.find s.mach.mem.recs record = some x → x.old = some p →
    (p.place.tier ≠ .t2 ∨ p.form = .zero ∨ x.oldParks = true ∨ s.mach.t2.journalPending = 0 ∨
      (Tbl.find s.mach.mem.regions x.region).elim false (fun g => g.durable) = false) →
    exec (.oldLocationFreed record) s = .next (s.after (s.mach.oldFreed record x p).spaceFreed)) ∧
  (∀ (s : State) (record : Nat) (read : Media) (x : PaneRec) (d : Place), Tbl.find s.mach.mem.recs record = some x → x.unpacking = some d →
    exec (.unpackCommit record read) s = .next (s.after (s.mach.unpacked record x d read))) ∧
  (∀ (s : State) (record : Nat) (read : Media) (x : PaneRec) (g : Region), Tbl.find s.mach.mem.recs record = some x →
    Tbl.find s.mach.mem.regions x.region = some g →
    (x.repacking = false → s.mach.repackOk x = true → exec (.repack record read) s = .next (s.after (s.mach.startRepack record g))) ∧
    (∀ d, x.repacking = true → x.dest = some d → x.state = .movingDown → s.mach.linkWaits x = false → s.mach.placeWaits d = false →
      s.mach.moveHeld x d (s.mach.moverOf x d) = false → (∀ p, x.parked = some p → p.place ≠ d) → badRead (x.checkHome read) = false →
      exec (.repack record read) s = .next (s.after (s.mach.evictedEncoded record x g d)))) ∧
  (∀ (s : State) (index : Nat) (read : Media) (job : CowJob) (x : PaneRec), s.mach.mem.cows[index]? = some job →
    Tbl.find s.mach.mem.recs job.source = some x →
    exec (.copyOnWriteCommit index read) s = .next (s.after (s.mach.copied index job x read))) ∧
  (∀ (s : State) (index : Nat) (w : HeldWrite) (g : Region), s.mach.mem.heldWrites[index]? = some w → w.wait = .space →
    Tbl.find s.mach.mem.regions w.region = some g →
    exec (.exhaustHoldExpiry index) s = .next (s.after (s.mach.writeDropped index w g))) ∧
  (∀ (s : State) (region : Nat), exec (.counterDecay { region := region, sram := none }) s = .next (s.after (s.mach.setMem (fun e =>
    { e with recs := Tbl.mapV e.recs (fun _ x => if x.region = region then { x with counter := x.counter / 2 } else x) })))) ∧
  (∀ (s : State) (region : Nat) (bdie : BitVec 2) (word : SramWord), exec (.counterDecay { region := region, sram := some (bdie, word) }) s =
    .next (s.after ((s.mach.sramError bdie.toNat word).setMem (fun e => { e with recs := Tbl.mapV e.recs (fun _ x =>
      if x.region = region then { x with counter := x.counter / 2 } else x) })))) ∧
  (∀ (s : State) (record : Nat) (x : PaneRec) (g : Region), Tbl.find s.mach.mem.recs record = some x → Tbl.find s.mach.mem.regions x.region = some g →
    s.mach.residency g = .pinLow → (x.counter ≤ g.evictBelow ∨ x.lastWrite + 100000000 ≤ s.mach.localTime) →
    exec (.pinLowEviction record) s = .next (s.after (s.mach.startEvict record))) ∧
  (∀ (s : State) (m : Mod), m = s.mach.selectVictims (decide (s.mach.t0Free * 100 < s.mach.t0Pool)) (s.mach.mem.recs.length + 1) →
    (m.t1Usable = true → m.t1Free * 50 < m.t1Total → m.t2Usable = true →
      exec .victimSelectorRun s = .next (s.after (m.demoteT1 (m.mem.recs.length + 1)))) ∧
    ((m.t1Usable = false ∨ m.t1Total ≤ m.t1Free * 50 ∨ m.t2Usable = false) → exec .victimSelectorRun s = .next (s.after m)))

/-- Tables, seals, checkpoints, durable versions, retired versions, clean extents and leases go on. -/
def Obligations.VersionAndExtentEventsComplete : Prop :=
  (∀ (s : State) (region n : Nat) (m : Mod) (g : Region), Tbl.find s.mach.mem.regions region = some g → g.form = .lehr → g.tables.current = none →
    64 ≤ g.tables.sampled → s.mach.freeSlot = (some n, m) →
    exec (.firstTableBuilt region) s = .next (s.after (m.installTable region n (buildLens g.dtype g.tables.histogram false)))) ∧
  (∀ (s : State) (region : Nat) (gen : BitVec 4) (g : Region) (t : TableGen) (m : Mod), Tbl.find s.mach.mem.regions region = some g →
    Tbl.find g.tables.gens gen.toNat = some t → g.tables.current ≠ some gen.toNat → s.mach.genImages region gen.toNat true = 0 →
    s.mach.movementHolds region = false → s.mach.genInFlight region = false → s.mach.genLatched region gen.toNat = false →
    m = s.mach.setRegion region (fun g => { g with tables := { g.tables with gens := Tbl.del g.tables.gens gen.toNat } }) →
    exec (.generationFree region gen) s = .next (s.after
      (({ m with t2 := { m.t2 with tableJournal := m.t2.tableJournal.filter (fun t => t != (region, gen.toNat)) } } : Mod).returnSlot t.slot))) ∧
  (∀ (s : State) (record : Nat) (read : Media) (x : PaneRec), Tbl.find s.mach.mem.recs record = some x → x.sealEncode = true → x.state ≠ .movingDown →
    exec (.sealEncodeComplete record read) s = .next (s.after ((((s.mach.mediaRead record x 0 true read .encode).sealEncodeDone record).retryWrites).serveReads .encode))) ∧
  (∀ (s : State) (slot : SlotNo) (c : Ctx) (r v n total : Nat) (g : Region) (a : Mod × Bool) (m : Mod), Tbl.find s.mach.ctxs slot.toNat = some c →
    c.work = .checkpoint r v n → Tbl.find s.mach.mem.regions r = some g → (g.durable = false ∨ (Tbl.find g.vers v).elim true (fun x => x.durableDone) = true) →
    a = (s.mach.recsOf r v).foldl (Mod.checkpointPane g) (s.mach, true) → (s.mach.onlyT0 = true ∨ a.2 = true) →
    m = a.1.retryWrites.serveReads .encode →
    total = (Tbl.find m.ctxs slot.toNat).elim n (fun c => match c.work with | .checkpoint _ _ n => n | _ => n) →
    exec (.checkpointEncodeComplete slot) s = .next (s.after (m.finish slot.toNat .ok 0 (v + total * 2 ^ 32)))) ∧
  (∀ (s : State) (region version : Nat) (g : Region) (ks : List Nat), Tbl.find s.mach.mem.regions region = some g → g.persisting.contains version = true →
    ks = s.mach.recsOf region version → ks.any (fun k => match Tbl.find s.mach.mem.recs k with
      | some x => x.state == PState.movingUp || x.state == PState.movingDown || x.sealEncode
      | none => false) = false → s.mach.t2Usable = true → (s.mach.needsFaulted (ks.map walkerOf)).1 = false →
    exec (.durablePersistenceComplete region version) s = .next (s.after ((s.mach.needsFaulted (ks.map walkerOf)).2.persist region version g ks))) ∧
  (∀ (s : State) (region version : Nat) (g : Region) (x : Ver), Tbl.find s.mach.mem.regions region = some g → Tbl.find g.vers version = some x →
    s.mach.retained region g version x = false →
    exec (.versionRetired region version) s = .next (s.after (s.mach.retire region version))) ∧
  (∀ (s : State) (extent : Nat) (x : Extent), Tbl.find s.mach.mem.extents extent = some x → x.inCullet = true →
    (x.heldLds = [] → x.pendingLds = [] → exec (.extentClean extent) s =
      .next (s.after ((s.mach.setMem (fun e => { e with extents := Tbl.del e.extents extent })).spaceFreed))) ∧
    ((x.heldLds ≠ [] ∨ x.pendingLds ≠ []) → exec (.extentClean extent) s =
      .next (s.after (s.mach.setExtent extent (fun x => { x with inCullet := false }))))) ∧
  (∀ (s : State) (ld : LdId) (b : LdBind), Tbl.find s.mach.mem.lds ld.toNat = some b →
    (b.lease = .live → exec (.leaseGrace ld) s = .next (s.after
      ((s.mach.setMem (fun e => { e with lds := Tbl.put e.lds ld.toNat { b with lease := .grace, since := s.mach.localTime } })).setIntx ld.toNat 1 3))) ∧
    ((b.lease = .grace ∨ b.lease = .cleanup) → exec (.leaseCleanup ld) s = .next (s.after (s.mach.leaseCleaned ld.toNat b))))

/-! ### Movements and streams (chapters 7 and 11) -/

/-- The loading of a movement, the accesses of its cores, its barriers and the end of its runs. -/
def Obligations.MovementEventsComplete : Prop :=
  (∀ (s : State) (slot : SlotNo) (v x : Movement) (m : Mod) (bs : List Byte), Tbl.find s.mach.mvs slot.toNat = some v → v.state = .loading →
    s.mach.readBuffer (4096 + slot.toNat) 0 0x10 v.owner v.partition v.buffer.1 v.buffer.2.1 v.buffer.2.2 = (m, .ready bs) →
    imageFault (Mem.pack 0 bs) bs.length (m.fab.deviceId != 0xFFFF) = none → m.check8 v (Mem.pack 0 bs) = none → m.check9 v (Mem.pack 0 bs) = none →
    m.fencedIn (Mem.pack 0 bs) = none → m.areaFits v = true → Tbl.find (m.takeArea slot.toNat).mvs slot.toNat = some x → x.imageAt ≠ none →
    exec (.loadChecksComplete slot) s = .next (s.after (((((m.takeArea slot.toNat).setMv slot.toNat (fun x => { x with
      state := .loaded, image := Mem.pack 0 bs, length := bs.length })).setCtx slot.toNat (fun c => { c with
        work := .none, progress := 1000 })).dropBufs (4096 + slot.toNat)).report slot.toNat .ok 0 0))) ∧
  (∀ (s : State) (core : CoreNo) (ticket : Nat) (st : StoreReq), (s.mach.core core.toNat).stores.find? (fun x => x.ticket = ticket) = some st →
    st.waiting = false →
    (s.mach.core core.toNat).stores.any (fun (x : StoreReq) => decide (x.ticket < ticket) && !x.waiting && x.region = st.region && x.pane = st.pane &&
      x.sel == st.sel) = false →
    (s.mach.core core.toNat).stores.any (fun (x : StoreReq) => decide (x.ticket < ticket) && x.image.isSome && x.waiting && x.region = st.region &&
      x.pane = st.pane && decide (0x8000 ≤ x.region)) = false →
    exec (.tileStoreCommit core ticket) s = .next (s.after (s.mach.submitStore core.toNat st))) ∧
  (∀ (s : State) (core : CoreNo) (ticket : Nat) (read : Media) (f : FetchReq),
    ((s.mach.core core.toNat).fetches.take 32).find? (fun f => f.ticket = ticket) = some f →
    (s.mach.core core.toNat).stores.any (fun (x : StoreReq) => decide (x.ticket < ticket) && x.region = f.region && x.sel == f.sel && x.pane = f.pane &&
      (x.image.isSome || x.offset / 2048 = f.tile)) = false → f.asked = false →
    (f.region < 0x8000 → exec (.tileFetchComplete core ticket read) s =
      .next (s.after (s.mach.fetchHere core.toNat f f.region f.sel f.pane read))) ∧
    (0x8000 ≤ f.region → ∀ (g : FabRegion) (e : StripeEntry), Tbl.find s.mach.fm.regions (f.region - 0x8000) = some g → g.entry f.pane = some e →
      (e.home ≠ s.mach.fab.deviceId ∨ g.accessor = true) → exec (.tileFetchComplete core ticket read) s =
        .next (s.after (s.mach.askTile core.toNat f (f.region - 0x8000) e.home g.stripeGen))) ∧
    (0x8000 ≤ f.region → ∀ (g : FabRegion) (e : StripeEntry), Tbl.find s.mach.fm.regions (f.region - 0x8000) = some g → g.entry f.pane = some e →
      e.home = s.mach.fab.deviceId → g.accessor = false → exec (.tileFetchComplete core ticket read) s =
        .next (s.after ((s.mach.reachPart (f.region - 0x8000) (s.mach.partSel f.sel) false).fetchHere core.toNat f g.localRegion (s.mach.partSel f.sel)
          (g.localPane e f.pane) read)))) ∧
  (∀ (s : State) (core : CoreNo) (reason : Byte) (slot : Nat) (v : Movement) (own : Status × Nat × Option (Nat × Nat)) (who rs : Nat) (st : Status)
    (place : Option (Nat × Nat)), s.mach.runOf core.toNat = some (slot, v) → (s.mach.core core.toNat).fault = some own → own.2.1 = reason.toNat →
    s.mach.faultOf v = some (who, st, rs, place) →
    exec (.runFault core reason) s = .next (s.after (s.mach.runFaulted slot v who st rs place))) ∧
  (∀ (s : State) (slot : SlotNo) (v : Movement), Tbl.find s.mach.mvs slot.toNat = some v → (v.state = .running ∨ v.state = .stopping) →
    (v.timeLimitMs ≠ 0 → exec (.timeLimitExpiry slot) s = .next (s.after (s.mach.runEnded slot.toNat v .timeout 5 none v.beat))) ∧
    (v.longBeatRaised = false → exec (.longBeat slot) s = .next (s.after (((s.mach.setMv slot.toNat (fun x => { x with
      longBeatRaised := true, longBeats := x.longBeats + 1 })).raise 0x0701 v.partition
        (v.beat + ((coreSet v.image).filter (fun c => !(s.mach.core c).atBarrier)).length * 65536) 0 (s.mach.idOf slot.toNat)).source 3))) ∧
    (v.stopMode ≠ 2 → s.mach.barrierMet v = true → s.mach.captureDue slot.toNat v = none →
      (v.beat + 1 = imgBeats v.image → exec (.barrierRelease slot) s = .next (s.after (s.mach.runEnded slot.toNat v .ok 0 none v.beat))) ∧
      (v.beat + 1 ≠ imgBeats v.image → v.stopMode = 1 →
        exec (.barrierRelease slot) s = .next (s.after (s.mach.runEnded slot.toNat v .aborted 6 none (v.beat + 1)))) ∧
      (v.beat + 1 ≠ imgBeats v.image → v.stopMode ≠ 1 → exec (.barrierRelease slot) s = .next (s.after
        (((((s.mach.each (coreSet v.image) (fun m c => m.setCore c (fun k => { k with atBarrier := false }))).setMv slot.toNat (fun x => { x with
          beat := v.beat + 1, beatStart := s.mach.localTime, longBeatRaised := false, hangDeclared := false })).traceBeat
            slot.toNat v (v.beat + 1)).boundarySteps (coreSet v.image)))))) ∧
    (v.stopMode ≠ 2 → s.mach.barrierMet v = true → ∀ c, s.mach.captureDue slot.toNat v = some c →
      exec (.barrierRelease slot) s = .next (s.after ((s.mach.setHang (fun h => { h with
        captures := h.captures.map (fun x => if x.ctxSlot = c.ctxSlot then { x with holding := true } else x) })).setCtx c.ctxSlot (fun x =>
          { x with pastPonr := true }))))) ∧
  (∀ (s : State) (slot : SlotNo) (v : Movement) (st : Status) (reason : Nat) (core : Option Nat), Tbl.find s.mach.mvs slot.toNat = some v →
    v.ending = some (st, reason, core) → v.state = .stopping → v.stopMode = 2 →
    exec (.movementStopped slot) s = .next (s.after (s.mach.runEnded slot.toNat v st reason core v.beat)))

/-- The windows of the Regulator, the tiles of paced streams and the drains of ingest streams. -/
def Obligations.StreamEventsComplete : Prop :=
  (∀ (s : State), exec .windowBoundary s = .next (s.after s.mach.newWindow)) ∧
  (∀ (s : State) (slot : SlotNo) (t : Stream) (i : Nat), Tbl.find s.mach.streams slot.toNat = some t → t.paced = true →
    (t.state = .open ∨ t.state = .stopping) →
    t.bound.elim false (fun b => decide (b ≤ t.nextFetch)) = false → t.tileIndex t.nextFetch = .ofNat i → t.region < 0x8000 →
    exec (.pacedTileFetch slot) s = .next (s.after (s.mach.pacedLocal slot.toNat t.nextFetch t.region t.sel (i / 32) (i % 32)))) ∧
  (∀ (s : State) (slot : SlotNo) (t : Stream) (n : Nat) (bytes : List Byte), Tbl.find s.mach.streams slot.toNat = some t →
    (t.state = .open ∨ t.state = .stopping) → t.fetched.find? (fun f => f.1 = t.next) = some (n, 1, bytes) →
    s.mach.overMax 5 (s.mach.holderOf slot.toNat / 16) (s.mach.holderOf slot.toNat) none = false →
    exec (.pacedTileWrite slot) s = .next (s.after (s.mach.pacedDelivered slot.toNat t bytes))) ∧
  (∀ (s : State) (slot : SlotNo) (t : Stream), Tbl.find s.mach.streams slot.toNat = some t → t.paced = true →
    (t.state = .open ∨ t.state = .stopping) → t.bound.elim false (fun b => decide (b ≤ t.cutoffs)) = false →
    (t.cutoffs < t.next → exec (.pacedCutoff slot) s = .next (s.after (s.mach.setStream slot.toNat (fun t => { t with cutoffs := t.cutoffs + 1 })))) ∧
    (t.next ≤ t.cutoffs → exec (.pacedCutoff slot) s = .next (s.after (s.mach.pacedHole slot.toNat t)))) ∧
  (∀ (s : State) (slot : SlotNo) (t : Stream), Tbl.find s.mach.streams slot.toNat = some t → t.paced = true →
    (t.state = .stopping → t.stopAt = some t.next → exec (.pacedStopRecord slot) s = .next (s.after
      ((((s.mach.pacedRecord slot.toNat t t.next 3 0 0).setStream slot.toNat (fun t => { t with state := .stopped, fetched := [] })).bulk slot.toNat
        0x0811 (t.next % 2 ^ 32) 0).syncLtr (s.mach.holderOf slot.toNat / 16)))) ∧
    (t.state = .open → t.total = some t.next → exec (.pacedEndRecord slot) s = .next (s.after
      ((((s.mach.pacedRecord slot.toNat t t.next 4 0 0).setStream slot.toNat (fun t => { t with state := .ended, fetched := [] })).bulk slot.toNat
        0x0812 (t.next % 2 ^ 32) 0).syncLtr (s.mach.holderOf slot.toNat / 16))))) ∧
  (∀ (s : State) (slot : SlotNo) (record : Nat) (t : Stream), Tbl.find s.mach.streams slot.toNat = some t →
    (∀ k x, (s.mach.stagedIn t).find? (fun x => x.1 = record) = some (k, x) →
      exec (.ingestDrainIdle slot record) s = .next (s.after (s.mach.drainPane k x))) ∧
    (s.mach.stagedIn t = [] → t.paced = false → t.state = .stopping → exec (.ingestDrainIdle slot record) s = .next (s.after
      ((s.mach.setStream slot.toNat (fun t => { t with state := .stopped })).bulk slot.toNat 0x0815 t.drained 0))))

/-! ### The links of the fabric (chapter 9) -/

/-- Training, control flits, data flits, idle flits, retries and the timers of a port have their effects on a port that has a link. -/
def Obligations.FabricLinkCommandsComplete : Prop :=
  (∀ (s : State) (port : BitVec 4) (mode lanes : Nat) (f : FabPort) (m : Mod), s.mach.fport port.toNat = f → f.state = .training →
    m = s.mach.setFport port.toNat (fun f => { f with
      mode := if mode = 2 ∧ f.speedCap = 0 ∧ s.mach.unitStep (0x5000 + port.toNat) = 0 then 2 else 1, lanes := lanes, miswired := false, retrain := none,
      rehello := false }) →
    (lanes ≠ 2 → lanes ≠ 4 → exec (.portTrainingComplete port mode lanes) s = .next (s.after ((s.mach.withReach (fun m =>
      (m.emptyPort port.toNat .down).setFport port.toNat (fun f => { f with miswired := true }))).logErr
        { unit := 0x5000 + port.toNat, code := 0x0502, sev := .unit, opn := .training }))) ∧
    ((lanes = 2 ∨ lanes = 4) → f.retrain = none → exec (.portTrainingComplete port mode lanes) s = .next (s.after
      (((m.setFport port.toNat (fun f => { f with state := .hello })).sendHello s.fuses.serial port.toNat).sendTimestamp port.toNat))) ∧
    ((lanes = 2 ∨ lanes = 4) → ∀ st, (st = .up ∨ st = .limited) → f.retrain = some st →
      (f.rehello = false → exec (.portTrainingComplete port mode lanes) s =
        .next (s.after ((if f.retryPending then m.askAgain port.toNat else m).portUp port.toNat st))) ∧
      (f.rehello = true → exec (.portTrainingComplete port mode lanes) s = .next (s.after
        ((((if f.retryPending then m.askAgain port.toNat else m).portUp port.toNat st).sendHello s.fuses.serial port.toNat).sendTimestamp port.toNat))))) ∧
  (∀ (s : State) (port : BitVec 4), (s.mach.fport port.toNat).linked = true →
    (∀ payload, exec (.hello port payload) s = .next (s.after ((s.mach.nextSeq port.toNat).onHello s.fuses.serial port.toNat payload))) ∧
    (∀ payload, exec (.key port payload) s = .next (s.after ((s.mach.nextSeq port.toNat).onKey port.toNat payload))) ∧
    (∀ payload, exec (.timestamp port payload) s = .next (s.after ((s.mach.nextSeq port.toNat).onTimestamp port.toNat payload))) ∧
    exec (.goodbye port) s = .next (s.after ((s.mach.nextSeq port.toNat).onGoodbye port.toNat)) ∧
    (∀ flit, flitGood flit = true → exec (.idleFlit port flit) s = .next (s.after (s.mach.ackFlit port.toNat (bits (leNat (flit.take 8)) 40 12)
      (bits (leNat (flit.take 8)) 32 3) (bits (leNat (flit.take 8)) 20 12)))) ∧
    exec (.ackTimer port) s = .next (s.after (s.mach.acknowledge port.toNat)) ∧
    exec (.fecAlignmentLost port) s = .next (s.after (s.mach.portLost port.toNat 0 (s.mach.fport port.toNat))))  ∧
  (∀ (s : State) (port : BitVec 4) (flit plain : List Byte) (h : Nat) (rx : LinkKey) (old : Option LinkKey) (m : Mod),
    (s.mach.fport port.toNat).linked = true → flitGood flit = true → h = leNat (flit.take 8) → bits h 52 12 = (s.mach.fport port.toNat).expected →
    (s.mach.fport port.toNat).unseal flit = some (plain, rx, old) →
    m = (s.mach.ackFlit port.toNat (bits h 40 12) (bits h 32 3) (bits h 20 12)).setFport port.toNat (fun g => { g with rxKey := rx, rxOld := old }) →
    (bits h 36 4 = 0 → exec (.dataFlit port flit) s = .next (s.after (m.flitTaken port.toNat (s.mach.fport port.toNat) (bits h 15 5) plain))) ∧
    (bits h 36 4 = 3 → exec (.dataFlit port flit) s = .next (s.after ((m.nextSeq port.toNat).onCtl s.fuses.serial port.toNat plain)))) ∧
  (∀ (s : State) (port : BitVec 4) (flit : List Byte) (seq n : Nat) (m : Mod), (s.mach.fport port.toNat).linked = true → flitGood flit = true →
    seq = bits (leNat (flit.take 8)) 40 12 →
    m = s.mach.ackNoted port.toNat ((seq + 4095) % 4096) (bits (leNat (flit.take 8)) 32 3) (bits (leNat (flit.take 8)) 20 12) →
    n = (if (m.fport port.toNat).gotRetry.1 = seq then (m.fport port.toNat).gotRetry.2 + 1 else 1) →
    (8 ≤ n → exec (.retryReq port flit) s = .next (s.after ((m.retryNoted port.toNat seq n).retrainPort port.toNat (s.mach.fport port.toNat).state))) ∧
    (n < 8 → exec (.retryReq port flit) s = .next (s.after (((m.retryNoted port.toNat seq n).replayFrom port.toNat seq).resume port.toNat)))) ∧
  (∀ (s : State) (port : BitVec 4), (s.mach.fport port.toNat).retrain.isSome = true →
    exec (.retrainTimeout port) s = .next (s.after (s.mach.portLost port.toNat 1 (s.mach.fport port.toNat)))) ∧
  (∀ (s : State) (port : BitVec 4), (s.mach.fport port.toNat).carries = true → (s.mach.fport port.toNat).encrypted = true →
    exec (.keyEpochChange port) s = .next (s.after (s.mach.setFport port.toNat (fun f => { f with txKey := f.txKey.next 0 f.seqNext })))) ∧
  (∀ (s : State) (port : BitVec 4) (v : Nat), (s.mach.fport port.toNat).state = .up →
    (List.range 8).find? (fun v => ((s.mach.fport port.toNat).egress.find? (fun p => p.vc = v)).elim false
      (fun p => decide ((s.mach.fport port.toNat).credits.getD v 0 < p.credits))) = some v →
    exec (.linkStall port) s = .next (s.after ((s.mach.fabCount 6).raise 0x0D04 64 (port.toNat + v * 256) 0 0)))

/-- Forwarding, presence, cable power, the clock and the triggers of the fabric. -/
def Obligations.FabricServiceCommandsComplete : Prop :=
  (∀ (s : State) (port : BitVec 4) (p : Packet) (m : Mod), (s.mach.fport port.toNat).arrived.find? (fun q => !q.isLocal && q.dest != s.mach.fab.deviceId) = some p →
    m = s.mach.setFport port.toNat (fun f => f.release p) →
    (s.mach.fab.deviceId = 0xFFFF → exec (.packetForward port) s = .next (s.after (m.dropUnaddressed port.toNat))) ∧
    (s.mach.fab.deviceId ≠ 0xFFFF → p.ttl ≤ 1 → exec (.packetForward port) s = .next (s.after (m.fabCount 2))) ∧
    (s.mach.fab.deviceId ≠ 0xFFFF → 1 < p.ttl → exec (.packetForward port) s = .next (s.after (m.route port.toNat { p with ttl := p.ttl - 1 })))) ∧
  (∀ (s : State) (port : BitVec 4) (present : Bool) (m : Mod), m = (s.mach.setPow (fun p => { p with
      fPrsnt := p.fPrsnt.set port.toNat present,
      cableFault := if present then p.cableFault.set (port.toNat / 4) false else p.cableFault })).syncPorts →
    (3 ≤ s.mach.pow.rung → exec (.fabPresenceChange port present) s = .next (s.after (m.setPow (fun p => { p with presenceLatched := true })))) ∧
    (s.mach.pow.rung < 3 → present = false → exec (.fabPresenceChange port present) s = .next (s.after (m.losePort port.toNat 4))) ∧
    (s.mach.pow.rung < 3 → present = true → (m.fport port.toNat).state = .down → m.canTrain port.toNat = true →
      exec (.fabPresenceChange port present) s = .next (s.after (m.setFport port.toNat (fun f => { f with state := .training }))))) ∧
  (∀ (s : State) (connector : BitVec 2) (m : Mod), (List.range 4).any (fun k => s.mach.pow.vcblOut.getD (4 * connector.toNat + k) false) = true →
    m = ((s.mach.setPow (fun p => { p with cableFault := p.cableFault.set connector.toNat true })).syncPorts).each (List.range 4)
      (fun m k => m.losePort (4 * connector.toNat + k) 5) →
    exec (.cablePowerFault connector) s = .next (s.after ((m.choose 16).2.logErr { unit := 0xB000 + (m.choose 16).1, code := 0x0B03, sev := .unit }))) ∧
  (∀ (s : State) (port : BitVec 4) (p : Packet) (m : Mod), s.mach.take port.toNat (fun q => q.op = 2 && q.isLocal && q.cls = 3) = some (p, m) →
    (waveNewer (p.num 0 2) s.mach.fab.lastWave = true ∨ s.mach.fab.synced = false) →
    exec (.sync port) s = .next (s.after ((m.correctFtc (p.num 0 2) (p.num 8 8 + (m.fport port.toNat).delayPs / 1000 + (s.mach.localTime - p.q.issued))).sendSync (p.num 0 2) port.toNat))) ∧
  (∀ (s : State) (port : BitVec 4) (p : Packet) (m m2 m3 : Mod), s.mach.take port.toNat (fun q => q.op = 6 && q.isLocal && q.cls = 3) = some (p, m) →
    (Tbl.find s.mach.svc.trace.lastTrigger (p.num 2 2)).elim true (waveNewer (p.num 0 2)) = true →
    m2 = m.setTrace (fun t => { t with lastTrigger := Tbl.put t.lastTrigger (p.num 2 2) (p.num 0 2) }) →
    m3 = (if bit s.mach.svc.trace.triggerMask 5 then m2.trigger 5 (p.num 0 2) (p.num 2 2) (p.num 8 8) else m2) →
    exec (.freezeTrigger port) s = .next (s.after (m3.sendLocalAll (m3.localPacket 0x06 0 p.payload) port.toNat))) ∧
  (∀ (s : State) (v n : Nat), s.mach.fab.syncWait = some (v, n) →
    exec .ftcSyncEdge s = .next (s.after (({ s.mach.setFab (fun f => { f with syncWait := none }) with ftc := v % 2 ^ 64 } : Mod).startWave n)) ∧
    exec .ftcSyncEdgeTimeout s = .next (s.after ((s.mach.setFab (fun f => { f with syncWait := none })).finish n .timeout 0 0))) ∧
  (∀ (s : State) (slot : SlotNo) (c : Ctx) (mask ms : Nat), Tbl.find s.mach.ctxs slot.toNat = some c → c.state = .active →
    c.work = .discover mask ms →
    exec (.fabDiscoverTimeout slot) s = .next (s.after (s.mach.finish slot.toNat .ok 0 (s.mach.portsUp mask + (mask - s.mach.portsUp mask) * 65536))))

/-- The timers of requests, seals, rounds and moves over the fabric. -/
def Obligations.FabricTimerCommandsComplete : Prop :=
  (∀ (s : State) (fregion unit : Nat) (h : Rehome) (f : FabRegion), s.mach.rehomeOf fregion = some h → Tbl.find s.mach.fm.regions fregion = some f →
    h.phase = 3 → h.unit = unit → f.sealing = none →
    exec (.rehomeUnitCommit fregion unit) s = .next (s.after (((((s.mach.setRehome fregion (fun h => { h with
      phase := 0, unit := h.unit + 1, left := h.left - 1, moved := h.moved + 1 })).writeEntry fregion unit (f.stripeGen + 1)
        { home := h.dest, gen := f.stripeGen + 1, localUnit := h.localUnit, moving := false }).rehomeRun fregion).runSeals fregion)))) ∧
  (∀ (s : State) (token : Nat) (w : VopWait), Tbl.find s.mach.fm.vops token = some w → w.op ≠ 0x10 → w.op ≠ 0x1C →
    exec (.versionOpTimeout token) s = .next (s.after (s.mach.vopLate token w))) ∧
  (∀ (s : State) (tag : Nat) (q : RemoteReq), s.mach.requestOf tag = some q → q.sent = true →
    exec (.remoteRequestTimeout tag) s = .next (s.after (s.mach.requestLate tag q))) ∧
  (∀ (s : State) (fregion d : Nat) (rest : List Nat) (f : FabRegion) (x : FabSeal), Tbl.find s.mach.fm.regions fregion = some f → f.sealing = some x →
    x.awaited = d :: rest → exec (.sealAckTimeout fregion) s = .next (s.after (s.mach.sealLate fregion f x d))) ∧
  (∀ (s : State) (fregion : Nat) (f : FabRegion) (p : Nat × Nat), Tbl.find s.mach.fm.regions fregion = some f → f.registrar ≠ s.mach.fab.deviceId →
    f.prepared = some p → exec (.preparedSealTimeout fregion) s = .next (s.after (s.mach.sealAbort fregion p.1))) ∧
  (∀ (s : State) (tree round : Nat) (t : Tree) (r : TreeRound) (m : Mod), Tbl.find s.mach.fm.trees tree = some t → t.round round = some r →
    m = (s.mach.endRound tree round).setTree tree (fun t => { t with dead := t.dead ++ [round] }) →
    exec (.treeRoundTimeout tree round) s = .next (s.after (m.each m.cores (fun m c =>
      if c.2.waits.any (fun w => match w with | .reduce t r _ _ _ => t = tree && r = round | _ => false) then m.failCore c.1 .aborted 0x0B none else m))))

/-! ### Integrity, field test and observation (chapters 15 to 17) -/

/-- Heals, scrub passes, kernels, link margins, hangs, dumps, captures and the work of contexts go on. -/
def Obligations.ServiceEventsComplete : Prop :=
  (∀ (s : State) (record : Nat) (read : Media) (h : Heal) (x : PaneRec) (g : Region), s.mach.svc.heals.find? (fun h => h.record = record) = some h →
    Tbl.find s.mach.mem.recs record = some x → Tbl.find s.mach.mem.regions x.region = some g → h.tiles.length = 32 → h.frame.sectors ≠ 0 →
    exec (.healCommit record read) s = .next (s.after ((s.mach.healed record h x g).healRead record read))) ∧
  (∀ (s : State) (record : Nat) (h : Heal), s.mach.svc.heals.find? (fun h => h.record = record) = some h →
    exec (.healTimeout record) s = .next (s.after (s.mach.healGivenUp record h 4))) ∧
  (∀ (s : State) (corrected : Nat) (found : List (Nat × Nat)) (p : ScrubPass) (c : Ctx), s.mach.svc.scrub = some p → Tbl.find s.mach.ctxs p.ctxSlot = some c →
    (c.state ≠ .cancelling → (s.mach.scrubList p).any (fun v => v.2.elim false (fun x => x.2.state == .movingUp || x.2.state == .movingDown ||
        (p.heal && s.mach.svc.heals.any (fun h => h.record = x.1)))) = false →
      exec (.scrubPassComplete corrected found) s = .next (s.after (s.mach.endScrub p c corrected found (s.mach.scrubList p)))) ∧
    (c.state = .cancelling → exec (.scrubPassComplete corrected found) s = .next (s.after
      ((s.mach.choose ((s.mach.scrubList p).length + 1)).2.endScrub p c corrected found
        ((s.mach.scrubList p).take (s.mach.choose ((s.mach.scrubList p).length + 1)).1))))) ∧
  (∀ (s : State) (core : CoreNo) (n : Nat), (s.mach.kernels.find? (fun x => decide ((s.mach.coreTest core.toNat).nextKernel ≤ x))).or s.mach.kernels.head? = some n →
    s.mach.test.enabled = true → (s.mach.coreTest core.toNat).fenced = false → s.mach.boot.readiness = .ready →
    exec (.kernelDue core) s = .next (s.after (s.mach.setCoreTest core.toNat (fun k => { k with
      due := k.due ++ [(n, s.mach.ftc)], nextKernel := (n + 1) % 48 })))) ∧
  (∀ (s : State) (core : CoreNo), (s.mach.coreTest core.toNat).due ≠ [] → s.mach.pow.rung < 2 →
    exec (.kernelDeferExpiry core) s = .next (s.after (s.mach.setCoreTest core.toNat (fun k => { k with deferred := true })))) ∧
  (∀ (s : State) (j : Nat × Nat × Nat), s.mach.test.running = [] → s.mach.jobs.find? (fun j => s.mach.idleSlot j.1 && s.mach.mayTest j) = some j →
    exec .kernelRunStart s = .next (s.after (s.mach.beginRun j))) ∧
  (∀ (s : State) (core : CoreNo) (slot pc : Nat) (v : Movement) (d : Desc) (j : Nat × Nat × Nat), s.mach.runOf core.toNat = some (slot, v) →
    (s.mach.core core.toNat).atBarrier = false → (s.mach.core core.toNat).pc = pc + 1 → descAt v.image core.toNat pc = some d → d.op = 0x04 →
    v.stopMode = 0 → s.mach.test.running = [] →
    s.mach.jobs.find? (fun (j : Nat × Nat × Nat) => j.1 == core.toNat && s.mach.mayTest j && (j.2.2 == 1 || (j.2.2 == 0 && (s.mach.coreTest core.toNat).deferred) ||
      (j.2.2 == 2 && s.mach.test.testRuns.any (fun t => t.mode != 2 && t.todo.head? == some (j.1, j.2.1))))) = some j →
    exec (.kernelInsertion core) s = .next (s.after ((s.mach.beginRun j).tally 4 (b2n (j.2.2 = 0))))) ∧
  (∀ (s : State) (core : CoreNo) (result : List Byte) (k kind : Nat) (rest : List (Nat × Nat × Nat)), s.mach.test.running = (core.toNat, k, kind) :: rest →
    exec (.kernelRunEnd core result) s = .next (s.after (s.mach.kernelResult core.toNat k kind result))) ∧
  (∀ (s : State) (port : BitVec 4) (corrected total : Nat) (m : Mod), (s.mach.fport port.toNat).linked = true →
    m = s.mach.setFport port.toNat (fun f => { f with corrected := f.corrected + corrected }) →
    (corrected * 10000 ≤ total → exec (.fecMargin port corrected total) s = .next (s.after m)) ∧
    (total < corrected * 10000 → exec (.fecMargin port corrected total) s = .next (s.after (m.fecMarginPassed port corrected)))) ∧
  (∀ (s : State) (slot : SlotNo) (v : Movement), Tbl.find s.mach.mvs slot.toNat = some v →
    (v.state = .running ∧ v.hangDeclared = false ∨ v.state = .stopping ∧ v.hangStop = false) →
    exec (.hangDeclare slot) s = .next (s.after (s.mach.hangDeclared slot.toNat v))) ∧
  (∀ (s : State) (dump : Nat), exec (.dumpWriteComplete dump) s = .next (s.after (s.mach.setHang (fun h => { h with
    dumps := h.dumps.map (fun d => if d.id = dump then { d with written := true } else d) })))) ∧
  (∀ (s : State) (slot : SlotNo) (v : Movement) (c : Capture), Tbl.find s.mach.mvs slot.toNat = some v →
    s.mach.svc.hang.captures.find? (fun c => c.movement = slot.toNat && c.holding) = some c →
    exec (.captureTaken slot) s = .next (s.after (s.mach.captured slot.toNat v c))) ∧
  (∀ (s : State) (slot : SlotNo) (c : Ctx), s.mach.pow.phase = .on → s.mach.pow.modReset = false → Tbl.find s.mach.ctxs slot.toNat = some c →
    (c.state = .active → exec (.contextWorkComplete slot) s = .next { s with
      mach := (s.mach.workStep s.fuses slot.toNat c).2.settle, fuses := (s.mach.workStep s.fuses slot.toNat c).1 }) ∧
    (c.state = .cancelling → exec (.contextWorkComplete slot) s = .next (s.after (s.mach.cancelStep slot.toNat c))))

/-! ### The block as a whole -/

/-- A step with a command at the front of the queue is that command's effect, with the queue's rest left waiting. -/
def Obligations.StepRunsFrontCommand : Prop :=
  ∀ (s : State) (c : Instr) (rest : List Instr), step { s with pending := c :: rest } = exec c { s with pending := rest }

/-- With no command waiting, a step is the passing of time (the model's choice: log 1). The FTC and the local counter advance together except
where a correction holds the FTC back; at P3 and P4 a whole tick of the low clock passes, with its fraction carried in 64ths of a nanosecond. The
wear budget of T2 refills, and running counters of cycles and of bytes inside the NoC gain what they gain, which only the records of observation
show; nothing else changes, and without power nothing changes at all. -/
def Obligations.EmptyQueueLetsTimePass : Prop :=
  ∀ s : State, s.pending = [] →
    (s.mach.pow.phase ≠ .on → step s = .next s) ∧
    (s.mach.pow.phase = .on → ∃ (v : Service) (ix : Nat),
      (s.mach.svc.ctr.tbl.filter (fun e => (e.2.event == 0x0002 || decide (0x0010 ≤ e.2.event ∧ e.2.event ≤ 0x0012)) && !s.mach.ctrFrozen e.1) = [] →
        v = s.mach.svc ∧ ix = s.mach.freeIx) ∧
      (s.mach.pow.rung < 3 → (s.mach.fab.absorb = 0 ∨ s.mach.localTime % 2 = 0) →
        step s = .next { s with mach := { s.mach with
          ftc := (s.mach.ftc + 1) % 2 ^ 64, localTime := (s.mach.localTime + 1) % 2 ^ 64, svc := v, freeIx := ix
          t2 := { s.mach.t2 with wearSpent := s.mach.t2.wearSpent - s.mach.wearRefill } } }) ∧
      (s.mach.pow.rung < 3 → 0 < s.mach.fab.absorb → s.mach.localTime % 2 = 1 → s.mach.ftc < 2 ^ 64 →
        step s = .next { s with mach := { s.mach with
          localTime := (s.mach.localTime + 1) % 2 ^ 64, fab := { s.mach.fab with absorb := s.mach.fab.absorb - 1 }, svc := v, freeIx := ix
          t2 := { s.mach.t2 with wearSpent := s.mach.t2.wearSpent - s.mach.wearRefill } } }) ∧
      (3 ≤ s.mach.pow.rung → ∃ n k : Nat, 64 * n + k = 64 * 30517 + 37 + s.mach.phase ∧ k < 64 ∧
        step s = .next { s with mach := { s.mach with
          ftc := (s.mach.ftc + n - min s.mach.fab.absorb (n / 2)) % 2 ^ 64, localTime := (s.mach.localTime + n) % 2 ^ 64, phase := k
          fab := { s.mach.fab with absorb := s.mach.fab.absorb - min s.mach.fab.absorb (n / 2) }, svc := v, freeIx := ix
          t2 := { s.mach.t2 with wearSpent := s.mach.t2.wearSpent - s.mach.wearRefill * n } } }))

/-- Every step goes on: no command ends in a fault or is refused, and it takes exactly one command from the front of the queue. -/
def Obligations.EveryStepGoesOn : Prop := ∀ s : State, Safe s ∧ ∀ t, step s = .next t → t.pending = s.pending.tail

/-- What the spec says that a cold reset leaves: no channel bound, no context, no counter running, no trace armed, no region, every fabric port
DISABLED and no device ID, readiness BOOTING, and the defaults of the settings. -/
def Obligations.ColdResetLeaves : Prop :=
  State.reset.pending = [] ∧
  -- R55, R56, R84: channels and contexts
  State.reset.mach.chans = [] ∧ State.reset.mach.ctxs = [] ∧ State.reset.mach.mvs = [] ∧ State.reset.mach.streams = [] ∧
  -- R523: counters, trace, hang rings, triggers
  State.reset.mach.svc.ctr.tbl = [] ∧ State.reset.mach.svc.trace.carveMiB = 0 ∧ State.reset.mach.svc.trace.state = .idle ∧
  State.reset.mach.svc.trace.triggerMask = 0 ∧ State.reset.mach.svc.hang.classMask = 0 ∧
  -- R490: numbering of error records starts at 1
  State.reset.mach.svc.err.recs = [] ∧ State.reset.mach.svc.err.nextSeq = 1 ∧
  -- R297, R318: the fabric
  (∀ p : BitVec 4, (State.reset.mach.fport p.toNat).state = .disabled) ∧ State.reset.mach.fab.deviceId = 0xFFFF ∧ State.reset.mach.fab.routes = [] ∧
  -- R360, R499, R501, R570: defaults
  State.reset.mach.reg.windowNs = 4000 ∧ State.reset.mach.reg.ageLimitNs = 20000 ∧ State.reset.mach.test.roundHours = 24 ∧
  State.reset.mach.test.deferMinutes = 240 ∧ State.reset.mach.pow.hostLimit = 1150 ∧
  -- R579, R590: bring-up
  State.reset.mach.boot.readiness = .booting ∧ State.reset.mach.boot.recovery = false ∧
  -- R439, R446, R453 to R455, R637: the functions of the LDs
  (∀ ld : LdId, (State.reset.mach.ld ld.toNat).memoryActive = false ∧ (State.reset.mach.ld ld.toNat).chnPend = [] ∧
    (State.reset.mach.ld ld.toNat).decoders.all (fun d => !d.committed) = true ∧
    (State.reset.mach.ld ld.toNat).f0.intxStatus = 0 ∧ (State.reset.mach.ld ld.toNat).f0.intxEnable = 0 ∧
    (State.reset.mach.ld ld.toNat).f1.intxStatus = 0 ∧ (State.reset.mach.ld ld.toNat).f1.intxEnable = 0)

/-- Every fuse of `a` that is burnt is burnt in `b`, and what the factory fused is the same. -/
def Sys2Proof.burntFrom (a b : Fuses) : Prop :=
  b.serial = a.serial ∧ b.vendorRootDigest = a.vendorRootDigest ∧ b.vendorId = a.vendorId ∧ b.hwRev = a.hwRev ∧
  (a.ownerSet = true → b.ownerSet = true ∧ b.ownerDigest = a.ownerDigest) ∧ (a.lcOperational = true → b.lcOperational = true) ∧
  (a.lcReturn = true → b.lcReturn = true) ∧ (a.lcEnd = true → b.lcEnd = true) ∧ a.debugCount ≤ b.debugCount ∧ a.antiRollback ≤ b.antiRollback

/-- Fuses are only ever burnt: whatever was burnt at some moment is burnt after every later step, and the owner's digest stands once it is set. -/
def Obligations.FusesOnlyBurn : Prop := ∀ (f : Fuses) (s t : State), burntFrom f s.fuses → step s = .next t → burntFrom f t.fuses

/-- The reset state's fuses are what burning starts from. -/
def Obligations.FusesAtReset : Prop := burntFrom State.reset.fuses State.reset.fuses ∧ State.reset.fuses.lifecycle = 0

/-- The life cycle that the fuses give never goes back: END stays, RETURN only ends, a module once in service is never PROVISIONED or BLANK again,
and one with an owner is never BLANK again. -/
def Obligations.LifeCycleNeverGoesBack : Prop :=
  ∀ s t : State, step s = .next t →
    (s.fuses.lifecycle = 5 → t.fuses.lifecycle = 5) ∧
    (s.fuses.lifecycle = 4 → t.fuses.lifecycle = 4 ∨ t.fuses.lifecycle = 5) ∧
    (s.fuses.lifecycle = 2 ∨ s.fuses.lifecycle = 3 → t.fuses.lifecycle ≠ 0 ∧ t.fuses.lifecycle ≠ 1) ∧
    (s.fuses.lifecycle ≠ 0 → t.fuses.lifecycle ≠ 0)

/-- Only the boot's completion and the commands that the root of trust signs or works off burn a fuse; every other command leaves all fuses alone. -/
def Obligations.FewCommandsBurnFuses : Prop :=
  ∀ (c : Instr) (s t : State), exec c s = .next t → t.fuses ≠ s.fuses →
    c = .readyEntry ∨ (∃ slot, c = .contextWorkComplete slot) ∨ (∃ ch, c = .ownerKeyInstall ch)

/-- A packet whose fields have the widths of its header, and whose payload is whole units and not too long, reads back from its bytes with every
field at its value; its bytes are the 16 of the header, with each field at its place and the reserved bits zero, and then the payload. -/
def Obligations.PacketsReadBack : Prop :=
  ∀ p : Packet, p.dest < 2 ^ 14 → p.src < 2 ^ 14 → p.srcPart < 64 → p.cls < 4 → p.ttl < 256 → p.flow < 2 ^ 16 → p.op < 256 → p.tag < 2 ^ 32 →
    p.payload.length % 16 = 0 → p.payload.length ≤ 2224 → p.q = {} →
    Packet.ofBytes p.bytes = some p ∧
    p.bytes = leBytes 16 (p.dest * 2 ^ 114 + p.src * 2 ^ 100 + p.srcPart * 2 ^ 94 + p.cls * 2 ^ 92 + b2n p.esc * 2 ^ 91 + b2n p.poison * 2 ^ 90 +
      b2n p.isLocal * 2 ^ 89 + p.ttl * 2 ^ 80 + p.flow * 2 ^ 64 + p.op * 2 ^ 56 + p.payload.length / 16 * 2 ^ 48 + p.tag) ++ p.payload

/-- Multi-byte fields are little-endian: a number read back from its bytes is its value modulo their width, bytes are the bytes of the number that
they spell, and byte i has the weight 256 to the power i. -/
def Obligations.LittleEndianFields : Prop :=
  (∀ n v : Nat, leNat (leBytes n v) = v % 256 ^ n) ∧ (∀ bs : List Byte, leBytes bs.length (leNat bs) = bs) ∧
  (∀ (bs : List Byte) (i : Nat), leNat bs / 256 ^ i % 256 = (bs.getD i 0).toNat)

/-! ### Rules of the spec, and what commands leave alone -/

/-- A channel's page belongs to its owner (R52, R53). An open of a bound channel has no effect on it, and of two the first binds. What another
requester writes is discarded, at every offset; what it reads is zero at every offset, but that CHN_CTRL reads OPEN = 1 and MINE = 0. A free
page reads zero; a write to it other than OPEN = 1 to CHN_CTRL is discarded, and nothing of it is kept for the channel's next owner. No access
to a page is answered as an unsupported request. -/
def Obligations.ChannelPagesBelongToOwners : Prop :=
  (∀ (m : Mod) (who : Owner) (ch off : Nat) (data : List Byte) (n : Nat) (c : Chan), Tbl.find m.chans ch = some c → c.owner ≠ who →
    m.pageWrites who ch off data n = m ∧
    (8 ≤ off → m.pageRead who ch off n = List.replicate n 0) ∧ m.pageRead who ch 0 (n + 1) = 1 :: List.replicate n 0) ∧
  (∀ (m : Mod) (who : Owner) (ch off : Nat) (data : List Byte) (n : Nat), Tbl.find m.chans ch = none →
    m.pageRead who ch off n = List.replicate n 0 ∧ (off ≠ 0 ∨ leNat (data.take 4) % 2 = 0 → off % 4 = 0 → m.pageWrites who ch off data n = m) ∧
    (leNat (data.take 4) % 2 = 1 → 4 ≤ data.length → m.pageWrites who ch 0 (data.take 4) (n + 1) =
      { m with chans := Tbl.put m.chans ch (Chan.init who) })) ∧
  (∀ (s : State) (ch : ChanNo) (who : Owner), reaches s.mach who → Tbl.find (touched s.mach who).chans ch.toNat ≠ none →
    exec (.openChannel ch who) s = .next (s.after (touched s.mach who))) ∧
  (∀ (s : State) (ch : ChanNo) (who : Owner) (value : BitVec 64), reaches s.mach who →
    (∀ c, Tbl.find (touched s.mach who).chans ch.toNat = some c → c.owner ≠ who) →
    exec (.closeChannel ch who) s = .next (s.after (touched s.mach who)) ∧
    exec (.chnErrClear ch who value) s = .next (s.after (touched s.mach who)) ∧
    exec (.resultSlotWrite ch who) s = .next (s.after (touched s.mach who)) ∧
    exec (.cringTailWrite ch who value) s = .next (s.after (touched s.mach who))) ∧
  (∀ (s : State) (ch : ChanNo) (who : Owner), reaches s.mach who →
    (∀ c, Tbl.find (linked s.mach who).chans ch.toNat = some c → c.owner ≠ who) →
    exec (.ringDoorbell ch who) s = .next (s.after (linked s.mach who)))

/-- Until the module is ready, IDENTIFY and GET_STATUS pass the readiness check and every other opcode completes with NOT_READY, whatever its
slot holds (R77); a module in recovery or at the END of its life admits a few more by their own rules. Every mailbox row is `State.mailbox` of
its opcode. -/
def Obligations.NotReadyBeforeReady : Prop :=
  ∀ (s : State) (ch : ChanNo) (op : Nat) (form : Mem → Bool) (cmd : Cmd) (c : Chan) (fl : InFlight),
    s.mach.servable ch.toNat op form = some (c, fl) → s.mach.boot.readiness = .booting → s.mach.boot.recovery = false → s.mach.boot.lifecycle ≠ 5 →
    slotOpcode (argSlot fl.slot) = op →
    (op ≠ 0x0000 → op ≠ 0x0001 → s.mailbox ch op form cmd = .next (s.after
      (((s.mach.start ch.toNat).post ch.toNat { status := .notReady }).serveUnknown s.mach.gaffer.order.length))) ∧
    (op = 0x0000 ∨ op = 0x0001 → (s.mach.start ch.toNat).turnedAway ((s.mach.start ch.toNat).reqOf s.fuses ch.toNat c fl) ≠ some { status := .notReady })

/-- Everything that the module works on, but for channels, contexts, records of observation, interrupts, queues of the links, what the Regulator
has counted for the movements, and outputs. -/
def Sys2Proof.sameWork (a b : Mod) : Prop :=
  b.n128 = a.n128 ∧ b.ftc = a.ftc ∧ b.localTime = a.localTime ∧ b.mem.regions = a.mem.regions ∧ b.mem.recs = a.mem.recs ∧
  b.mem.extents = a.mem.extents ∧ b.mem.lds = a.mem.lds ∧ b.mem.heldWrites = a.mem.heldWrites ∧ b.mem.cows = a.mem.cows ∧ b.cores = a.cores ∧
  Tbl.mapV b.mvs (fun _ x => { x with spends := [] }) = Tbl.mapV a.mvs (fun _ x => { x with spends := [] }) ∧ b.streams = a.streams ∧ b.test = a.test ∧ b.fm = a.fm ∧ b.t0 = a.t0 ∧ b.t1 = a.t1 ∧ b.t2 = a.t2 ∧
  b.boot = a.boot ∧ b.fab.deviceId = a.fab.deviceId ∧ b.fab.routes = a.fab.routes

/-- A query leaves all work, the power state and every fuse as they were, whatever its channel and its arguments. -/
def Obligations.QueriesChangeNoWork : Prop :=
  ∀ (ch : ChanNo) (s t : State) (c : Instr),
    c = .identify ch ∨ c = .getStatus ch ∨ c = .getCapabilities ch ∨ c = .getTime ch ∨ c = .channelInfo ch ∨ c = .contextStatus ch ∨
    c = .contextList ch ∨ c = .partitionQuery ch ∨ c = .leaseQuery ch ∨ c = .regionQuery ch ∨ c = .capacityQuery ch ∨
    c = .residencyQuery ch ∨ c = .tableQuery ch ∨ c = .movementStatus ch ∨ c = .streamStatus ch ∨ c = .regQuery ch ∨ c = .poisonQuery ch ∨
    c = .errorLogRead ch ∨ c = .unitStateQuery ch ∨ c = .counterRead ch ∨ c = .fabQuery ch ∨ c = .powerQuery ch →
    exec c s = .next t → sameWork s.mach t.mach ∧ t.mach.pow = s.mach.pow ∧ t.fuses = s.fuses

/-- A write to a channel's page registers or to an interrupt register leaves all work as it was, at P0 and P1, where a host's access wakes
nothing, and from every requester that is not a host. -/
def Obligations.RegistersChangeNoWork : Prop :=
  ∀ (s t : State) (c : Instr),
    ((∃ ch who, (who.ldNo = none ∨ s.mach.pow.rung ≤ 1) ∧ (c = .openChannel ch who ∨ c = .closeChannel ch who ∨ c = .resultSlotWrite ch who ∨
        (∃ v, c = .chnErrClear ch who v ∨ c = .cringTailWrite ch who v))) ∨
     (s.mach.pow.rung ≤ 1 ∧ ∃ ld v, (∃ fn, c = .intxStatusClear ld fn v ∨ c = .intxEnableWrite ld fn v) ∨ ∃ w, c = .intxChnPendClear ld w v)) →
    exec c s = .next t → sameWork s.mach t.mach ∧ t.fuses = s.fuses

/-- After its registers have been brought up to date, a function has INTx asserted exactly while some bit is set in its INTX_STATUS and its
INTX_ENABLE and Interrupt Disable is clear; each change of that condition sends exactly one message, once its link is back in L0, and no change sends none (R453). -/
def Obligations.InterruptsFollowTheirBits : Prop :=
  ∀ (m : Mod) (l fn : Nat), fn < 2 →
    ((m.syncIntx l fn).ld l).intxCond fn = (m.ld l).intxCond fn ∧
    (((m.syncIntx l fn).ld l).func fn).asserted = ((m.ld l).intxCond fn && !((m.ld l).func fn).intDisable) ∧
    (((m.ld l).func fn).asserted = ((m.ld l).intxCond fn && !((m.ld l).func fn).intDisable) → m.syncIntx l fn = m) ∧
    (((m.ld l).func fn).asserted ≠ ((m.ld l).intxCond fn && !((m.ld l).func fn).intDisable) →
      ∃ wakes : List Output, wakes.all (fun o => match o with | .intx _ _ _ => false | _ => true) = true ∧
        (m.syncIntx l fn).out = m.out ++ wakes ++ [.intx l fn ((m.ld l).intxCond fn && !((m.ld l).func fn).intDisable)])

/-- Bytes stored with their enables into canonical memory read back, every other byte reads as before, and the memory stays canonical. -/
def Obligations.StoredBytesReadBack : Prop :=
  ∀ (img : Mem) (a : Nat) (bs : List Byte) (en : List Bool), Mem.wf img = true →
    Mem.wf (mergeBytes img a bs en) = true ∧
    (∀ i, i < bs.length → Mem.rd (mergeBytes img a bs en) (a + i) = if en.getD i true then bs.getD i 0 else Mem.rd img (a + i)) ∧
    (∀ j, j < a ∨ a + bs.length ≤ j → Mem.rd (mergeBytes img a bs en) j = Mem.rd img j)

/-- A host's write to a pane that stands in a raw frame of T0 stores its enabled bytes at its line of that pane's record, and no other record's
contents change. The write is counted and its staging noted first, which changes no contents. -/
def Obligations.HostWritesReachTheirLine : Prop :=
  (∀ (m : Mod) (w : HeldWrite) (j : Nat),
    (Tbl.find ((m.countWrite w).noteStaging w).mem.recs j).map (fun x => x.img) = (Tbl.find m.mem.recs j).map (fun x => x.img)) ∧
  (∀ (s : State) (ld : LdId) (hpa : BitVec 64) (tag : BitVec 16) (data : List Byte) (enable : BitVec 64) (poison : Bool) (m : Mod) (dpa r pane : Nat)
    (sel : VerSel) (win : Option Nat) (b : LdBind) (g : Region) (e : Nat) (en : List Bool) (c : Instr) (w : HeldWrite) (k : Nat) (x : PaneRec),
    (c = .memWr ld hpa tag data poison ∧ en = [] ∨
      c = .memWrPtl ld hpa tag data enable poison ∧ en = (List.range 64).map (fun i => bit enable.toNat i)) →
    s.mach.cxlUp ld.toNat = true →
    m = (s.mach.hostTraffic ld.toNat).count 0x0009 (0x6000 + ld.toNat / 16) ld.toNat (s.mach.ldPart ld.toNat) 64 →
    m.decodeHpa ld.toNat (hpa.toNat / 64 * 64) = some dpa → m.reachOf ld.toNat dpa = some (r, sel, pane, win) →
    Tbl.find m.mem.lds ld.toNat = some b → b.lease ≠ .cleanup → m.writesStopped = false → (∀ v, sel ≠ .sealed v) → r < 0x8000 →
    Tbl.find m.mem.regions r = some g → (win ≠ none ∨ g.versioning = false) →
    w = { src := .host ld.toNat tag.toNat, region := r, sel := sel, pane := pane, offset := dpa / 64 % 1024 * 64,
          bytes := (data ++ List.replicate 64 0).take 64, enable := en, poisoned := poison, wait := .frame } →
    m.writeWaits w = none → m.heldBack w = false → m.mem.heldWrites.find? (fun h => h.samePane w) = none →
    ((m.countWrite w).noteStaging w).recAt r sel pane = some (k, x) → ((m.countWrite w).noteStaging w).sharedFor sel k x = false →
    ((m.countWrite w).noteStaging w).mem.heldWrites = m.mem.heldWrites → Tbl.find ((m.countWrite w).noteStaging w).mem.regions r = some g →
    (g.extentAt pane) = some e → x.sealEncode = false → x.state = .stable → x.tier = .t0 → x.form = .raw →
    ((m.countWrite w).noteStaging w).t0.offline = [] →
    ∃ t, exec c s = .next t ∧ ∀ j, (Tbl.find t.mach.mem.recs j).map (fun x => x.img) =
      if j = k then some (mergeBytes x.img (dpa / 64 % 1024 * 64) ((data ++ List.replicate 64 0).take 64) en)
      else (Tbl.find m.mem.recs j).map (fun x => x.img))

/-- A committed decoder with 2^w ways and granularity 2^g maps an HPA in its range by R447, ignoring the interleave position bits, and no other
HPA. -/
def Obligations.DecoderMapping : Prop :=
  ∀ (d : HdmDecoder) (hpa : Nat),
    (d.committed = true → d.base ≤ hpa → hpa < d.base + d.size →
      d.map hpa = some (d.dpaBase + ((hpa - d.base) >>> (d.granLog2 + d.waysLog2)) <<< d.granLog2 + (hpa - d.base) % 2 ^ d.granLog2)) ∧
    (d.committed = false ∨ hpa < d.base ∨ d.base + d.size ≤ hpa → d.map hpa = none) ∧
    (∀ hpa2, d.committed = true → d.base ≤ hpa → hpa < d.base + d.size → d.base ≤ hpa2 → hpa2 < d.base + d.size →
      (hpa - d.base) / 2 ^ (d.granLog2 + d.waysLog2) = (hpa2 - d.base) / 2 ^ (d.granLog2 + d.waysLog2) →
      (hpa - d.base) % 2 ^ d.granLog2 = (hpa2 - d.base) % 2 ^ d.granLog2 → d.map hpa = d.map hpa2)

/-- The anti-rollback count is the number of bits burnt. When the module reaches READY under an image whose SECURITY_VERSION exceeds the count,
bits are burnt until they are equal, and ROLLBACK_ADVANCED is logged; else nothing is burnt. From then on no image of a lower
SECURITY_VERSION verifies, in either slot (R585). -/
def Obligations.RollbackAdvances : Prop :=
  (∀ (m : Mod) (fz : Fuses) (i : Nat), m.boot.booted = some i →
    (fz.antiRollback < (m.boot.slots.getD i FwSlot.init).security →
      m.advanceRollback fz = ({ fz with antiRollback := (m.boot.slots.getD i FwSlot.init).security },
        m.logErr { unit := 0x9000, code := 0x0904, sev := .info, detail := (m.boot.slots.getD i FwSlot.init).security })) ∧
    ((m.boot.slots.getD i FwSlot.init).security ≤ fz.antiRollback → m.advanceRollback fz = (fz, m))) ∧
  (∀ (s : State) (i : Nat), s.mach.boot.readiness = .booting → s.mach.boot.step = 3 → s.mach.boot.recovery = false → s.mach.boot.lifecycle ≠ 5 →
    s.mach.boot.sweepDone = true → s.mach.boot.journalDone = true → s.mach.t1.any (fun p => p.state = .training) = false →
    s.mach.t2.saved.failed = false → s.mach.boot.booted = some i →
    ∃ t, exec .readyEntry s = .next t ∧ t.mach.boot.readiness = .ready ∧
      t.fuses.antiRollback = max s.fuses.antiRollback (s.mach.boot.slots.getD i FwSlot.init).security) ∧
  (∀ (m : Mod) (fz : Fuses) (i : Nat), (m.boot.slots.getD i FwSlot.init).security < fz.antiRollback → m.slotOk fz i = false) ∧
  (∀ (s : State) (slot : BitVec 1), (s.mach.boot.slots.getD slot.toNat FwSlot.init).security < s.fuses.antiRollback →
    exec (.bootImageVerified slot true) s = .next (s.after s.mach))

/-- POWER_SET_LIMIT takes SUSTAINED_W and FLAGS, completes with OK and puts the limit in force, 0 selecting 1,150 W; values outside those given
are BAD_ARGUMENT and change nothing; the setting lasts until the next cold reset (R570). -/
def Obligations.PowerLimit : Prop :=
  (∀ (s : State) (ch : ChanNo), exec (.powerSetLimit ch) s = s.mailbox ch 0x0E02 anyForm cmdPowerSetLimit) ∧
  (∀ (r : Req) (m : Mod), (r.arg 0 2 = 0 ∨ 300 ≤ r.arg 0 2 ∧ r.arg 0 2 ≤ 1150) → r.arg 2 1 ≤ 1 →
    (cmdPowerSetLimit r m).2.status = .ok ∧ (cmdPowerSetLimit r m).1.pow.hostLimit = (if r.arg 0 2 = 0 then 1150 else r.arg 0 2) ∧
    ((cmdPowerSetLimit r m).1.pow.noBurst = true ↔ r.arg 2 1 = 1)) ∧
  (∀ (r : Req) (m : Mod), ¬ ((r.arg 0 2 = 0 ∨ 300 ≤ r.arg 0 2 ∧ r.arg 0 2 ≤ 1150) ∧ r.arg 2 1 ≤ 1) →
    (cmdPowerSetLimit r m).2.status = .badArgument ∧ (cmdPowerSetLimit r m).1 = m) ∧
  (∀ m : Mod, m.coldReset.pow.hostLimit = 1150 ∧ m.coldReset.pow.noBurst = false)

/-- On an encrypted port, an expected sequenced flit with a good CRC whose tag fails, or whose ENC is clear, takes the port down at once, with
LINK_AUTH_FAIL logged (R310). -/
def Obligations.EncryptedPortsRejectBadFlits : Prop :=
  ∀ (s : State) (port : BitVec 4) (flit : List Byte) (h : Nat) (m : Mod), (s.mach.fport port.toNat).linked = true →
    (s.mach.fport port.toNat).encrypted = true → flitGood flit = true → h = leNat (flit.take 8) → (bits h 36 4 = 0 ∨ bits h 36 4 = 3) →
    bits h 52 12 = (s.mach.fport port.toNat).expected → m = s.mach.ackFlit port.toNat (bits h 40 12) (bits h 32 3) (bits h 20 12) →
    (bit h 14 = false ∨ Config.gcmOpen ((s.mach.fport port.toNat).rxFor (bit h 35)).1.key ((s.mach.fport port.toNat).rxFor (bit h 35)).1.iv
      (flit.take 8) ((flit.drop 8).take 244) = none) →
    exec (.dataFlit port flit) s = .next (s.after ((m.logErr { unit := 0x5000 + port.toNat, code := 0x0503, sev := .unit, opn := .training }).losePort
      port.toNat 2))

/-- A new generation takes the first number after the current one, in the cyclic order 0 to 15, that is not live, and becomes the current one
without freeing any; there is none only while every other number is live (R166). -/
def Obligations.GenerationNumbers : Prop :=
  (∀ (t : Tables) (c n : Nat), t.current = some c → t.nextGen = some n →
    n < 16 ∧ Tbl.has t.gens n = false ∧ ∀ k, k < (n + 15 - c % 16) % 16 → Tbl.has t.gens ((c + 1 + k) % 16) = true) ∧
  (∀ (t : Tables) (c : Nat), t.current = some c → t.nextGen = none → ∀ n, n < 16 → Tbl.has t.gens n = true) ∧
  (∀ (m : Mod) (r slot n : Nat) (lens : List (Nat × Nat)) (g : Region), Tbl.find m.mem.regions r = some g → g.tables.nextGen = some n →
    ∃ g', Tbl.find (m.installTable r slot lens).mem.regions r = some g' ∧ g'.tables.current = some n ∧
      ∀ k, k ≠ n → Tbl.find g'.tables.gens k = Tbl.find g.tables.gens k)

/-- ERROR_LOG_CLEAR removes every record numbered UPTO_SEQ or less together with its appendices, or every record when UPTO_SEQ is 0, which also
zeroes every LOST counter; numbering does not restart (R486, R490). -/
def Obligations.ErrorLogClears : Prop :=
  (∀ (s : State) (ch : ChanNo), exec (.errorLogClear ch) s = s.mailbox ch 0x0A02 anyForm cmdErrorLogClear) ∧
  ∀ (r : Req) (m : Mod), (cmdErrorLogClear r m).2.status = .ok ∧
    (cmdErrorLogClear r m).1.svc.err.nextSeq = m.svc.err.nextSeq ∧
    (∀ x, x ∈ (cmdErrorLogClear r m).1.svc.err.recs ↔ x ∈ m.svc.err.recs ∧ r.arg 0 8 ≠ 0 ∧ r.arg 0 8 < x.seq - x.parentDiff) ∧
    (r.arg 0 8 = 0 → (cmdErrorLogClear r m).1.svc.err.lost.all (· = 0) = true ∧
      ∀ p x, Tbl.find (cmdErrorLogClear r m).1.mem.parts p = some x → x.lost.all (· = 0) = true) ∧
    (r.arg 0 8 ≠ 0 → (cmdErrorLogClear r m).1.svc.err.lost = m.svc.err.lost ∧ (cmdErrorLogClear r m).1.mem = m.mem)

/-- A Frit tile whose exponents are all zero or entries of the codebook reads back exactly from its encoding, for every floating type, every
codebook of at most seven entries, and every value of sign and mantissa. -/
def Obligations.FritTilesReadBack : Prop :=
  ∀ (d : DType) (cb vs : List Nat), d.floating = true → cb.length ≤ 7 → 0 ∉ cb → (∀ e ∈ cb, e < 2 ^ d.expBits) → vs.length = d.perTile →
    (∀ v ∈ vs, v < 2 ^ (8 * d.bytes) ∧ ((d.split v).2.1 = 0 ∨ (d.split v).2.1 ∈ cb)) →
    (fritTileEncode d cb vs).length = d.fritTile ∧
    fritTileDecode d (cb ++ List.replicate (7 - cb.length) 0) (fritTileEncode d cb vs) = vs.flatMap (leBytes d.bytes)
end

