-- ==== Sys2Proof/Laws/Tbl.lean ====
section
/-! SUPPORT. Sparse tables and byte stores: read after write, and every operation keeps the canonical form. -/
namespace Sys2Proof

variable {α β : Type}

/-! ### Read after write -/

@[simp] theorem Tbl.find_nil (k : Nat) : Tbl.find ([] : Tbl α) k = none := rfl

@[simp] theorem Tbl.find_put_same (t : Tbl α) (k : Nat) (v : α) : Tbl.find (Tbl.put t k v) k = some v := by
  induction t with
  | nil => simp [Tbl.put, Tbl.find]
  | cons p t ih =>
    obtain ⟨k', v'⟩ := p
    unfold Tbl.put
    split
    · simp [Tbl.find]
    · split
      · simp [Tbl.find]
      · simp_all [Tbl.find]

theorem Tbl.find_put_other (t : Tbl α) {k j : Nat} (v : α) (h : j ≠ k) : Tbl.find (Tbl.put t k v) j = Tbl.find t j := by
  induction t with
  | nil => simp only [Tbl.put, Tbl.find, h, if_false]; split <;> rfl
  | cons p t ih =>
    obtain ⟨k', v'⟩ := p
    unfold Tbl.put
    split
    · subst_vars; simp only [Tbl.find, h, if_false]
    · split
      · rename_i h1 h2
        simp only [Tbl.find, h, if_false]
        by_cases hj : j < k
        · have h3 : j ≠ k' := by omega
          have h4 : j < k' := by omega
          simp [hj, h3, h4]
        · simp [hj]
      · simp only [Tbl.find, ih]

theorem Tbl.find_upd_same (t : Tbl α) (k : Nat) (f : α → α) : Tbl.find (Tbl.upd t k f) k = (Tbl.find t k).map f := by
  unfold Tbl.upd
  cases h : Tbl.find t k <;> simp [h]

theorem Tbl.find_upd_other (t : Tbl α) {k j : Nat} (f : α → α) (h : j ≠ k) : Tbl.find (Tbl.upd t k f) j = Tbl.find t j := by
  unfold Tbl.upd
  cases Tbl.find t k
  · rfl
  · exact Tbl.find_put_other t _ h

theorem Tbl.find_mapV (t : Tbl α) (f : Nat → α → β) (k : Nat) : Tbl.find (Tbl.mapV t f) k = (Tbl.find t k).map (f k) := by
  induction t with
  | nil => rfl
  | cons p t ih =>
    obtain ⟨k', v⟩ := p
    have ih' : Tbl.find (List.map (fun p => (p.1, f p.1 p.2)) t) k = (Tbl.find t k).map (f k) := ih
    simp only [Tbl.mapV, List.map_cons, Tbl.find]
    split
    · subst_vars; rfl
    · split
      · rfl
      · exact ih'

/-- An update that a view of the values does not see leaves the view of the table alone. -/
theorem Tbl.mapV_upd (t : Tbl α) (k : Nat) (f : α → α) (g : Nat → α → β) (h : ∀ v, g k (f v) = g k v) : Tbl.mapV (Tbl.upd t k f) g = Tbl.mapV t g := by
  unfold Tbl.upd
  split
  · rename_i v hv
    induction t with
    | nil => cases hv
    | cons p t ih =>
      obtain ⟨k', v'⟩ := p
      unfold Tbl.find at hv
      unfold Tbl.put
      split at hv
      · rename_i e
        cases hv; cases e
        simp [Tbl.mapV, h]
      · rename_i e
        split at hv
        · cases hv
        · rename_i l
          rw [if_neg e, if_neg l]
          have := ih hv
          simp only [Tbl.mapV, List.map_cons] at this ⊢
          rw [this]
  · rfl

/-! ### The canonical form -/

theorem Tbl.sortedFrom_mono {t : Tbl α} {a b : Nat} (h : a ≤ b) (s : Tbl.sortedFrom t b = true) : Tbl.sortedFrom t a = true := by
  cases t with
  | nil => rfl
  | cons p t =>
    simp only [Tbl.sortedFrom, Bool.and_eq_true, decide_eq_true_eq] at s ⊢
    exact ⟨by omega, s.2⟩

theorem Tbl.sortedFrom_put {t : Tbl α} {lo k : Nat} (v : α) (h : lo ≤ k) (s : Tbl.sortedFrom t lo = true) :
    Tbl.sortedFrom (Tbl.put t k v) lo = true := by
  induction t generalizing lo with
  | nil => simp [Tbl.put, Tbl.sortedFrom, h]
  | cons p t ih =>
    obtain ⟨k', v'⟩ := p
    simp only [Tbl.sortedFrom, Bool.and_eq_true, decide_eq_true_eq] at s
    unfold Tbl.put
    split
    · subst_vars; simp [Tbl.sortedFrom, h, s.2]
    · split
      · simp only [Tbl.sortedFrom, Bool.and_eq_true, decide_eq_true_eq]
        exact ⟨h, by omega, s.2⟩
      · simp only [Tbl.sortedFrom, Bool.and_eq_true, decide_eq_true_eq]
        exact ⟨s.1, ih (by omega) s.2⟩

theorem Tbl.sortedFrom_del {t : Tbl α} {lo : Nat} (k : Nat) (s : Tbl.sortedFrom t lo = true) : Tbl.sortedFrom (Tbl.del t k) lo = true := by
  induction t generalizing lo with
  | nil => rfl
  | cons p t ih =>
    obtain ⟨k', v'⟩ := p
    have s' := s
    simp only [Tbl.sortedFrom, Bool.and_eq_true, decide_eq_true_eq] at s
    unfold Tbl.del
    split
    · exact Tbl.sortedFrom_mono (by omega) s.2
    · split
      · exact s'
      · simp only [Tbl.sortedFrom, Bool.and_eq_true, decide_eq_true_eq]
        exact ⟨s.1, ih s.2⟩

theorem Tbl.sortedFrom_mapV {t : Tbl α} {lo : Nat} (f : Nat → α → β) (s : Tbl.sortedFrom t lo = true) :
    Tbl.sortedFrom (Tbl.mapV t f) lo = true := by
  induction t generalizing lo with
  | nil => rfl
  | cons p t ih =>
    simp only [Tbl.sortedFrom, Bool.and_eq_true, decide_eq_true_eq] at s
    simp only [Tbl.mapV, List.map_cons, Tbl.sortedFrom, Bool.and_eq_true, decide_eq_true_eq]
    exact ⟨s.1, ih s.2⟩

theorem Tbl.sortedFrom_filter {t : Tbl α} {lo : Nat} (q : Nat × α → Bool) (s : Tbl.sortedFrom t lo = true) :
    Tbl.sortedFrom (t.filter q : Tbl α) lo = true := by
  induction t generalizing lo with
  | nil => rfl
  | cons p t ih =>
    simp only [Tbl.sortedFrom, Bool.and_eq_true, decide_eq_true_eq] at s
    rw [List.filter_cons]
    split
    · simp only [Tbl.sortedFrom, Bool.and_eq_true, decide_eq_true_eq]
      exact ⟨s.1, ih s.2⟩
    · exact Tbl.sortedFrom_mono (by omega) (ih s.2)

/-- Writing a key keeps a table's canonical form. -/
theorem Tbl.wf_put {t : Tbl α} (k : Nat) (v : α) (s : Tbl.wf t = true) : Tbl.wf (Tbl.put t k v) = true :=
  Tbl.sortedFrom_put v (Nat.zero_le k) s

theorem Tbl.wf_del {t : Tbl α} (k : Nat) (s : Tbl.wf t = true) : Tbl.wf (Tbl.del t k) = true := Tbl.sortedFrom_del k s

theorem Tbl.wf_upd {t : Tbl α} (k : Nat) (f : α → α) (s : Tbl.wf t = true) : Tbl.wf (Tbl.upd t k f) = true := by
  unfold Tbl.upd
  split
  · exact Tbl.wf_put k _ s
  · exact s

theorem Tbl.wf_updD {t : Tbl α} (k : Nat) (d : α) (f : α → α) (s : Tbl.wf t = true) : Tbl.wf (Tbl.updD t k d f) = true :=
  Tbl.wf_put k _ s

theorem Tbl.wf_mapV {t : Tbl α} (f : Nat → α → β) (s : Tbl.wf t = true) : Tbl.wf (Tbl.mapV t f) = true := Tbl.sortedFrom_mapV f s

theorem Tbl.wf_filter {t : Tbl α} (q : Nat × α → Bool) (s : Tbl.wf t = true) : Tbl.wf (t.filter q : Tbl α) = true := Tbl.sortedFrom_filter q s

/-- The keys of a table from `lo` up are at least `lo`, so a removed key is gone. -/
theorem Tbl.find_below {t : Tbl α} {lo k : Nat} (s : Tbl.sortedFrom t lo = true) (h : k < lo) : Tbl.find t k = none := by
  cases t with
  | nil => rfl
  | cons p t =>
    simp only [Tbl.sortedFrom, Bool.and_eq_true, decide_eq_true_eq] at s
    obtain ⟨k', v⟩ := p
    have h1 : k ≠ k' := by omega
    have h2 : k < k' := by omega
    simp [Tbl.find, h1, h2]

theorem Tbl.find_del_same_from {t : Tbl α} {lo : Nat} (k : Nat) (s : Tbl.sortedFrom t lo = true) : Tbl.find (Tbl.del t k) k = none := by
  induction t generalizing lo with
  | nil => rfl
  | cons p t ih =>
    obtain ⟨k', v'⟩ := p
    simp only [Tbl.sortedFrom, Bool.and_eq_true, decide_eq_true_eq] at s
    unfold Tbl.del
    split
    · subst_vars; exact Tbl.find_below s.2 (by omega)
    · split
      · rename_i h1 h2; simp [Tbl.find, h1, h2]
      · rename_i h1 h2; simp only [Tbl.find, h1, h2, if_false]; exact ih s.2

theorem Tbl.find_del_same {t : Tbl α} (k : Nat) (s : Tbl.wf t = true) : Tbl.find (Tbl.del t k) k = none := Tbl.find_del_same_from k s

theorem Tbl.find_del_other_from {t : Tbl α} {lo k j : Nat} (s : Tbl.sortedFrom t lo = true) (h : j ≠ k) :
    Tbl.find (Tbl.del t k) j = Tbl.find t j := by
  induction t generalizing lo with
  | nil => rfl
  | cons p t ih =>
    obtain ⟨k', v'⟩ := p
    simp only [Tbl.sortedFrom, Bool.and_eq_true, decide_eq_true_eq] at s
    unfold Tbl.del
    split
    · subst_vars
      simp only [Tbl.find, h, if_false]
      split
      · exact Tbl.find_below s.2 (by omega)
      · rfl
    · split
      · rfl
      · simp only [Tbl.find, ih s.2]

theorem Tbl.find_del_other {t : Tbl α} {k j : Nat} (s : Tbl.wf t = true) (h : j ≠ k) : Tbl.find (Tbl.del t k) j = Tbl.find t j :=
  Tbl.find_del_other_from s h

/-! ### Byte stores -/

/-- A store in canonical form lists no zero byte. -/
theorem Mem.wf_iff (m : Mem) : Mem.wf m = true ↔ Tbl.wf m = true ∧ ∀ c ∈ m, c.2 ≠ 0 := by
  simp [Mem.wf]

theorem Tbl.mem_put {t : Tbl α} {k : Nat} {v : α} {c : Nat × α} (h : c ∈ Tbl.put t k v) : c = (k, v) ∨ c ∈ t := by
  induction t with
  | nil => simpa [Tbl.put] using h
  | cons p t ih =>
    obtain ⟨k', v'⟩ := p
    unfold Tbl.put at h
    split at h
    · exact (List.mem_cons.mp h).imp id (List.mem_cons_of_mem _)
    · split at h
      · exact List.mem_cons.mp h
      · rcases List.mem_cons.mp h with h | h
        · exact .inr (h ▸ List.mem_cons_self)
        · exact (ih h).imp id (List.mem_cons_of_mem _)

theorem Tbl.mem_del {t : Tbl α} {k : Nat} {c : Nat × α} (h : c ∈ Tbl.del t k) : c ∈ t := by
  induction t with
  | nil => exact h
  | cons p t ih =>
    obtain ⟨k', v'⟩ := p
    unfold Tbl.del at h
    split at h
    · exact List.mem_cons_of_mem _ h
    · split at h
      · exact h
      · simp only [List.mem_cons] at h ⊢
        exact h.imp id ih

/-- Writing one byte keeps the canonical form. -/
theorem Mem.wf_wr {m : Mem} (a : Nat) (b : Byte) (h : Mem.wf m = true) : Mem.wf (Mem.wr m a b) = true := by
  rw [Mem.wf_iff] at h ⊢
  unfold Mem.wr
  split
  · exact ⟨Tbl.wf_del a h.1, fun c hc => h.2 c (Tbl.mem_del hc)⟩
  · refine ⟨Tbl.wf_put a b h.1, fun c hc => ?_⟩
    rcases Tbl.mem_put hc with rfl | hc
    · assumption
    · exact h.2 c hc

/-- Writing bytes keeps the canonical form. -/
theorem Mem.wf_wrBytes {m : Mem} (a : Nat) (bs : List Byte) (h : Mem.wf m = true) : Mem.wf (Mem.wrBytes m a bs) = true := by
  induction bs generalizing m a with
  | nil => exact h
  | cons b bs ih => exact ih (a + 1) (Mem.wf_wr a b h)

theorem Mem.wf_wrLE {m : Mem} (a n v : Nat) (h : Mem.wf m = true) : Mem.wf (Mem.wrLE m a n v) = true := Mem.wf_wrBytes a _ h

theorem Mem.wf_clear {m : Mem} (a n : Nat) (h : Mem.wf m = true) : Mem.wf (Mem.clear m a n) = true := by
  rw [Mem.wf_iff] at h ⊢
  exact ⟨Tbl.wf_filter _ h.1, fun c hc => h.2 c (List.mem_filter.mp hc).1⟩

theorem Mem.wf_ofBytes (bs : List Byte) : Mem.wf (Mem.ofBytes bs) = true := Mem.wf_wrBytes 0 bs rfl

/-- The byte that was written is the byte that is read. -/
theorem Mem.rd_wr_same {m : Mem} (a : Nat) (b : Byte) (h : Mem.wf m = true) : Mem.rd (Mem.wr m a b) a = b := by
  rw [Mem.wf_iff] at h
  unfold Mem.wr
  split
  · subst_vars; simp [Mem.rd, Tbl.findD, Tbl.find_del_same a h.1]
  · simp [Mem.rd, Tbl.findD]

/-- A write leaves every other byte alone. -/
theorem Mem.rd_wr_other {m : Mem} {a j : Nat} (b : Byte) (h : Mem.wf m = true) (hj : j ≠ a) : Mem.rd (Mem.wr m a b) j = Mem.rd m j := by
  rw [Mem.wf_iff] at h
  unfold Mem.wr
  split
  · simp [Mem.rd, Tbl.findD, Tbl.find_del_other h.1 hj]
  · simp [Mem.rd, Tbl.findD, Tbl.find_put_other m b hj]

/-- Bytes outside those written read as before. -/
theorem Mem.rd_wrBytes_outside {m : Mem} {a j : Nat} (bs : List Byte) (h : Mem.wf m = true) (hj : j < a ∨ a + bs.length ≤ j) :
    Mem.rd (Mem.wrBytes m a bs) j = Mem.rd m j := by
  induction bs generalizing m a with
  | nil => rfl
  | cons b bs ih =>
    simp only [List.length_cons] at hj
    have h1 : Mem.rd (Mem.wrBytes (Mem.wr m a b) (a + 1) bs) j = Mem.rd (Mem.wr m a b) j :=
      ih (Mem.wf_wr a b h) (by omega)
    rw [Mem.wrBytes, h1]
    exact Mem.rd_wr_other b h (by omega)

end Sys2Proof
end

