-- ==== Sys2Proof/Laws/Bytes.lean ====
section
/-! SUPPORT. The operations that cut and join byte stores keep their canonical form: packing a list, slices, splices, the merge of
a write into a frame, and the writing of a crucible. -/
namespace Sys2Proof

variable {α : Type}

theorem Tbl.sortedFrom_append {s t : Tbl α} {lo hi : Nat} (h : lo ≤ hi) (hs : Tbl.sortedFrom s lo = true) (ht : Tbl.sortedFrom t hi = true)
    (hk : ∀ c ∈ s, c.1 < hi) : Tbl.sortedFrom (s ++ t : Tbl α) lo = true := by
  induction s generalizing lo with
  | nil => exact Tbl.sortedFrom_mono h ht
  | cons p s ih =>
    simp only [Tbl.sortedFrom, Bool.and_eq_true, decide_eq_true_eq] at hs
    simp only [List.cons_append, Tbl.sortedFrom, Bool.and_eq_true, decide_eq_true_eq]
    have h1 := hk p List.mem_cons_self
    exact ⟨hs.1, ih (by omega) hs.2 (fun c hc => hk c (List.mem_cons_of_mem _ hc))⟩

/-- Keys that are moved up by `n` still rise. -/
theorem Tbl.sortedFrom_shift {t : Tbl α} {lo : Nat} (n : Nat) (h : Tbl.sortedFrom t lo = true) :
    Tbl.sortedFrom (t.map (fun c => (c.1 + n, c.2)) : Tbl α) (lo + n) = true := by
  induction t generalizing lo with
  | nil => rfl
  | cons p t ih =>
    simp only [Tbl.sortedFrom, Bool.and_eq_true, decide_eq_true_eq] at h
    simp only [List.map_cons, Tbl.sortedFrom, Bool.and_eq_true, decide_eq_true_eq]
    exact ⟨by omega, by have := ih h.2; rwa [show p.1 + 1 + n = p.1 + n + 1 by omega] at this⟩

/-- Keys from `lo` up that are moved down by `lo` still rise. -/
theorem Tbl.sortedFrom_unshift {t : Tbl α} {lo a : Nat} (ha : a ≤ lo) (h : Tbl.sortedFrom t lo = true) :
    Tbl.sortedFrom (t.map (fun c => (c.1 - a, c.2)) : Tbl α) (lo - a) = true := by
  induction t generalizing lo with
  | nil => rfl
  | cons p t ih =>
    simp only [Tbl.sortedFrom, Bool.and_eq_true, decide_eq_true_eq] at h
    simp only [List.map_cons, Tbl.sortedFrom, Bool.and_eq_true, decide_eq_true_eq]
    exact ⟨by omega, by have := ih (by omega) h.2; rwa [show p.1 + 1 - a = p.1 - a + 1 by omega] at this⟩

/-- The entries from `a` up of a table start at `a`. -/
theorem Tbl.sortedFrom_filter_from {t : Tbl α} {a : Nat} (q : Nat × α → Bool) (hq : ∀ c, q c = true → a ≤ c.1) {lo : Nat}
    (h : Tbl.sortedFrom t lo = true) : Tbl.sortedFrom (t.filter q : Tbl α) a = true := by
  induction t generalizing lo with
  | nil => rfl
  | cons p t ih =>
    simp only [Tbl.sortedFrom, Bool.and_eq_true, decide_eq_true_eq] at h
    rw [List.filter_cons]
    split
    · rename_i hp
      simp only [Tbl.sortedFrom, Bool.and_eq_true, decide_eq_true_eq]
      exact ⟨hq p hp, Tbl.sortedFrom_filter q h.2⟩
    · exact ih h.2

theorem Mem.wf_slice {m : Mem} (a n : Nat) (h : Mem.wf m = true) : Mem.wf (Mem.slice m a n) = true := by
  rw [Mem.wf_iff] at h ⊢
  constructor
  · have h1 := Tbl.sortedFrom_filter_from (a := a) (fun c : Nat × Byte => decide (a ≤ c.1) && decide (c.1 < a + n)) (by intro c hc; simp at hc; omega) h.1
    have h2 := Tbl.sortedFrom_unshift (Nat.le_refl a) h1
    exact Tbl.sortedFrom_mono (Nat.zero_le _) h2
  · intro c hc
    obtain ⟨d, hd, rfl⟩ := List.mem_map.mp hc
    exact h.2 d (List.mem_filter.mp hd).1

/-- Every byte of a slice of `n` bytes lies below `n`. -/
theorem Mem.slice_below {m : Mem} {a n : Nat} {c : Nat × Byte} (hc : c ∈ Mem.slice m a n) : c.1 < n := by
  obtain ⟨d, hd, rfl⟩ := List.mem_map.mp hc
  have := (List.mem_filter.mp hd).2
  simp at this ⊢
  omega

/-- Replacing a range of bytes keeps the canonical form. -/
theorem Mem.wf_splice {m x : Mem} (a n : Nat) (h : Mem.wf m = true) (hx : Mem.wf x = true) : Mem.wf (Mem.splice m a n x) = true := by
  have hs := Mem.wf_slice 0 n hx
  rw [Mem.wf_iff] at h hs ⊢
  constructor
  · unfold Tbl.wf Mem.splice
    have top := Tbl.sortedFrom_filter_from (a := a + n) (fun c : Nat × Byte => decide (a + n ≤ c.1)) (by intro c hc; simpa using hc) h.1
    have mid := Tbl.sortedFrom_shift a hs.1
    have low := Tbl.sortedFrom_filter (fun c : Nat × Byte => decide (c.1 < a)) h.1
    rw [Nat.zero_add] at mid
    have lm := Tbl.sortedFrom_append (Nat.zero_le a) low mid (by intro c hc; simpa using (List.mem_filter.mp hc).2)
    refine Tbl.sortedFrom_append (Nat.zero_le _) lm top (fun c hc => ?_)
    rcases List.mem_append.mp hc with hc | hc
    · have := (List.mem_filter.mp hc).2; simp at this; omega
    · obtain ⟨d, hd, rfl⟩ := List.mem_map.mp hc
      have := Mem.slice_below hd
      simp only; omega
  · intro c hc
    unfold Mem.splice at hc
    rcases List.mem_append.mp hc with hc | hc
    · rcases List.mem_append.mp hc with hc | hc
      · exact h.2 c (List.mem_filter.mp hc).1
      · obtain ⟨d, hd, rfl⟩ := List.mem_map.mp hc
        exact hs.2 d hd
    · exact h.2 c (List.mem_filter.mp hc).1

namespace Machine

theorem pack_from (bs : List Byte) (a : Nat) : Tbl.sortedFrom (Mem.pack a bs) a = true ∧ ∀ c ∈ Mem.pack a bs, c.2 ≠ 0 := by
  induction bs generalizing a with
  | nil => exact ⟨rfl, fun c hc => by simp [Mem.pack] at hc⟩
  | cons b bs ih =>
    have h := ih (a + 1)
    unfold Mem.pack
    split
    · exact ⟨Tbl.sortedFrom_mono (by omega) h.1, h.2⟩
    · refine ⟨by simp [Tbl.sortedFrom, h.1], fun c hc => ?_⟩
      rcases List.mem_cons.mp hc with rfl | hc
      · assumption
      · exact h.2 c hc

/-- A packed list of bytes is in canonical form. -/
theorem wf_pack (a : Nat) (bs : List Byte) : Mem.wf (Mem.pack a bs) = true := by
  rw [Mem.wf_iff]
  exact ⟨Tbl.sortedFrom_mono (Nat.zero_le a) (pack_from bs a).1, (pack_from bs a).2⟩

/-- Merging the enabled bytes of a write keeps the canonical form (R386). -/
theorem mergeBytes_wf {m : Mem} (a : Nat) (bs : List Byte) (en : List Bool) (h : Mem.wf m = true) : Mem.wf (mergeBytes m a bs en) = true := by
  induction bs generalizing m a en with
  | nil => exact h
  | cons b bs ih =>
    unfold mergeBytes
    apply ih
    split
    · exact Mem.wf_wr a b h
    · exact h

/-- Writing a result into a crucible keeps its canonical form (R223). -/
theorem Core.put_wf {k : Core} (unit : Nat) (bs : List Byte) (h : Mem.wf k.crucible = true) : Mem.wf (k.put unit bs).crucible = true :=
  Mem.wf_splice _ _ h (wf_pack 0 bs)

/-- A write to a raw frame keeps its canonical form (R386). -/
theorem PaneRec.apply_wf {x : PaneRec} (offset : Nat) (bytes : List Byte) (enable : List Bool) (poisoned : Bool) (h : Mem.wf x.img = true) :
    Mem.wf (x.apply offset bytes enable poisoned).img = true := mergeBytes_wf _ _ _ h

end Machine

end Sys2Proof
end

