-- ==== Sys2Proof/Laws/State.lean ====
section
/-! SUPPORT. One lemma per field per update of the module's state, true by definition, so that no proof unfolds a record update. -/
namespace Sys2Proof.Machine

variable (m : Mod)

@[simp] theorem Mod.setLd_n128 (l : Nat) (f : Ld → Ld) : (m.setLd l f).n128 = m.n128 := rfl
@[simp] theorem Mod.setLd_ftc (l : Nat) (f : Ld → Ld) : (m.setLd l f).ftc = m.ftc := rfl
@[simp] theorem Mod.setLd_localTime (l : Nat) (f : Ld → Ld) : (m.setLd l f).localTime = m.localTime := rfl
@[simp] theorem Mod.setLd_phase (l : Nat) (f : Ld → Ld) : (m.setLd l f).phase = m.phase := rfl
@[simp] theorem Mod.setLd_chans (l : Nat) (f : Ld → Ld) : (m.setLd l f).chans = m.chans := rfl
@[simp] theorem Mod.setLd_gaffer (l : Nat) (f : Ld → Ld) : (m.setLd l f).gaffer = m.gaffer := rfl
@[simp] theorem Mod.setLd_ctxs (l : Nat) (f : Ld → Ld) : (m.setLd l f).ctxs = m.ctxs := rfl
@[simp] theorem Mod.setLd_mem (l : Nat) (f : Ld → Ld) : (m.setLd l f).mem = m.mem := rfl
@[simp] theorem Mod.setLd_svc (l : Nat) (f : Ld → Ld) : (m.setLd l f).svc = m.svc := rfl
@[simp] theorem Mod.setLd_lds (l : Nat) (f : Ld → Ld) : (m.setLd l f).lds = Tbl.updD m.lds l Ld.init f := rfl
@[simp] theorem Mod.setLd_ports (l : Nat) (f : Ld → Ld) : (m.setLd l f).ports = m.ports := rfl
@[simp] theorem Mod.setLd_pow (l : Nat) (f : Ld → Ld) : (m.setLd l f).pow = m.pow := rfl
@[simp] theorem Mod.setLd_cores (l : Nat) (f : Ld → Ld) : (m.setLd l f).cores = m.cores := rfl
@[simp] theorem Mod.setLd_mvs (l : Nat) (f : Ld → Ld) : (m.setLd l f).mvs = m.mvs := rfl
@[simp] theorem Mod.setLd_streams (l : Nat) (f : Ld → Ld) : (m.setLd l f).streams = m.streams := rfl
@[simp] theorem Mod.setLd_reg (l : Nat) (f : Ld → Ld) : (m.setLd l f).reg = m.reg := rfl
@[simp] theorem Mod.setLd_test (l : Nat) (f : Ld → Ld) : (m.setLd l f).test = m.test := rfl
@[simp] theorem Mod.setLd_fab (l : Nat) (f : Ld → Ld) : (m.setLd l f).fab = m.fab := rfl
@[simp] theorem Mod.setLd_fm (l : Nat) (f : Ld → Ld) : (m.setLd l f).fm = m.fm := rfl
@[simp] theorem Mod.setLd_t0 (l : Nat) (f : Ld → Ld) : (m.setLd l f).t0 = m.t0 := rfl
@[simp] theorem Mod.setLd_t1 (l : Nat) (f : Ld → Ld) : (m.setLd l f).t1 = m.t1 := rfl
@[simp] theorem Mod.setLd_t2 (l : Nat) (f : Ld → Ld) : (m.setLd l f).t2 = m.t2 := rfl
@[simp] theorem Mod.setLd_boot (l : Nat) (f : Ld → Ld) : (m.setLd l f).boot = m.boot := rfl
@[simp] theorem Mod.setLd_bufs (l : Nat) (f : Ld → Ld) : (m.setLd l f).bufs = m.bufs := rfl
@[simp] theorem Mod.setLd_out (l : Nat) (f : Ld → Ld) : (m.setLd l f).out = m.out := rfl
@[simp] theorem Mod.setLd_freeIx (l : Nat) (f : Ld → Ld) : (m.setLd l f).freeIx = m.freeIx := rfl

@[simp] theorem Mod.setPort_n128 (h : Nat) (f : HostPort → HostPort) : (m.setPort h f).n128 = m.n128 := rfl
@[simp] theorem Mod.setPort_ftc (h : Nat) (f : HostPort → HostPort) : (m.setPort h f).ftc = m.ftc := rfl
@[simp] theorem Mod.setPort_localTime (h : Nat) (f : HostPort → HostPort) : (m.setPort h f).localTime = m.localTime := rfl
@[simp] theorem Mod.setPort_phase (h : Nat) (f : HostPort → HostPort) : (m.setPort h f).phase = m.phase := rfl
@[simp] theorem Mod.setPort_chans (h : Nat) (f : HostPort → HostPort) : (m.setPort h f).chans = m.chans := rfl
@[simp] theorem Mod.setPort_gaffer (h : Nat) (f : HostPort → HostPort) : (m.setPort h f).gaffer = m.gaffer := rfl
@[simp] theorem Mod.setPort_ctxs (h : Nat) (f : HostPort → HostPort) : (m.setPort h f).ctxs = m.ctxs := rfl
@[simp] theorem Mod.setPort_mem (h : Nat) (f : HostPort → HostPort) : (m.setPort h f).mem = m.mem := rfl
@[simp] theorem Mod.setPort_svc (h : Nat) (f : HostPort → HostPort) : (m.setPort h f).svc = m.svc := rfl
@[simp] theorem Mod.setPort_lds (h : Nat) (f : HostPort → HostPort) : (m.setPort h f).lds = m.lds := rfl
@[simp] theorem Mod.setPort_ports (h : Nat) (f : HostPort → HostPort) : (m.setPort h f).ports = m.ports.modify h f := rfl
@[simp] theorem Mod.setPort_pow (h : Nat) (f : HostPort → HostPort) : (m.setPort h f).pow = m.pow := rfl
@[simp] theorem Mod.setPort_cores (h : Nat) (f : HostPort → HostPort) : (m.setPort h f).cores = m.cores := rfl
@[simp] theorem Mod.setPort_mvs (h : Nat) (f : HostPort → HostPort) : (m.setPort h f).mvs = m.mvs := rfl
@[simp] theorem Mod.setPort_streams (h : Nat) (f : HostPort → HostPort) : (m.setPort h f).streams = m.streams := rfl
@[simp] theorem Mod.setPort_reg (h : Nat) (f : HostPort → HostPort) : (m.setPort h f).reg = m.reg := rfl
@[simp] theorem Mod.setPort_test (h : Nat) (f : HostPort → HostPort) : (m.setPort h f).test = m.test := rfl
@[simp] theorem Mod.setPort_fab (h : Nat) (f : HostPort → HostPort) : (m.setPort h f).fab = m.fab := rfl
@[simp] theorem Mod.setPort_fm (h : Nat) (f : HostPort → HostPort) : (m.setPort h f).fm = m.fm := rfl
@[simp] theorem Mod.setPort_t0 (h : Nat) (f : HostPort → HostPort) : (m.setPort h f).t0 = m.t0 := rfl
@[simp] theorem Mod.setPort_t1 (h : Nat) (f : HostPort → HostPort) : (m.setPort h f).t1 = m.t1 := rfl
@[simp] theorem Mod.setPort_t2 (h : Nat) (f : HostPort → HostPort) : (m.setPort h f).t2 = m.t2 := rfl
@[simp] theorem Mod.setPort_boot (h : Nat) (f : HostPort → HostPort) : (m.setPort h f).boot = m.boot := rfl
@[simp] theorem Mod.setPort_bufs (h : Nat) (f : HostPort → HostPort) : (m.setPort h f).bufs = m.bufs := rfl
@[simp] theorem Mod.setPort_out (h : Nat) (f : HostPort → HostPort) : (m.setPort h f).out = m.out := rfl
@[simp] theorem Mod.setPort_freeIx (h : Nat) (f : HostPort → HostPort) : (m.setPort h f).freeIx = m.freeIx := rfl

@[simp] theorem Mod.setFport_n128 (p : Nat) (f : FabPort → FabPort) : (m.setFport p f).n128 = m.n128 := rfl
@[simp] theorem Mod.setFport_ftc (p : Nat) (f : FabPort → FabPort) : (m.setFport p f).ftc = m.ftc := rfl
@[simp] theorem Mod.setFport_localTime (p : Nat) (f : FabPort → FabPort) : (m.setFport p f).localTime = m.localTime := rfl
@[simp] theorem Mod.setFport_phase (p : Nat) (f : FabPort → FabPort) : (m.setFport p f).phase = m.phase := rfl
@[simp] theorem Mod.setFport_chans (p : Nat) (f : FabPort → FabPort) : (m.setFport p f).chans = m.chans := rfl
@[simp] theorem Mod.setFport_gaffer (p : Nat) (f : FabPort → FabPort) : (m.setFport p f).gaffer = m.gaffer := rfl
@[simp] theorem Mod.setFport_ctxs (p : Nat) (f : FabPort → FabPort) : (m.setFport p f).ctxs = m.ctxs := rfl
@[simp] theorem Mod.setFport_mem (p : Nat) (f : FabPort → FabPort) : (m.setFport p f).mem = m.mem := rfl
@[simp] theorem Mod.setFport_svc (p : Nat) (f : FabPort → FabPort) : (m.setFport p f).svc = m.svc := rfl
@[simp] theorem Mod.setFport_lds (p : Nat) (f : FabPort → FabPort) : (m.setFport p f).lds = m.lds := rfl
@[simp] theorem Mod.setFport_ports (p : Nat) (f : FabPort → FabPort) : (m.setFport p f).ports = m.ports := rfl
@[simp] theorem Mod.setFport_pow (p : Nat) (f : FabPort → FabPort) : (m.setFport p f).pow = m.pow := rfl
@[simp] theorem Mod.setFport_cores (p : Nat) (f : FabPort → FabPort) : (m.setFport p f).cores = m.cores := rfl
@[simp] theorem Mod.setFport_mvs (p : Nat) (f : FabPort → FabPort) : (m.setFport p f).mvs = m.mvs := rfl
@[simp] theorem Mod.setFport_streams (p : Nat) (f : FabPort → FabPort) : (m.setFport p f).streams = m.streams := rfl
@[simp] theorem Mod.setFport_reg (p : Nat) (f : FabPort → FabPort) : (m.setFport p f).reg = m.reg := rfl
@[simp] theorem Mod.setFport_test (p : Nat) (f : FabPort → FabPort) : (m.setFport p f).test = m.test := rfl
@[simp] theorem Mod.setFport_fab (p : Nat) (f : FabPort → FabPort) : (m.setFport p f).fab = { m.fab with ports := m.fab.ports.modify p f } := rfl
@[simp] theorem Mod.setFport_fm (p : Nat) (f : FabPort → FabPort) : (m.setFport p f).fm = m.fm := rfl
@[simp] theorem Mod.setFport_t0 (p : Nat) (f : FabPort → FabPort) : (m.setFport p f).t0 = m.t0 := rfl
@[simp] theorem Mod.setFport_t1 (p : Nat) (f : FabPort → FabPort) : (m.setFport p f).t1 = m.t1 := rfl
@[simp] theorem Mod.setFport_t2 (p : Nat) (f : FabPort → FabPort) : (m.setFport p f).t2 = m.t2 := rfl
@[simp] theorem Mod.setFport_boot (p : Nat) (f : FabPort → FabPort) : (m.setFport p f).boot = m.boot := rfl
@[simp] theorem Mod.setFport_bufs (p : Nat) (f : FabPort → FabPort) : (m.setFport p f).bufs = m.bufs := rfl
@[simp] theorem Mod.setFport_out (p : Nat) (f : FabPort → FabPort) : (m.setFport p f).out = m.out := rfl
@[simp] theorem Mod.setFport_freeIx (p : Nat) (f : FabPort → FabPort) : (m.setFport p f).freeIx = m.freeIx := rfl

@[simp] theorem Mod.setChan_n128 (ch : Nat) (f : Chan → Chan) : (m.setChan ch f).n128 = m.n128 := rfl
@[simp] theorem Mod.setChan_ftc (ch : Nat) (f : Chan → Chan) : (m.setChan ch f).ftc = m.ftc := rfl
@[simp] theorem Mod.setChan_localTime (ch : Nat) (f : Chan → Chan) : (m.setChan ch f).localTime = m.localTime := rfl
@[simp] theorem Mod.setChan_phase (ch : Nat) (f : Chan → Chan) : (m.setChan ch f).phase = m.phase := rfl
@[simp] theorem Mod.setChan_chans (ch : Nat) (f : Chan → Chan) : (m.setChan ch f).chans = Tbl.upd m.chans ch f := rfl
@[simp] theorem Mod.setChan_gaffer (ch : Nat) (f : Chan → Chan) : (m.setChan ch f).gaffer = m.gaffer := rfl
@[simp] theorem Mod.setChan_ctxs (ch : Nat) (f : Chan → Chan) : (m.setChan ch f).ctxs = m.ctxs := rfl
@[simp] theorem Mod.setChan_mem (ch : Nat) (f : Chan → Chan) : (m.setChan ch f).mem = m.mem := rfl
@[simp] theorem Mod.setChan_svc (ch : Nat) (f : Chan → Chan) : (m.setChan ch f).svc = m.svc := rfl
@[simp] theorem Mod.setChan_lds (ch : Nat) (f : Chan → Chan) : (m.setChan ch f).lds = m.lds := rfl
@[simp] theorem Mod.setChan_ports (ch : Nat) (f : Chan → Chan) : (m.setChan ch f).ports = m.ports := rfl
@[simp] theorem Mod.setChan_pow (ch : Nat) (f : Chan → Chan) : (m.setChan ch f).pow = m.pow := rfl
@[simp] theorem Mod.setChan_cores (ch : Nat) (f : Chan → Chan) : (m.setChan ch f).cores = m.cores := rfl
@[simp] theorem Mod.setChan_mvs (ch : Nat) (f : Chan → Chan) : (m.setChan ch f).mvs = m.mvs := rfl
@[simp] theorem Mod.setChan_streams (ch : Nat) (f : Chan → Chan) : (m.setChan ch f).streams = m.streams := rfl
@[simp] theorem Mod.setChan_reg (ch : Nat) (f : Chan → Chan) : (m.setChan ch f).reg = m.reg := rfl
@[simp] theorem Mod.setChan_test (ch : Nat) (f : Chan → Chan) : (m.setChan ch f).test = m.test := rfl
@[simp] theorem Mod.setChan_fab (ch : Nat) (f : Chan → Chan) : (m.setChan ch f).fab = m.fab := rfl
@[simp] theorem Mod.setChan_fm (ch : Nat) (f : Chan → Chan) : (m.setChan ch f).fm = m.fm := rfl
@[simp] theorem Mod.setChan_t0 (ch : Nat) (f : Chan → Chan) : (m.setChan ch f).t0 = m.t0 := rfl
@[simp] theorem Mod.setChan_t1 (ch : Nat) (f : Chan → Chan) : (m.setChan ch f).t1 = m.t1 := rfl
@[simp] theorem Mod.setChan_t2 (ch : Nat) (f : Chan → Chan) : (m.setChan ch f).t2 = m.t2 := rfl
@[simp] theorem Mod.setChan_boot (ch : Nat) (f : Chan → Chan) : (m.setChan ch f).boot = m.boot := rfl
@[simp] theorem Mod.setChan_bufs (ch : Nat) (f : Chan → Chan) : (m.setChan ch f).bufs = m.bufs := rfl
@[simp] theorem Mod.setChan_out (ch : Nat) (f : Chan → Chan) : (m.setChan ch f).out = m.out := rfl
@[simp] theorem Mod.setChan_freeIx (ch : Nat) (f : Chan → Chan) : (m.setChan ch f).freeIx = m.freeIx := rfl

@[simp] theorem Mod.setCtx_n128 (n : Nat) (f : Ctx → Ctx) : (m.setCtx n f).n128 = m.n128 := rfl
@[simp] theorem Mod.setCtx_ftc (n : Nat) (f : Ctx → Ctx) : (m.setCtx n f).ftc = m.ftc := rfl
@[simp] theorem Mod.setCtx_localTime (n : Nat) (f : Ctx → Ctx) : (m.setCtx n f).localTime = m.localTime := rfl
@[simp] theorem Mod.setCtx_phase (n : Nat) (f : Ctx → Ctx) : (m.setCtx n f).phase = m.phase := rfl
@[simp] theorem Mod.setCtx_chans (n : Nat) (f : Ctx → Ctx) : (m.setCtx n f).chans = m.chans := rfl
@[simp] theorem Mod.setCtx_gaffer (n : Nat) (f : Ctx → Ctx) : (m.setCtx n f).gaffer = m.gaffer := rfl
@[simp] theorem Mod.setCtx_ctxs (n : Nat) (f : Ctx → Ctx) : (m.setCtx n f).ctxs = Tbl.upd m.ctxs n f := rfl
@[simp] theorem Mod.setCtx_mem (n : Nat) (f : Ctx → Ctx) : (m.setCtx n f).mem = m.mem := rfl
@[simp] theorem Mod.setCtx_svc (n : Nat) (f : Ctx → Ctx) : (m.setCtx n f).svc = m.svc := rfl
@[simp] theorem Mod.setCtx_lds (n : Nat) (f : Ctx → Ctx) : (m.setCtx n f).lds = m.lds := rfl
@[simp] theorem Mod.setCtx_ports (n : Nat) (f : Ctx → Ctx) : (m.setCtx n f).ports = m.ports := rfl
@[simp] theorem Mod.setCtx_pow (n : Nat) (f : Ctx → Ctx) : (m.setCtx n f).pow = m.pow := rfl
@[simp] theorem Mod.setCtx_cores (n : Nat) (f : Ctx → Ctx) : (m.setCtx n f).cores = m.cores := rfl
@[simp] theorem Mod.setCtx_mvs (n : Nat) (f : Ctx → Ctx) : (m.setCtx n f).mvs = m.mvs := rfl
@[simp] theorem Mod.setCtx_streams (n : Nat) (f : Ctx → Ctx) : (m.setCtx n f).streams = m.streams := rfl
@[simp] theorem Mod.setCtx_reg (n : Nat) (f : Ctx → Ctx) : (m.setCtx n f).reg = m.reg := rfl
@[simp] theorem Mod.setCtx_test (n : Nat) (f : Ctx → Ctx) : (m.setCtx n f).test = m.test := rfl
@[simp] theorem Mod.setCtx_fab (n : Nat) (f : Ctx → Ctx) : (m.setCtx n f).fab = m.fab := rfl
@[simp] theorem Mod.setCtx_fm (n : Nat) (f : Ctx → Ctx) : (m.setCtx n f).fm = m.fm := rfl
@[simp] theorem Mod.setCtx_t0 (n : Nat) (f : Ctx → Ctx) : (m.setCtx n f).t0 = m.t0 := rfl
@[simp] theorem Mod.setCtx_t1 (n : Nat) (f : Ctx → Ctx) : (m.setCtx n f).t1 = m.t1 := rfl
@[simp] theorem Mod.setCtx_t2 (n : Nat) (f : Ctx → Ctx) : (m.setCtx n f).t2 = m.t2 := rfl
@[simp] theorem Mod.setCtx_boot (n : Nat) (f : Ctx → Ctx) : (m.setCtx n f).boot = m.boot := rfl
@[simp] theorem Mod.setCtx_bufs (n : Nat) (f : Ctx → Ctx) : (m.setCtx n f).bufs = m.bufs := rfl
@[simp] theorem Mod.setCtx_out (n : Nat) (f : Ctx → Ctx) : (m.setCtx n f).out = m.out := rfl
@[simp] theorem Mod.setCtx_freeIx (n : Nat) (f : Ctx → Ctx) : (m.setCtx n f).freeIx = m.freeIx := rfl

@[simp] theorem Mod.setMem_n128 (f : Memory → Memory) : (m.setMem f).n128 = m.n128 := rfl
@[simp] theorem Mod.setMem_ftc (f : Memory → Memory) : (m.setMem f).ftc = m.ftc := rfl
@[simp] theorem Mod.setMem_localTime (f : Memory → Memory) : (m.setMem f).localTime = m.localTime := rfl
@[simp] theorem Mod.setMem_phase (f : Memory → Memory) : (m.setMem f).phase = m.phase := rfl
@[simp] theorem Mod.setMem_chans (f : Memory → Memory) : (m.setMem f).chans = m.chans := rfl
@[simp] theorem Mod.setMem_gaffer (f : Memory → Memory) : (m.setMem f).gaffer = m.gaffer := rfl
@[simp] theorem Mod.setMem_ctxs (f : Memory → Memory) : (m.setMem f).ctxs = m.ctxs := rfl
@[simp] theorem Mod.setMem_mem (f : Memory → Memory) : (m.setMem f).mem = f m.mem := rfl
@[simp] theorem Mod.setMem_svc (f : Memory → Memory) : (m.setMem f).svc = m.svc := rfl
@[simp] theorem Mod.setMem_lds (f : Memory → Memory) : (m.setMem f).lds = m.lds := rfl
@[simp] theorem Mod.setMem_ports (f : Memory → Memory) : (m.setMem f).ports = m.ports := rfl
@[simp] theorem Mod.setMem_pow (f : Memory → Memory) : (m.setMem f).pow = m.pow := rfl
@[simp] theorem Mod.setMem_cores (f : Memory → Memory) : (m.setMem f).cores = m.cores := rfl
@[simp] theorem Mod.setMem_mvs (f : Memory → Memory) : (m.setMem f).mvs = m.mvs := rfl
@[simp] theorem Mod.setMem_streams (f : Memory → Memory) : (m.setMem f).streams = m.streams := rfl
@[simp] theorem Mod.setMem_reg (f : Memory → Memory) : (m.setMem f).reg = m.reg := rfl
@[simp] theorem Mod.setMem_test (f : Memory → Memory) : (m.setMem f).test = m.test := rfl
@[simp] theorem Mod.setMem_fab (f : Memory → Memory) : (m.setMem f).fab = m.fab := rfl
@[simp] theorem Mod.setMem_fm (f : Memory → Memory) : (m.setMem f).fm = m.fm := rfl
@[simp] theorem Mod.setMem_t0 (f : Memory → Memory) : (m.setMem f).t0 = m.t0 := rfl
@[simp] theorem Mod.setMem_t1 (f : Memory → Memory) : (m.setMem f).t1 = m.t1 := rfl
@[simp] theorem Mod.setMem_t2 (f : Memory → Memory) : (m.setMem f).t2 = m.t2 := rfl
@[simp] theorem Mod.setMem_boot (f : Memory → Memory) : (m.setMem f).boot = m.boot := rfl
@[simp] theorem Mod.setMem_bufs (f : Memory → Memory) : (m.setMem f).bufs = m.bufs := rfl
@[simp] theorem Mod.setMem_out (f : Memory → Memory) : (m.setMem f).out = m.out := rfl
@[simp] theorem Mod.setMem_freeIx (f : Memory → Memory) : (m.setMem f).freeIx = m.freeIx := rfl

@[simp] theorem Mod.setRegion_n128 (r : Nat) (f : Region → Region) : (m.setRegion r f).n128 = m.n128 := rfl
@[simp] theorem Mod.setRegion_ftc (r : Nat) (f : Region → Region) : (m.setRegion r f).ftc = m.ftc := rfl
@[simp] theorem Mod.setRegion_localTime (r : Nat) (f : Region → Region) : (m.setRegion r f).localTime = m.localTime := rfl
@[simp] theorem Mod.setRegion_phase (r : Nat) (f : Region → Region) : (m.setRegion r f).phase = m.phase := rfl
@[simp] theorem Mod.setRegion_chans (r : Nat) (f : Region → Region) : (m.setRegion r f).chans = m.chans := rfl
@[simp] theorem Mod.setRegion_gaffer (r : Nat) (f : Region → Region) : (m.setRegion r f).gaffer = m.gaffer := rfl
@[simp] theorem Mod.setRegion_ctxs (r : Nat) (f : Region → Region) : (m.setRegion r f).ctxs = m.ctxs := rfl
@[simp] theorem Mod.setRegion_mem (r : Nat) (f : Region → Region) : (m.setRegion r f).mem = { m.mem with regions := Tbl.upd m.mem.regions r f } := rfl
@[simp] theorem Mod.setRegion_svc (r : Nat) (f : Region → Region) : (m.setRegion r f).svc = m.svc := rfl
@[simp] theorem Mod.setRegion_lds (r : Nat) (f : Region → Region) : (m.setRegion r f).lds = m.lds := rfl
@[simp] theorem Mod.setRegion_ports (r : Nat) (f : Region → Region) : (m.setRegion r f).ports = m.ports := rfl
@[simp] theorem Mod.setRegion_pow (r : Nat) (f : Region → Region) : (m.setRegion r f).pow = m.pow := rfl
@[simp] theorem Mod.setRegion_cores (r : Nat) (f : Region → Region) : (m.setRegion r f).cores = m.cores := rfl
@[simp] theorem Mod.setRegion_mvs (r : Nat) (f : Region → Region) : (m.setRegion r f).mvs = m.mvs := rfl
@[simp] theorem Mod.setRegion_streams (r : Nat) (f : Region → Region) : (m.setRegion r f).streams = m.streams := rfl
@[simp] theorem Mod.setRegion_reg (r : Nat) (f : Region → Region) : (m.setRegion r f).reg = m.reg := rfl
@[simp] theorem Mod.setRegion_test (r : Nat) (f : Region → Region) : (m.setRegion r f).test = m.test := rfl
@[simp] theorem Mod.setRegion_fab (r : Nat) (f : Region → Region) : (m.setRegion r f).fab = m.fab := rfl
@[simp] theorem Mod.setRegion_fm (r : Nat) (f : Region → Region) : (m.setRegion r f).fm = m.fm := rfl
@[simp] theorem Mod.setRegion_t0 (r : Nat) (f : Region → Region) : (m.setRegion r f).t0 = m.t0 := rfl
@[simp] theorem Mod.setRegion_t1 (r : Nat) (f : Region → Region) : (m.setRegion r f).t1 = m.t1 := rfl
@[simp] theorem Mod.setRegion_t2 (r : Nat) (f : Region → Region) : (m.setRegion r f).t2 = m.t2 := rfl
@[simp] theorem Mod.setRegion_boot (r : Nat) (f : Region → Region) : (m.setRegion r f).boot = m.boot := rfl
@[simp] theorem Mod.setRegion_bufs (r : Nat) (f : Region → Region) : (m.setRegion r f).bufs = m.bufs := rfl
@[simp] theorem Mod.setRegion_out (r : Nat) (f : Region → Region) : (m.setRegion r f).out = m.out := rfl
@[simp] theorem Mod.setRegion_freeIx (r : Nat) (f : Region → Region) : (m.setRegion r f).freeIx = m.freeIx := rfl

@[simp] theorem Mod.setRec_n128 (r : Nat) (f : PaneRec → PaneRec) : (m.setRec r f).n128 = m.n128 := rfl
@[simp] theorem Mod.setRec_ftc (r : Nat) (f : PaneRec → PaneRec) : (m.setRec r f).ftc = m.ftc := rfl
@[simp] theorem Mod.setRec_localTime (r : Nat) (f : PaneRec → PaneRec) : (m.setRec r f).localTime = m.localTime := rfl
@[simp] theorem Mod.setRec_phase (r : Nat) (f : PaneRec → PaneRec) : (m.setRec r f).phase = m.phase := rfl
@[simp] theorem Mod.setRec_chans (r : Nat) (f : PaneRec → PaneRec) : (m.setRec r f).chans = m.chans := rfl
@[simp] theorem Mod.setRec_gaffer (r : Nat) (f : PaneRec → PaneRec) : (m.setRec r f).gaffer = m.gaffer := rfl
@[simp] theorem Mod.setRec_ctxs (r : Nat) (f : PaneRec → PaneRec) : (m.setRec r f).ctxs = m.ctxs := rfl
@[simp] theorem Mod.setRec_mem (r : Nat) (f : PaneRec → PaneRec) : (m.setRec r f).mem = { m.mem with recs := Tbl.upd m.mem.recs r f } := rfl
@[simp] theorem Mod.setRec_svc (r : Nat) (f : PaneRec → PaneRec) : (m.setRec r f).svc = m.svc := rfl
@[simp] theorem Mod.setRec_lds (r : Nat) (f : PaneRec → PaneRec) : (m.setRec r f).lds = m.lds := rfl
@[simp] theorem Mod.setRec_ports (r : Nat) (f : PaneRec → PaneRec) : (m.setRec r f).ports = m.ports := rfl
@[simp] theorem Mod.setRec_pow (r : Nat) (f : PaneRec → PaneRec) : (m.setRec r f).pow = m.pow := rfl
@[simp] theorem Mod.setRec_cores (r : Nat) (f : PaneRec → PaneRec) : (m.setRec r f).cores = m.cores := rfl
@[simp] theorem Mod.setRec_mvs (r : Nat) (f : PaneRec → PaneRec) : (m.setRec r f).mvs = m.mvs := rfl
@[simp] theorem Mod.setRec_streams (r : Nat) (f : PaneRec → PaneRec) : (m.setRec r f).streams = m.streams := rfl
@[simp] theorem Mod.setRec_reg (r : Nat) (f : PaneRec → PaneRec) : (m.setRec r f).reg = m.reg := rfl
@[simp] theorem Mod.setRec_test (r : Nat) (f : PaneRec → PaneRec) : (m.setRec r f).test = m.test := rfl
@[simp] theorem Mod.setRec_fab (r : Nat) (f : PaneRec → PaneRec) : (m.setRec r f).fab = m.fab := rfl
@[simp] theorem Mod.setRec_fm (r : Nat) (f : PaneRec → PaneRec) : (m.setRec r f).fm = m.fm := rfl
@[simp] theorem Mod.setRec_t0 (r : Nat) (f : PaneRec → PaneRec) : (m.setRec r f).t0 = m.t0 := rfl
@[simp] theorem Mod.setRec_t1 (r : Nat) (f : PaneRec → PaneRec) : (m.setRec r f).t1 = m.t1 := rfl
@[simp] theorem Mod.setRec_t2 (r : Nat) (f : PaneRec → PaneRec) : (m.setRec r f).t2 = m.t2 := rfl
@[simp] theorem Mod.setRec_boot (r : Nat) (f : PaneRec → PaneRec) : (m.setRec r f).boot = m.boot := rfl
@[simp] theorem Mod.setRec_bufs (r : Nat) (f : PaneRec → PaneRec) : (m.setRec r f).bufs = m.bufs := rfl
@[simp] theorem Mod.setRec_out (r : Nat) (f : PaneRec → PaneRec) : (m.setRec r f).out = m.out := rfl
@[simp] theorem Mod.setRec_freeIx (r : Nat) (f : PaneRec → PaneRec) : (m.setRec r f).freeIx = m.freeIx := rfl

@[simp] theorem Mod.setPart_n128 (p : Nat) (f : Part → Part) : (m.setPart p f).n128 = m.n128 := rfl
@[simp] theorem Mod.setPart_ftc (p : Nat) (f : Part → Part) : (m.setPart p f).ftc = m.ftc := rfl
@[simp] theorem Mod.setPart_localTime (p : Nat) (f : Part → Part) : (m.setPart p f).localTime = m.localTime := rfl
@[simp] theorem Mod.setPart_phase (p : Nat) (f : Part → Part) : (m.setPart p f).phase = m.phase := rfl
@[simp] theorem Mod.setPart_chans (p : Nat) (f : Part → Part) : (m.setPart p f).chans = m.chans := rfl
@[simp] theorem Mod.setPart_gaffer (p : Nat) (f : Part → Part) : (m.setPart p f).gaffer = m.gaffer := rfl
@[simp] theorem Mod.setPart_ctxs (p : Nat) (f : Part → Part) : (m.setPart p f).ctxs = m.ctxs := rfl
@[simp] theorem Mod.setPart_mem (p : Nat) (f : Part → Part) : (m.setPart p f).mem = { m.mem with parts := Tbl.upd m.mem.parts p f } := rfl
@[simp] theorem Mod.setPart_svc (p : Nat) (f : Part → Part) : (m.setPart p f).svc = m.svc := rfl
@[simp] theorem Mod.setPart_lds (p : Nat) (f : Part → Part) : (m.setPart p f).lds = m.lds := rfl
@[simp] theorem Mod.setPart_ports (p : Nat) (f : Part → Part) : (m.setPart p f).ports = m.ports := rfl
@[simp] theorem Mod.setPart_pow (p : Nat) (f : Part → Part) : (m.setPart p f).pow = m.pow := rfl
@[simp] theorem Mod.setPart_cores (p : Nat) (f : Part → Part) : (m.setPart p f).cores = m.cores := rfl
@[simp] theorem Mod.setPart_mvs (p : Nat) (f : Part → Part) : (m.setPart p f).mvs = m.mvs := rfl
@[simp] theorem Mod.setPart_streams (p : Nat) (f : Part → Part) : (m.setPart p f).streams = m.streams := rfl
@[simp] theorem Mod.setPart_reg (p : Nat) (f : Part → Part) : (m.setPart p f).reg = m.reg := rfl
@[simp] theorem Mod.setPart_test (p : Nat) (f : Part → Part) : (m.setPart p f).test = m.test := rfl
@[simp] theorem Mod.setPart_fab (p : Nat) (f : Part → Part) : (m.setPart p f).fab = m.fab := rfl
@[simp] theorem Mod.setPart_fm (p : Nat) (f : Part → Part) : (m.setPart p f).fm = m.fm := rfl
@[simp] theorem Mod.setPart_t0 (p : Nat) (f : Part → Part) : (m.setPart p f).t0 = m.t0 := rfl
@[simp] theorem Mod.setPart_t1 (p : Nat) (f : Part → Part) : (m.setPart p f).t1 = m.t1 := rfl
@[simp] theorem Mod.setPart_t2 (p : Nat) (f : Part → Part) : (m.setPart p f).t2 = m.t2 := rfl
@[simp] theorem Mod.setPart_boot (p : Nat) (f : Part → Part) : (m.setPart p f).boot = m.boot := rfl
@[simp] theorem Mod.setPart_bufs (p : Nat) (f : Part → Part) : (m.setPart p f).bufs = m.bufs := rfl
@[simp] theorem Mod.setPart_out (p : Nat) (f : Part → Part) : (m.setPart p f).out = m.out := rfl
@[simp] theorem Mod.setPart_freeIx (p : Nat) (f : Part → Part) : (m.setPart p f).freeIx = m.freeIx := rfl

@[simp] theorem Mod.setExtent_n128 (e : Nat) (f : Extent → Extent) : (m.setExtent e f).n128 = m.n128 := rfl
@[simp] theorem Mod.setExtent_ftc (e : Nat) (f : Extent → Extent) : (m.setExtent e f).ftc = m.ftc := rfl
@[simp] theorem Mod.setExtent_localTime (e : Nat) (f : Extent → Extent) : (m.setExtent e f).localTime = m.localTime := rfl
@[simp] theorem Mod.setExtent_phase (e : Nat) (f : Extent → Extent) : (m.setExtent e f).phase = m.phase := rfl
@[simp] theorem Mod.setExtent_chans (e : Nat) (f : Extent → Extent) : (m.setExtent e f).chans = m.chans := rfl
@[simp] theorem Mod.setExtent_gaffer (e : Nat) (f : Extent → Extent) : (m.setExtent e f).gaffer = m.gaffer := rfl
@[simp] theorem Mod.setExtent_ctxs (e : Nat) (f : Extent → Extent) : (m.setExtent e f).ctxs = m.ctxs := rfl
@[simp] theorem Mod.setExtent_mem (e : Nat) (f : Extent → Extent) : (m.setExtent e f).mem = { m.mem with extents := Tbl.upd m.mem.extents e f } := rfl
@[simp] theorem Mod.setExtent_svc (e : Nat) (f : Extent → Extent) : (m.setExtent e f).svc = m.svc := rfl
@[simp] theorem Mod.setExtent_lds (e : Nat) (f : Extent → Extent) : (m.setExtent e f).lds = m.lds := rfl
@[simp] theorem Mod.setExtent_ports (e : Nat) (f : Extent → Extent) : (m.setExtent e f).ports = m.ports := rfl
@[simp] theorem Mod.setExtent_pow (e : Nat) (f : Extent → Extent) : (m.setExtent e f).pow = m.pow := rfl
@[simp] theorem Mod.setExtent_cores (e : Nat) (f : Extent → Extent) : (m.setExtent e f).cores = m.cores := rfl
@[simp] theorem Mod.setExtent_mvs (e : Nat) (f : Extent → Extent) : (m.setExtent e f).mvs = m.mvs := rfl
@[simp] theorem Mod.setExtent_streams (e : Nat) (f : Extent → Extent) : (m.setExtent e f).streams = m.streams := rfl
@[simp] theorem Mod.setExtent_reg (e : Nat) (f : Extent → Extent) : (m.setExtent e f).reg = m.reg := rfl
@[simp] theorem Mod.setExtent_test (e : Nat) (f : Extent → Extent) : (m.setExtent e f).test = m.test := rfl
@[simp] theorem Mod.setExtent_fab (e : Nat) (f : Extent → Extent) : (m.setExtent e f).fab = m.fab := rfl
@[simp] theorem Mod.setExtent_fm (e : Nat) (f : Extent → Extent) : (m.setExtent e f).fm = m.fm := rfl
@[simp] theorem Mod.setExtent_t0 (e : Nat) (f : Extent → Extent) : (m.setExtent e f).t0 = m.t0 := rfl
@[simp] theorem Mod.setExtent_t1 (e : Nat) (f : Extent → Extent) : (m.setExtent e f).t1 = m.t1 := rfl
@[simp] theorem Mod.setExtent_t2 (e : Nat) (f : Extent → Extent) : (m.setExtent e f).t2 = m.t2 := rfl
@[simp] theorem Mod.setExtent_boot (e : Nat) (f : Extent → Extent) : (m.setExtent e f).boot = m.boot := rfl
@[simp] theorem Mod.setExtent_bufs (e : Nat) (f : Extent → Extent) : (m.setExtent e f).bufs = m.bufs := rfl
@[simp] theorem Mod.setExtent_out (e : Nat) (f : Extent → Extent) : (m.setExtent e f).out = m.out := rfl
@[simp] theorem Mod.setExtent_freeIx (e : Nat) (f : Extent → Extent) : (m.setExtent e f).freeIx = m.freeIx := rfl

@[simp] theorem Mod.setMv_n128 (v : Nat) (f : Movement → Movement) : (m.setMv v f).n128 = m.n128 := rfl
@[simp] theorem Mod.setMv_ftc (v : Nat) (f : Movement → Movement) : (m.setMv v f).ftc = m.ftc := rfl
@[simp] theorem Mod.setMv_localTime (v : Nat) (f : Movement → Movement) : (m.setMv v f).localTime = m.localTime := rfl
@[simp] theorem Mod.setMv_phase (v : Nat) (f : Movement → Movement) : (m.setMv v f).phase = m.phase := rfl
@[simp] theorem Mod.setMv_chans (v : Nat) (f : Movement → Movement) : (m.setMv v f).chans = m.chans := rfl
@[simp] theorem Mod.setMv_gaffer (v : Nat) (f : Movement → Movement) : (m.setMv v f).gaffer = m.gaffer := rfl
@[simp] theorem Mod.setMv_ctxs (v : Nat) (f : Movement → Movement) : (m.setMv v f).ctxs = m.ctxs := rfl
@[simp] theorem Mod.setMv_mem (v : Nat) (f : Movement → Movement) : (m.setMv v f).mem = m.mem := rfl
@[simp] theorem Mod.setMv_svc (v : Nat) (f : Movement → Movement) : (m.setMv v f).svc = m.svc := rfl
@[simp] theorem Mod.setMv_lds (v : Nat) (f : Movement → Movement) : (m.setMv v f).lds = m.lds := rfl
@[simp] theorem Mod.setMv_ports (v : Nat) (f : Movement → Movement) : (m.setMv v f).ports = m.ports := rfl
@[simp] theorem Mod.setMv_pow (v : Nat) (f : Movement → Movement) : (m.setMv v f).pow = m.pow := rfl
@[simp] theorem Mod.setMv_cores (v : Nat) (f : Movement → Movement) : (m.setMv v f).cores = m.cores := rfl
@[simp] theorem Mod.setMv_mvs (v : Nat) (f : Movement → Movement) : (m.setMv v f).mvs = Tbl.upd m.mvs v f := rfl
@[simp] theorem Mod.setMv_streams (v : Nat) (f : Movement → Movement) : (m.setMv v f).streams = m.streams := rfl
@[simp] theorem Mod.setMv_reg (v : Nat) (f : Movement → Movement) : (m.setMv v f).reg = m.reg := rfl
@[simp] theorem Mod.setMv_test (v : Nat) (f : Movement → Movement) : (m.setMv v f).test = m.test := rfl
@[simp] theorem Mod.setMv_fab (v : Nat) (f : Movement → Movement) : (m.setMv v f).fab = m.fab := rfl
@[simp] theorem Mod.setMv_fm (v : Nat) (f : Movement → Movement) : (m.setMv v f).fm = m.fm := rfl
@[simp] theorem Mod.setMv_t0 (v : Nat) (f : Movement → Movement) : (m.setMv v f).t0 = m.t0 := rfl
@[simp] theorem Mod.setMv_t1 (v : Nat) (f : Movement → Movement) : (m.setMv v f).t1 = m.t1 := rfl
@[simp] theorem Mod.setMv_t2 (v : Nat) (f : Movement → Movement) : (m.setMv v f).t2 = m.t2 := rfl
@[simp] theorem Mod.setMv_boot (v : Nat) (f : Movement → Movement) : (m.setMv v f).boot = m.boot := rfl
@[simp] theorem Mod.setMv_bufs (v : Nat) (f : Movement → Movement) : (m.setMv v f).bufs = m.bufs := rfl
@[simp] theorem Mod.setMv_out (v : Nat) (f : Movement → Movement) : (m.setMv v f).out = m.out := rfl
@[simp] theorem Mod.setMv_freeIx (v : Nat) (f : Movement → Movement) : (m.setMv v f).freeIx = m.freeIx := rfl

@[simp] theorem Mod.setStream_n128 (v : Nat) (f : Stream → Stream) : (m.setStream v f).n128 = m.n128 := rfl
@[simp] theorem Mod.setStream_ftc (v : Nat) (f : Stream → Stream) : (m.setStream v f).ftc = m.ftc := rfl
@[simp] theorem Mod.setStream_localTime (v : Nat) (f : Stream → Stream) : (m.setStream v f).localTime = m.localTime := rfl
@[simp] theorem Mod.setStream_phase (v : Nat) (f : Stream → Stream) : (m.setStream v f).phase = m.phase := rfl
@[simp] theorem Mod.setStream_chans (v : Nat) (f : Stream → Stream) : (m.setStream v f).chans = m.chans := rfl
@[simp] theorem Mod.setStream_gaffer (v : Nat) (f : Stream → Stream) : (m.setStream v f).gaffer = m.gaffer := rfl
@[simp] theorem Mod.setStream_ctxs (v : Nat) (f : Stream → Stream) : (m.setStream v f).ctxs = m.ctxs := rfl
@[simp] theorem Mod.setStream_mem (v : Nat) (f : Stream → Stream) : (m.setStream v f).mem = m.mem := rfl
@[simp] theorem Mod.setStream_svc (v : Nat) (f : Stream → Stream) : (m.setStream v f).svc = m.svc := rfl
@[simp] theorem Mod.setStream_lds (v : Nat) (f : Stream → Stream) : (m.setStream v f).lds = m.lds := rfl
@[simp] theorem Mod.setStream_ports (v : Nat) (f : Stream → Stream) : (m.setStream v f).ports = m.ports := rfl
@[simp] theorem Mod.setStream_pow (v : Nat) (f : Stream → Stream) : (m.setStream v f).pow = m.pow := rfl
@[simp] theorem Mod.setStream_cores (v : Nat) (f : Stream → Stream) : (m.setStream v f).cores = m.cores := rfl
@[simp] theorem Mod.setStream_mvs (v : Nat) (f : Stream → Stream) : (m.setStream v f).mvs = m.mvs := rfl
@[simp] theorem Mod.setStream_streams (v : Nat) (f : Stream → Stream) : (m.setStream v f).streams = Tbl.upd m.streams v f := rfl
@[simp] theorem Mod.setStream_reg (v : Nat) (f : Stream → Stream) : (m.setStream v f).reg = m.reg := rfl
@[simp] theorem Mod.setStream_test (v : Nat) (f : Stream → Stream) : (m.setStream v f).test = m.test := rfl
@[simp] theorem Mod.setStream_fab (v : Nat) (f : Stream → Stream) : (m.setStream v f).fab = m.fab := rfl
@[simp] theorem Mod.setStream_fm (v : Nat) (f : Stream → Stream) : (m.setStream v f).fm = m.fm := rfl
@[simp] theorem Mod.setStream_t0 (v : Nat) (f : Stream → Stream) : (m.setStream v f).t0 = m.t0 := rfl
@[simp] theorem Mod.setStream_t1 (v : Nat) (f : Stream → Stream) : (m.setStream v f).t1 = m.t1 := rfl
@[simp] theorem Mod.setStream_t2 (v : Nat) (f : Stream → Stream) : (m.setStream v f).t2 = m.t2 := rfl
@[simp] theorem Mod.setStream_boot (v : Nat) (f : Stream → Stream) : (m.setStream v f).boot = m.boot := rfl
@[simp] theorem Mod.setStream_bufs (v : Nat) (f : Stream → Stream) : (m.setStream v f).bufs = m.bufs := rfl
@[simp] theorem Mod.setStream_out (v : Nat) (f : Stream → Stream) : (m.setStream v f).out = m.out := rfl
@[simp] theorem Mod.setStream_freeIx (v : Nat) (f : Stream → Stream) : (m.setStream v f).freeIx = m.freeIx := rfl

@[simp] theorem Mod.setPow_n128 (f : Power → Power) : (m.setPow f).n128 = m.n128 := rfl
@[simp] theorem Mod.setPow_ftc (f : Power → Power) : (m.setPow f).ftc = m.ftc := rfl
@[simp] theorem Mod.setPow_localTime (f : Power → Power) : (m.setPow f).localTime = m.localTime := rfl
@[simp] theorem Mod.setPow_phase (f : Power → Power) : (m.setPow f).phase = m.phase := rfl
@[simp] theorem Mod.setPow_chans (f : Power → Power) : (m.setPow f).chans = m.chans := rfl
@[simp] theorem Mod.setPow_gaffer (f : Power → Power) : (m.setPow f).gaffer = m.gaffer := rfl
@[simp] theorem Mod.setPow_ctxs (f : Power → Power) : (m.setPow f).ctxs = m.ctxs := rfl
@[simp] theorem Mod.setPow_mem (f : Power → Power) : (m.setPow f).mem = m.mem := rfl
@[simp] theorem Mod.setPow_svc (f : Power → Power) : (m.setPow f).svc = m.svc := rfl
@[simp] theorem Mod.setPow_lds (f : Power → Power) : (m.setPow f).lds = m.lds := rfl
@[simp] theorem Mod.setPow_ports (f : Power → Power) : (m.setPow f).ports = m.ports := rfl
@[simp] theorem Mod.setPow_pow (f : Power → Power) : (m.setPow f).pow = f m.pow := rfl
@[simp] theorem Mod.setPow_cores (f : Power → Power) : (m.setPow f).cores = m.cores := rfl
@[simp] theorem Mod.setPow_mvs (f : Power → Power) : (m.setPow f).mvs = m.mvs := rfl
@[simp] theorem Mod.setPow_streams (f : Power → Power) : (m.setPow f).streams = m.streams := rfl
@[simp] theorem Mod.setPow_reg (f : Power → Power) : (m.setPow f).reg = m.reg := rfl
@[simp] theorem Mod.setPow_test (f : Power → Power) : (m.setPow f).test = m.test := rfl
@[simp] theorem Mod.setPow_fab (f : Power → Power) : (m.setPow f).fab = m.fab := rfl
@[simp] theorem Mod.setPow_fm (f : Power → Power) : (m.setPow f).fm = m.fm := rfl
@[simp] theorem Mod.setPow_t0 (f : Power → Power) : (m.setPow f).t0 = m.t0 := rfl
@[simp] theorem Mod.setPow_t1 (f : Power → Power) : (m.setPow f).t1 = m.t1 := rfl
@[simp] theorem Mod.setPow_t2 (f : Power → Power) : (m.setPow f).t2 = m.t2 := rfl
@[simp] theorem Mod.setPow_boot (f : Power → Power) : (m.setPow f).boot = m.boot := rfl
@[simp] theorem Mod.setPow_bufs (f : Power → Power) : (m.setPow f).bufs = m.bufs := rfl
@[simp] theorem Mod.setPow_out (f : Power → Power) : (m.setPow f).out = m.out := rfl
@[simp] theorem Mod.setPow_freeIx (f : Power → Power) : (m.setPow f).freeIx = m.freeIx := rfl

@[simp] theorem Mod.setSvc_n128 (f : Service → Service) : (m.setSvc f).n128 = m.n128 := rfl
@[simp] theorem Mod.setSvc_ftc (f : Service → Service) : (m.setSvc f).ftc = m.ftc := rfl
@[simp] theorem Mod.setSvc_localTime (f : Service → Service) : (m.setSvc f).localTime = m.localTime := rfl
@[simp] theorem Mod.setSvc_phase (f : Service → Service) : (m.setSvc f).phase = m.phase := rfl
@[simp] theorem Mod.setSvc_chans (f : Service → Service) : (m.setSvc f).chans = m.chans := rfl
@[simp] theorem Mod.setSvc_gaffer (f : Service → Service) : (m.setSvc f).gaffer = m.gaffer := rfl
@[simp] theorem Mod.setSvc_ctxs (f : Service → Service) : (m.setSvc f).ctxs = m.ctxs := rfl
@[simp] theorem Mod.setSvc_mem (f : Service → Service) : (m.setSvc f).mem = m.mem := rfl
@[simp] theorem Mod.setSvc_svc (f : Service → Service) : (m.setSvc f).svc = f m.svc := rfl
@[simp] theorem Mod.setSvc_lds (f : Service → Service) : (m.setSvc f).lds = m.lds := rfl
@[simp] theorem Mod.setSvc_ports (f : Service → Service) : (m.setSvc f).ports = m.ports := rfl
@[simp] theorem Mod.setSvc_pow (f : Service → Service) : (m.setSvc f).pow = m.pow := rfl
@[simp] theorem Mod.setSvc_cores (f : Service → Service) : (m.setSvc f).cores = m.cores := rfl
@[simp] theorem Mod.setSvc_mvs (f : Service → Service) : (m.setSvc f).mvs = m.mvs := rfl
@[simp] theorem Mod.setSvc_streams (f : Service → Service) : (m.setSvc f).streams = m.streams := rfl
@[simp] theorem Mod.setSvc_reg (f : Service → Service) : (m.setSvc f).reg = m.reg := rfl
@[simp] theorem Mod.setSvc_test (f : Service → Service) : (m.setSvc f).test = m.test := rfl
@[simp] theorem Mod.setSvc_fab (f : Service → Service) : (m.setSvc f).fab = m.fab := rfl
@[simp] theorem Mod.setSvc_fm (f : Service → Service) : (m.setSvc f).fm = m.fm := rfl
@[simp] theorem Mod.setSvc_t0 (f : Service → Service) : (m.setSvc f).t0 = m.t0 := rfl
@[simp] theorem Mod.setSvc_t1 (f : Service → Service) : (m.setSvc f).t1 = m.t1 := rfl
@[simp] theorem Mod.setSvc_t2 (f : Service → Service) : (m.setSvc f).t2 = m.t2 := rfl
@[simp] theorem Mod.setSvc_boot (f : Service → Service) : (m.setSvc f).boot = m.boot := rfl
@[simp] theorem Mod.setSvc_bufs (f : Service → Service) : (m.setSvc f).bufs = m.bufs := rfl
@[simp] theorem Mod.setSvc_out (f : Service → Service) : (m.setSvc f).out = m.out := rfl
@[simp] theorem Mod.setSvc_freeIx (f : Service → Service) : (m.setSvc f).freeIx = m.freeIx := rfl

@[simp] theorem Mod.setTrace_n128 (f : Trace → Trace) : (m.setTrace f).n128 = m.n128 := rfl
@[simp] theorem Mod.setTrace_ftc (f : Trace → Trace) : (m.setTrace f).ftc = m.ftc := rfl
@[simp] theorem Mod.setTrace_localTime (f : Trace → Trace) : (m.setTrace f).localTime = m.localTime := rfl
@[simp] theorem Mod.setTrace_phase (f : Trace → Trace) : (m.setTrace f).phase = m.phase := rfl
@[simp] theorem Mod.setTrace_chans (f : Trace → Trace) : (m.setTrace f).chans = m.chans := rfl
@[simp] theorem Mod.setTrace_gaffer (f : Trace → Trace) : (m.setTrace f).gaffer = m.gaffer := rfl
@[simp] theorem Mod.setTrace_ctxs (f : Trace → Trace) : (m.setTrace f).ctxs = m.ctxs := rfl
@[simp] theorem Mod.setTrace_mem (f : Trace → Trace) : (m.setTrace f).mem = m.mem := rfl
@[simp] theorem Mod.setTrace_svc (f : Trace → Trace) : (m.setTrace f).svc = { m.svc with trace := f m.svc.trace } := rfl
@[simp] theorem Mod.setTrace_lds (f : Trace → Trace) : (m.setTrace f).lds = m.lds := rfl
@[simp] theorem Mod.setTrace_ports (f : Trace → Trace) : (m.setTrace f).ports = m.ports := rfl
@[simp] theorem Mod.setTrace_pow (f : Trace → Trace) : (m.setTrace f).pow = m.pow := rfl
@[simp] theorem Mod.setTrace_cores (f : Trace → Trace) : (m.setTrace f).cores = m.cores := rfl
@[simp] theorem Mod.setTrace_mvs (f : Trace → Trace) : (m.setTrace f).mvs = m.mvs := rfl
@[simp] theorem Mod.setTrace_streams (f : Trace → Trace) : (m.setTrace f).streams = m.streams := rfl
@[simp] theorem Mod.setTrace_reg (f : Trace → Trace) : (m.setTrace f).reg = m.reg := rfl
@[simp] theorem Mod.setTrace_test (f : Trace → Trace) : (m.setTrace f).test = m.test := rfl
@[simp] theorem Mod.setTrace_fab (f : Trace → Trace) : (m.setTrace f).fab = m.fab := rfl
@[simp] theorem Mod.setTrace_fm (f : Trace → Trace) : (m.setTrace f).fm = m.fm := rfl
@[simp] theorem Mod.setTrace_t0 (f : Trace → Trace) : (m.setTrace f).t0 = m.t0 := rfl
@[simp] theorem Mod.setTrace_t1 (f : Trace → Trace) : (m.setTrace f).t1 = m.t1 := rfl
@[simp] theorem Mod.setTrace_t2 (f : Trace → Trace) : (m.setTrace f).t2 = m.t2 := rfl
@[simp] theorem Mod.setTrace_boot (f : Trace → Trace) : (m.setTrace f).boot = m.boot := rfl
@[simp] theorem Mod.setTrace_bufs (f : Trace → Trace) : (m.setTrace f).bufs = m.bufs := rfl
@[simp] theorem Mod.setTrace_out (f : Trace → Trace) : (m.setTrace f).out = m.out := rfl
@[simp] theorem Mod.setTrace_freeIx (f : Trace → Trace) : (m.setTrace f).freeIx = m.freeIx := rfl

@[simp] theorem Mod.setHang_n128 (f : Hang → Hang) : (m.setHang f).n128 = m.n128 := rfl
@[simp] theorem Mod.setHang_ftc (f : Hang → Hang) : (m.setHang f).ftc = m.ftc := rfl
@[simp] theorem Mod.setHang_localTime (f : Hang → Hang) : (m.setHang f).localTime = m.localTime := rfl
@[simp] theorem Mod.setHang_phase (f : Hang → Hang) : (m.setHang f).phase = m.phase := rfl
@[simp] theorem Mod.setHang_chans (f : Hang → Hang) : (m.setHang f).chans = m.chans := rfl
@[simp] theorem Mod.setHang_gaffer (f : Hang → Hang) : (m.setHang f).gaffer = m.gaffer := rfl
@[simp] theorem Mod.setHang_ctxs (f : Hang → Hang) : (m.setHang f).ctxs = m.ctxs := rfl
@[simp] theorem Mod.setHang_mem (f : Hang → Hang) : (m.setHang f).mem = m.mem := rfl
@[simp] theorem Mod.setHang_svc (f : Hang → Hang) : (m.setHang f).svc = { m.svc with hang := f m.svc.hang } := rfl
@[simp] theorem Mod.setHang_lds (f : Hang → Hang) : (m.setHang f).lds = m.lds := rfl
@[simp] theorem Mod.setHang_ports (f : Hang → Hang) : (m.setHang f).ports = m.ports := rfl
@[simp] theorem Mod.setHang_pow (f : Hang → Hang) : (m.setHang f).pow = m.pow := rfl
@[simp] theorem Mod.setHang_cores (f : Hang → Hang) : (m.setHang f).cores = m.cores := rfl
@[simp] theorem Mod.setHang_mvs (f : Hang → Hang) : (m.setHang f).mvs = m.mvs := rfl
@[simp] theorem Mod.setHang_streams (f : Hang → Hang) : (m.setHang f).streams = m.streams := rfl
@[simp] theorem Mod.setHang_reg (f : Hang → Hang) : (m.setHang f).reg = m.reg := rfl
@[simp] theorem Mod.setHang_test (f : Hang → Hang) : (m.setHang f).test = m.test := rfl
@[simp] theorem Mod.setHang_fab (f : Hang → Hang) : (m.setHang f).fab = m.fab := rfl
@[simp] theorem Mod.setHang_fm (f : Hang → Hang) : (m.setHang f).fm = m.fm := rfl
@[simp] theorem Mod.setHang_t0 (f : Hang → Hang) : (m.setHang f).t0 = m.t0 := rfl
@[simp] theorem Mod.setHang_t1 (f : Hang → Hang) : (m.setHang f).t1 = m.t1 := rfl
@[simp] theorem Mod.setHang_t2 (f : Hang → Hang) : (m.setHang f).t2 = m.t2 := rfl
@[simp] theorem Mod.setHang_boot (f : Hang → Hang) : (m.setHang f).boot = m.boot := rfl
@[simp] theorem Mod.setHang_bufs (f : Hang → Hang) : (m.setHang f).bufs = m.bufs := rfl
@[simp] theorem Mod.setHang_out (f : Hang → Hang) : (m.setHang f).out = m.out := rfl
@[simp] theorem Mod.setHang_freeIx (f : Hang → Hang) : (m.setHang f).freeIx = m.freeIx := rfl

@[simp] theorem Mod.setErr_n128 (f : ErrLog → ErrLog) : (m.setErr f).n128 = m.n128 := rfl
@[simp] theorem Mod.setErr_ftc (f : ErrLog → ErrLog) : (m.setErr f).ftc = m.ftc := rfl
@[simp] theorem Mod.setErr_localTime (f : ErrLog → ErrLog) : (m.setErr f).localTime = m.localTime := rfl
@[simp] theorem Mod.setErr_phase (f : ErrLog → ErrLog) : (m.setErr f).phase = m.phase := rfl
@[simp] theorem Mod.setErr_chans (f : ErrLog → ErrLog) : (m.setErr f).chans = m.chans := rfl
@[simp] theorem Mod.setErr_gaffer (f : ErrLog → ErrLog) : (m.setErr f).gaffer = m.gaffer := rfl
@[simp] theorem Mod.setErr_ctxs (f : ErrLog → ErrLog) : (m.setErr f).ctxs = m.ctxs := rfl
@[simp] theorem Mod.setErr_mem (f : ErrLog → ErrLog) : (m.setErr f).mem = m.mem := rfl
@[simp] theorem Mod.setErr_svc (f : ErrLog → ErrLog) : (m.setErr f).svc = { m.svc with err := f m.svc.err } := rfl
@[simp] theorem Mod.setErr_lds (f : ErrLog → ErrLog) : (m.setErr f).lds = m.lds := rfl
@[simp] theorem Mod.setErr_ports (f : ErrLog → ErrLog) : (m.setErr f).ports = m.ports := rfl
@[simp] theorem Mod.setErr_pow (f : ErrLog → ErrLog) : (m.setErr f).pow = m.pow := rfl
@[simp] theorem Mod.setErr_cores (f : ErrLog → ErrLog) : (m.setErr f).cores = m.cores := rfl
@[simp] theorem Mod.setErr_mvs (f : ErrLog → ErrLog) : (m.setErr f).mvs = m.mvs := rfl
@[simp] theorem Mod.setErr_streams (f : ErrLog → ErrLog) : (m.setErr f).streams = m.streams := rfl
@[simp] theorem Mod.setErr_reg (f : ErrLog → ErrLog) : (m.setErr f).reg = m.reg := rfl
@[simp] theorem Mod.setErr_test (f : ErrLog → ErrLog) : (m.setErr f).test = m.test := rfl
@[simp] theorem Mod.setErr_fab (f : ErrLog → ErrLog) : (m.setErr f).fab = m.fab := rfl
@[simp] theorem Mod.setErr_fm (f : ErrLog → ErrLog) : (m.setErr f).fm = m.fm := rfl
@[simp] theorem Mod.setErr_t0 (f : ErrLog → ErrLog) : (m.setErr f).t0 = m.t0 := rfl
@[simp] theorem Mod.setErr_t1 (f : ErrLog → ErrLog) : (m.setErr f).t1 = m.t1 := rfl
@[simp] theorem Mod.setErr_t2 (f : ErrLog → ErrLog) : (m.setErr f).t2 = m.t2 := rfl
@[simp] theorem Mod.setErr_boot (f : ErrLog → ErrLog) : (m.setErr f).boot = m.boot := rfl
@[simp] theorem Mod.setErr_bufs (f : ErrLog → ErrLog) : (m.setErr f).bufs = m.bufs := rfl
@[simp] theorem Mod.setErr_out (f : ErrLog → ErrLog) : (m.setErr f).out = m.out := rfl
@[simp] theorem Mod.setErr_freeIx (f : ErrLog → ErrLog) : (m.setErr f).freeIx = m.freeIx := rfl

@[simp] theorem Mod.setFab_n128 (f : Fabric → Fabric) : (m.setFab f).n128 = m.n128 := rfl
@[simp] theorem Mod.setFab_ftc (f : Fabric → Fabric) : (m.setFab f).ftc = m.ftc := rfl
@[simp] theorem Mod.setFab_localTime (f : Fabric → Fabric) : (m.setFab f).localTime = m.localTime := rfl
@[simp] theorem Mod.setFab_phase (f : Fabric → Fabric) : (m.setFab f).phase = m.phase := rfl
@[simp] theorem Mod.setFab_chans (f : Fabric → Fabric) : (m.setFab f).chans = m.chans := rfl
@[simp] theorem Mod.setFab_gaffer (f : Fabric → Fabric) : (m.setFab f).gaffer = m.gaffer := rfl
@[simp] theorem Mod.setFab_ctxs (f : Fabric → Fabric) : (m.setFab f).ctxs = m.ctxs := rfl
@[simp] theorem Mod.setFab_mem (f : Fabric → Fabric) : (m.setFab f).mem = m.mem := rfl
@[simp] theorem Mod.setFab_svc (f : Fabric → Fabric) : (m.setFab f).svc = m.svc := rfl
@[simp] theorem Mod.setFab_lds (f : Fabric → Fabric) : (m.setFab f).lds = m.lds := rfl
@[simp] theorem Mod.setFab_ports (f : Fabric → Fabric) : (m.setFab f).ports = m.ports := rfl
@[simp] theorem Mod.setFab_pow (f : Fabric → Fabric) : (m.setFab f).pow = m.pow := rfl
@[simp] theorem Mod.setFab_cores (f : Fabric → Fabric) : (m.setFab f).cores = m.cores := rfl
@[simp] theorem Mod.setFab_mvs (f : Fabric → Fabric) : (m.setFab f).mvs = m.mvs := rfl
@[simp] theorem Mod.setFab_streams (f : Fabric → Fabric) : (m.setFab f).streams = m.streams := rfl
@[simp] theorem Mod.setFab_reg (f : Fabric → Fabric) : (m.setFab f).reg = m.reg := rfl
@[simp] theorem Mod.setFab_test (f : Fabric → Fabric) : (m.setFab f).test = m.test := rfl
@[simp] theorem Mod.setFab_fab (f : Fabric → Fabric) : (m.setFab f).fab = f m.fab := rfl
@[simp] theorem Mod.setFab_fm (f : Fabric → Fabric) : (m.setFab f).fm = m.fm := rfl
@[simp] theorem Mod.setFab_t0 (f : Fabric → Fabric) : (m.setFab f).t0 = m.t0 := rfl
@[simp] theorem Mod.setFab_t1 (f : Fabric → Fabric) : (m.setFab f).t1 = m.t1 := rfl
@[simp] theorem Mod.setFab_t2 (f : Fabric → Fabric) : (m.setFab f).t2 = m.t2 := rfl
@[simp] theorem Mod.setFab_boot (f : Fabric → Fabric) : (m.setFab f).boot = m.boot := rfl
@[simp] theorem Mod.setFab_bufs (f : Fabric → Fabric) : (m.setFab f).bufs = m.bufs := rfl
@[simp] theorem Mod.setFab_out (f : Fabric → Fabric) : (m.setFab f).out = m.out := rfl
@[simp] theorem Mod.setFab_freeIx (f : Fabric → Fabric) : (m.setFab f).freeIx = m.freeIx := rfl

@[simp] theorem Mod.setFm_n128 (f : FabMem → FabMem) : (m.setFm f).n128 = m.n128 := rfl
@[simp] theorem Mod.setFm_ftc (f : FabMem → FabMem) : (m.setFm f).ftc = m.ftc := rfl
@[simp] theorem Mod.setFm_localTime (f : FabMem → FabMem) : (m.setFm f).localTime = m.localTime := rfl
@[simp] theorem Mod.setFm_phase (f : FabMem → FabMem) : (m.setFm f).phase = m.phase := rfl
@[simp] theorem Mod.setFm_chans (f : FabMem → FabMem) : (m.setFm f).chans = m.chans := rfl
@[simp] theorem Mod.setFm_gaffer (f : FabMem → FabMem) : (m.setFm f).gaffer = m.gaffer := rfl
@[simp] theorem Mod.setFm_ctxs (f : FabMem → FabMem) : (m.setFm f).ctxs = m.ctxs := rfl
@[simp] theorem Mod.setFm_mem (f : FabMem → FabMem) : (m.setFm f).mem = m.mem := rfl
@[simp] theorem Mod.setFm_svc (f : FabMem → FabMem) : (m.setFm f).svc = m.svc := rfl
@[simp] theorem Mod.setFm_lds (f : FabMem → FabMem) : (m.setFm f).lds = m.lds := rfl
@[simp] theorem Mod.setFm_ports (f : FabMem → FabMem) : (m.setFm f).ports = m.ports := rfl
@[simp] theorem Mod.setFm_pow (f : FabMem → FabMem) : (m.setFm f).pow = m.pow := rfl
@[simp] theorem Mod.setFm_cores (f : FabMem → FabMem) : (m.setFm f).cores = m.cores := rfl
@[simp] theorem Mod.setFm_mvs (f : FabMem → FabMem) : (m.setFm f).mvs = m.mvs := rfl
@[simp] theorem Mod.setFm_streams (f : FabMem → FabMem) : (m.setFm f).streams = m.streams := rfl
@[simp] theorem Mod.setFm_reg (f : FabMem → FabMem) : (m.setFm f).reg = m.reg := rfl
@[simp] theorem Mod.setFm_test (f : FabMem → FabMem) : (m.setFm f).test = m.test := rfl
@[simp] theorem Mod.setFm_fab (f : FabMem → FabMem) : (m.setFm f).fab = m.fab := rfl
@[simp] theorem Mod.setFm_fm (f : FabMem → FabMem) : (m.setFm f).fm = f m.fm := rfl
@[simp] theorem Mod.setFm_t0 (f : FabMem → FabMem) : (m.setFm f).t0 = m.t0 := rfl
@[simp] theorem Mod.setFm_t1 (f : FabMem → FabMem) : (m.setFm f).t1 = m.t1 := rfl
@[simp] theorem Mod.setFm_t2 (f : FabMem → FabMem) : (m.setFm f).t2 = m.t2 := rfl
@[simp] theorem Mod.setFm_boot (f : FabMem → FabMem) : (m.setFm f).boot = m.boot := rfl
@[simp] theorem Mod.setFm_bufs (f : FabMem → FabMem) : (m.setFm f).bufs = m.bufs := rfl
@[simp] theorem Mod.setFm_out (f : FabMem → FabMem) : (m.setFm f).out = m.out := rfl
@[simp] theorem Mod.setFm_freeIx (f : FabMem → FabMem) : (m.setFm f).freeIx = m.freeIx := rfl

@[simp] theorem Mod.setTest_n128 (f : Test → Test) : (m.setTest f).n128 = m.n128 := rfl
@[simp] theorem Mod.setTest_ftc (f : Test → Test) : (m.setTest f).ftc = m.ftc := rfl
@[simp] theorem Mod.setTest_localTime (f : Test → Test) : (m.setTest f).localTime = m.localTime := rfl
@[simp] theorem Mod.setTest_phase (f : Test → Test) : (m.setTest f).phase = m.phase := rfl
@[simp] theorem Mod.setTest_chans (f : Test → Test) : (m.setTest f).chans = m.chans := rfl
@[simp] theorem Mod.setTest_gaffer (f : Test → Test) : (m.setTest f).gaffer = m.gaffer := rfl
@[simp] theorem Mod.setTest_ctxs (f : Test → Test) : (m.setTest f).ctxs = m.ctxs := rfl
@[simp] theorem Mod.setTest_mem (f : Test → Test) : (m.setTest f).mem = m.mem := rfl
@[simp] theorem Mod.setTest_svc (f : Test → Test) : (m.setTest f).svc = m.svc := rfl
@[simp] theorem Mod.setTest_lds (f : Test → Test) : (m.setTest f).lds = m.lds := rfl
@[simp] theorem Mod.setTest_ports (f : Test → Test) : (m.setTest f).ports = m.ports := rfl
@[simp] theorem Mod.setTest_pow (f : Test → Test) : (m.setTest f).pow = m.pow := rfl
@[simp] theorem Mod.setTest_cores (f : Test → Test) : (m.setTest f).cores = m.cores := rfl
@[simp] theorem Mod.setTest_mvs (f : Test → Test) : (m.setTest f).mvs = m.mvs := rfl
@[simp] theorem Mod.setTest_streams (f : Test → Test) : (m.setTest f).streams = m.streams := rfl
@[simp] theorem Mod.setTest_reg (f : Test → Test) : (m.setTest f).reg = m.reg := rfl
@[simp] theorem Mod.setTest_test (f : Test → Test) : (m.setTest f).test = f m.test := rfl
@[simp] theorem Mod.setTest_fab (f : Test → Test) : (m.setTest f).fab = m.fab := rfl
@[simp] theorem Mod.setTest_fm (f : Test → Test) : (m.setTest f).fm = m.fm := rfl
@[simp] theorem Mod.setTest_t0 (f : Test → Test) : (m.setTest f).t0 = m.t0 := rfl
@[simp] theorem Mod.setTest_t1 (f : Test → Test) : (m.setTest f).t1 = m.t1 := rfl
@[simp] theorem Mod.setTest_t2 (f : Test → Test) : (m.setTest f).t2 = m.t2 := rfl
@[simp] theorem Mod.setTest_boot (f : Test → Test) : (m.setTest f).boot = m.boot := rfl
@[simp] theorem Mod.setTest_bufs (f : Test → Test) : (m.setTest f).bufs = m.bufs := rfl
@[simp] theorem Mod.setTest_out (f : Test → Test) : (m.setTest f).out = m.out := rfl
@[simp] theorem Mod.setTest_freeIx (f : Test → Test) : (m.setTest f).freeIx = m.freeIx := rfl

@[simp] theorem Mod.setBoot_n128 (f : Boot → Boot) : (m.setBoot f).n128 = m.n128 := rfl
@[simp] theorem Mod.setBoot_ftc (f : Boot → Boot) : (m.setBoot f).ftc = m.ftc := rfl
@[simp] theorem Mod.setBoot_localTime (f : Boot → Boot) : (m.setBoot f).localTime = m.localTime := rfl
@[simp] theorem Mod.setBoot_phase (f : Boot → Boot) : (m.setBoot f).phase = m.phase := rfl
@[simp] theorem Mod.setBoot_chans (f : Boot → Boot) : (m.setBoot f).chans = m.chans := rfl
@[simp] theorem Mod.setBoot_gaffer (f : Boot → Boot) : (m.setBoot f).gaffer = m.gaffer := rfl
@[simp] theorem Mod.setBoot_ctxs (f : Boot → Boot) : (m.setBoot f).ctxs = m.ctxs := rfl
@[simp] theorem Mod.setBoot_mem (f : Boot → Boot) : (m.setBoot f).mem = m.mem := rfl
@[simp] theorem Mod.setBoot_svc (f : Boot → Boot) : (m.setBoot f).svc = m.svc := rfl
@[simp] theorem Mod.setBoot_lds (f : Boot → Boot) : (m.setBoot f).lds = m.lds := rfl
@[simp] theorem Mod.setBoot_ports (f : Boot → Boot) : (m.setBoot f).ports = m.ports := rfl
@[simp] theorem Mod.setBoot_pow (f : Boot → Boot) : (m.setBoot f).pow = m.pow := rfl
@[simp] theorem Mod.setBoot_cores (f : Boot → Boot) : (m.setBoot f).cores = m.cores := rfl
@[simp] theorem Mod.setBoot_mvs (f : Boot → Boot) : (m.setBoot f).mvs = m.mvs := rfl
@[simp] theorem Mod.setBoot_streams (f : Boot → Boot) : (m.setBoot f).streams = m.streams := rfl
@[simp] theorem Mod.setBoot_reg (f : Boot → Boot) : (m.setBoot f).reg = m.reg := rfl
@[simp] theorem Mod.setBoot_test (f : Boot → Boot) : (m.setBoot f).test = m.test := rfl
@[simp] theorem Mod.setBoot_fab (f : Boot → Boot) : (m.setBoot f).fab = m.fab := rfl
@[simp] theorem Mod.setBoot_fm (f : Boot → Boot) : (m.setBoot f).fm = m.fm := rfl
@[simp] theorem Mod.setBoot_t0 (f : Boot → Boot) : (m.setBoot f).t0 = m.t0 := rfl
@[simp] theorem Mod.setBoot_t1 (f : Boot → Boot) : (m.setBoot f).t1 = m.t1 := rfl
@[simp] theorem Mod.setBoot_t2 (f : Boot → Boot) : (m.setBoot f).t2 = m.t2 := rfl
@[simp] theorem Mod.setBoot_boot (f : Boot → Boot) : (m.setBoot f).boot = f m.boot := rfl
@[simp] theorem Mod.setBoot_bufs (f : Boot → Boot) : (m.setBoot f).bufs = m.bufs := rfl
@[simp] theorem Mod.setBoot_out (f : Boot → Boot) : (m.setBoot f).out = m.out := rfl
@[simp] theorem Mod.setBoot_freeIx (f : Boot → Boot) : (m.setBoot f).freeIx = m.freeIx := rfl

@[simp] theorem Mod.setCore_n128 (c : Nat) (f : Core → Core) : (m.setCore c f).n128 = m.n128 := rfl
@[simp] theorem Mod.setCore_ftc (c : Nat) (f : Core → Core) : (m.setCore c f).ftc = m.ftc := rfl
@[simp] theorem Mod.setCore_localTime (c : Nat) (f : Core → Core) : (m.setCore c f).localTime = m.localTime := rfl
@[simp] theorem Mod.setCore_phase (c : Nat) (f : Core → Core) : (m.setCore c f).phase = m.phase := rfl
@[simp] theorem Mod.setCore_chans (c : Nat) (f : Core → Core) : (m.setCore c f).chans = m.chans := rfl
@[simp] theorem Mod.setCore_gaffer (c : Nat) (f : Core → Core) : (m.setCore c f).gaffer = m.gaffer := rfl
@[simp] theorem Mod.setCore_ctxs (c : Nat) (f : Core → Core) : (m.setCore c f).ctxs = m.ctxs := rfl
@[simp] theorem Mod.setCore_mem (c : Nat) (f : Core → Core) : (m.setCore c f).mem = m.mem := rfl
@[simp] theorem Mod.setCore_svc (c : Nat) (f : Core → Core) : (m.setCore c f).svc = m.svc := rfl
@[simp] theorem Mod.setCore_lds (c : Nat) (f : Core → Core) : (m.setCore c f).lds = m.lds := rfl
@[simp] theorem Mod.setCore_ports (c : Nat) (f : Core → Core) : (m.setCore c f).ports = m.ports := rfl
@[simp] theorem Mod.setCore_pow (c : Nat) (f : Core → Core) : (m.setCore c f).pow = m.pow := rfl
@[simp] theorem Mod.setCore_cores (c : Nat) (f : Core → Core) : (m.setCore c f).cores = Tbl.updD m.cores c Core.init f := rfl
@[simp] theorem Mod.setCore_mvs (c : Nat) (f : Core → Core) : (m.setCore c f).mvs = m.mvs := rfl
@[simp] theorem Mod.setCore_streams (c : Nat) (f : Core → Core) : (m.setCore c f).streams = m.streams := rfl
@[simp] theorem Mod.setCore_reg (c : Nat) (f : Core → Core) : (m.setCore c f).reg = m.reg := rfl
@[simp] theorem Mod.setCore_test (c : Nat) (f : Core → Core) : (m.setCore c f).test = m.test := rfl
@[simp] theorem Mod.setCore_fab (c : Nat) (f : Core → Core) : (m.setCore c f).fab = m.fab := rfl
@[simp] theorem Mod.setCore_fm (c : Nat) (f : Core → Core) : (m.setCore c f).fm = m.fm := rfl
@[simp] theorem Mod.setCore_t0 (c : Nat) (f : Core → Core) : (m.setCore c f).t0 = m.t0 := rfl
@[simp] theorem Mod.setCore_t1 (c : Nat) (f : Core → Core) : (m.setCore c f).t1 = m.t1 := rfl
@[simp] theorem Mod.setCore_t2 (c : Nat) (f : Core → Core) : (m.setCore c f).t2 = m.t2 := rfl
@[simp] theorem Mod.setCore_boot (c : Nat) (f : Core → Core) : (m.setCore c f).boot = m.boot := rfl
@[simp] theorem Mod.setCore_bufs (c : Nat) (f : Core → Core) : (m.setCore c f).bufs = m.bufs := rfl
@[simp] theorem Mod.setCore_out (c : Nat) (f : Core → Core) : (m.setCore c f).out = m.out := rfl
@[simp] theorem Mod.setCore_freeIx (c : Nat) (f : Core → Core) : (m.setCore c f).freeIx = m.freeIx := rfl

@[simp] theorem Mod.setT1_n128 (d : Nat) (f : T1Port → T1Port) : (m.setT1 d f).n128 = m.n128 := rfl
@[simp] theorem Mod.setT1_ftc (d : Nat) (f : T1Port → T1Port) : (m.setT1 d f).ftc = m.ftc := rfl
@[simp] theorem Mod.setT1_localTime (d : Nat) (f : T1Port → T1Port) : (m.setT1 d f).localTime = m.localTime := rfl
@[simp] theorem Mod.setT1_phase (d : Nat) (f : T1Port → T1Port) : (m.setT1 d f).phase = m.phase := rfl
@[simp] theorem Mod.setT1_chans (d : Nat) (f : T1Port → T1Port) : (m.setT1 d f).chans = m.chans := rfl
@[simp] theorem Mod.setT1_gaffer (d : Nat) (f : T1Port → T1Port) : (m.setT1 d f).gaffer = m.gaffer := rfl
@[simp] theorem Mod.setT1_ctxs (d : Nat) (f : T1Port → T1Port) : (m.setT1 d f).ctxs = m.ctxs := rfl
@[simp] theorem Mod.setT1_mem (d : Nat) (f : T1Port → T1Port) : (m.setT1 d f).mem = m.mem := rfl
@[simp] theorem Mod.setT1_svc (d : Nat) (f : T1Port → T1Port) : (m.setT1 d f).svc = m.svc := rfl
@[simp] theorem Mod.setT1_lds (d : Nat) (f : T1Port → T1Port) : (m.setT1 d f).lds = m.lds := rfl
@[simp] theorem Mod.setT1_ports (d : Nat) (f : T1Port → T1Port) : (m.setT1 d f).ports = m.ports := rfl
@[simp] theorem Mod.setT1_pow (d : Nat) (f : T1Port → T1Port) : (m.setT1 d f).pow = m.pow := rfl
@[simp] theorem Mod.setT1_cores (d : Nat) (f : T1Port → T1Port) : (m.setT1 d f).cores = m.cores := rfl
@[simp] theorem Mod.setT1_mvs (d : Nat) (f : T1Port → T1Port) : (m.setT1 d f).mvs = m.mvs := rfl
@[simp] theorem Mod.setT1_streams (d : Nat) (f : T1Port → T1Port) : (m.setT1 d f).streams = m.streams := rfl
@[simp] theorem Mod.setT1_reg (d : Nat) (f : T1Port → T1Port) : (m.setT1 d f).reg = m.reg := rfl
@[simp] theorem Mod.setT1_test (d : Nat) (f : T1Port → T1Port) : (m.setT1 d f).test = m.test := rfl
@[simp] theorem Mod.setT1_fab (d : Nat) (f : T1Port → T1Port) : (m.setT1 d f).fab = m.fab := rfl
@[simp] theorem Mod.setT1_fm (d : Nat) (f : T1Port → T1Port) : (m.setT1 d f).fm = m.fm := rfl
@[simp] theorem Mod.setT1_t0 (d : Nat) (f : T1Port → T1Port) : (m.setT1 d f).t0 = m.t0 := rfl
@[simp] theorem Mod.setT1_t1 (d : Nat) (f : T1Port → T1Port) : (m.setT1 d f).t1 = m.t1.modify d f := rfl
@[simp] theorem Mod.setT1_t2 (d : Nat) (f : T1Port → T1Port) : (m.setT1 d f).t2 = m.t2 := rfl
@[simp] theorem Mod.setT1_boot (d : Nat) (f : T1Port → T1Port) : (m.setT1 d f).boot = m.boot := rfl
@[simp] theorem Mod.setT1_bufs (d : Nat) (f : T1Port → T1Port) : (m.setT1 d f).bufs = m.bufs := rfl
@[simp] theorem Mod.setT1_out (d : Nat) (f : T1Port → T1Port) : (m.setT1 d f).out = m.out := rfl
@[simp] theorem Mod.setT1_freeIx (d : Nat) (f : T1Port → T1Port) : (m.setT1 d f).freeIx = m.freeIx := rfl

@[simp] theorem Mod.send_n128 (o : Output) : (m.send o).n128 = m.n128 := rfl
@[simp] theorem Mod.send_ftc (o : Output) : (m.send o).ftc = m.ftc := rfl
@[simp] theorem Mod.send_localTime (o : Output) : (m.send o).localTime = m.localTime := rfl
@[simp] theorem Mod.send_phase (o : Output) : (m.send o).phase = m.phase := rfl
@[simp] theorem Mod.send_chans (o : Output) : (m.send o).chans = m.chans := rfl
@[simp] theorem Mod.send_gaffer (o : Output) : (m.send o).gaffer = m.gaffer := rfl
@[simp] theorem Mod.send_ctxs (o : Output) : (m.send o).ctxs = m.ctxs := rfl
@[simp] theorem Mod.send_mem (o : Output) : (m.send o).mem = m.mem := rfl
@[simp] theorem Mod.send_svc (o : Output) : (m.send o).svc = m.svc := rfl
@[simp] theorem Mod.send_lds (o : Output) : (m.send o).lds = m.lds := rfl
@[simp] theorem Mod.send_ports (o : Output) : (m.send o).ports = m.ports := rfl
@[simp] theorem Mod.send_pow (o : Output) : (m.send o).pow = m.pow := rfl
@[simp] theorem Mod.send_cores (o : Output) : (m.send o).cores = m.cores := rfl
@[simp] theorem Mod.send_mvs (o : Output) : (m.send o).mvs = m.mvs := rfl
@[simp] theorem Mod.send_streams (o : Output) : (m.send o).streams = m.streams := rfl
@[simp] theorem Mod.send_reg (o : Output) : (m.send o).reg = m.reg := rfl
@[simp] theorem Mod.send_test (o : Output) : (m.send o).test = m.test := rfl
@[simp] theorem Mod.send_fab (o : Output) : (m.send o).fab = m.fab := rfl
@[simp] theorem Mod.send_fm (o : Output) : (m.send o).fm = m.fm := rfl
@[simp] theorem Mod.send_t0 (o : Output) : (m.send o).t0 = m.t0 := rfl
@[simp] theorem Mod.send_t1 (o : Output) : (m.send o).t1 = m.t1 := rfl
@[simp] theorem Mod.send_t2 (o : Output) : (m.send o).t2 = m.t2 := rfl
@[simp] theorem Mod.send_boot (o : Output) : (m.send o).boot = m.boot := rfl
@[simp] theorem Mod.send_bufs (o : Output) : (m.send o).bufs = m.bufs := rfl
@[simp] theorem Mod.send_out (o : Output) : (m.send o).out = m.out ++ [o] := rfl
@[simp] theorem Mod.send_freeIx (o : Output) : (m.send o).freeIx = m.freeIx := rfl

/-- A free choice changes the counter of free choices alone. -/
@[simp] theorem Mod.choose_snd (n : Nat) : (m.choose n).2 = { m with freeIx := m.freeIx + 1 } := rfl
@[simp] theorem Mod.chooseFrom_snd (n : Nat) (ok : Nat → Bool) : (m.chooseFrom n ok).2 = { m with freeIx := m.freeIx + 1 } := rfl
@[simp] theorem Mod.freeVal_snd : m.freeVal.2 = { m with freeIx := m.freeIx + 1 } := rfl

/-! ### The whole state -/

@[simp] theorem State.act_eq (s : State) (f : Mod → Mod) : s.act f = .next (s.after (f s.mach)) := rfl
@[simp] theorem State.actF_eq (s : State) (f : Fuses → Mod → Mod) : s.actF f = .next (s.after (f s.fuses s.mach)) := rfl
@[simp] theorem State.burn_eq (s : State) (f : Fuses → Mod → Fuses × Mod) :
    s.burn f = .next { s with mach := (f s.fuses s.mach).2.settle, fuses := (f s.fuses s.mach).1 } := rfl

end Sys2Proof.Machine
end

