-- ==== Sys2Proof/Laws/Quiet.lean ====
section
/-! SUPPORT. What the shared operations of observation can do: counters, rings, events, traces, error records and triggers leave the
work of the module alone. Later proofs cite these lemmas and do not unfold the operations. -/
namespace Sys2Proof.Machine

/-- `b` differs from `a` at most in what observation writes: channels, contexts, the services' records, the LDs' interrupts and logs,
the ports' queues and link state, what the Regulator has been charged and has counted for each movement, the lost counts of the partitions,
the outputs and the counter of free choices. -/
structure Quiet (a b : Mod) : Prop where
  n128 : b.n128 = a.n128
  ftc : b.ftc = a.ftc
  localTime : b.localTime = a.localTime
  phase : b.phase = a.phase
  gaffer : b.gaffer = a.gaffer
  regions : b.mem.regions = a.mem.regions
  recs : b.mem.recs = a.mem.recs
  extents : b.mem.extents = a.mem.extents
  bindings : b.mem.lds = a.mem.lds
  held : b.mem.heldWrites = a.mem.heldWrites
  cows : b.mem.cows = a.mem.cows
  cores : b.cores = a.cores
  mvs : Tbl.mapV b.mvs (fun _ x => { x with spends := [] }) = Tbl.mapV a.mvs (fun _ x => { x with spends := [] })
  streams : b.streams = a.streams
  pow : b.pow = a.pow
  test : b.test = a.test
  fm : b.fm = a.fm
  t0 : b.t0 = a.t0
  t1 : b.t1 = a.t1
  t2 : b.t2 = a.t2
  boot : b.boot = a.boot
  bufs : b.bufs = a.bufs
  deviceId : b.fab.deviceId = a.fab.deviceId
  routes : b.fab.routes = a.fab.routes

namespace Quiet

theorem refl (m : Mod) : Quiet m m := by constructor <;> rfl

theorem trans {a b c : Mod} (h : Quiet a b) (k : Quiet b c) : Quiet a c := by
  constructor <;> first | exact k.n128.trans h.n128 | exact k.ftc.trans h.ftc | exact k.localTime.trans h.localTime |
    exact k.phase.trans h.phase | exact k.gaffer.trans h.gaffer | exact k.regions.trans h.regions | exact k.recs.trans h.recs |
    exact k.extents.trans h.extents | exact k.bindings.trans h.bindings | exact k.held.trans h.held | exact k.cows.trans h.cows |
    exact k.cores.trans h.cores | exact k.mvs.trans h.mvs | exact k.streams.trans h.streams | exact k.pow.trans h.pow |
    exact k.test.trans h.test | exact k.fm.trans h.fm | exact k.t0.trans h.t0 | exact k.t1.trans h.t1 | exact k.t2.trans h.t2 |
    exact k.boot.trans h.boot | exact k.bufs.trans h.bufs | exact k.deviceId.trans h.deviceId | exact k.routes.trans h.routes

/-- Folding quiet changes is quiet. -/
theorem each {α : Type} (m : Mod) (l : List α) (f : Mod → α → Mod) (h : ∀ a x, Quiet a (f a x)) : Quiet m (m.each l f) := by
  induction l generalizing m with
  | nil => exact refl m
  | cons x l ih => exact (h m x).trans (ih (f m x))

variable (m : Mod)

theorem setChan (ch : Nat) (f : Chan → Chan) : Quiet m (m.setChan ch f) := by constructor <;> rfl
theorem setCtx (n : Nat) (f : Ctx → Ctx) : Quiet m (m.setCtx n f) := by constructor <;> rfl
theorem setLd (l : Nat) (f : Ld → Ld) : Quiet m (m.setLd l f) := by constructor <;> rfl
theorem setPort (h : Nat) (f : HostPort → HostPort) : Quiet m (m.setPort h f) := by constructor <;> rfl
theorem setFport (p : Nat) (f : FabPort → FabPort) : Quiet m (m.setFport p f) := by constructor <;> rfl
theorem setPart (p : Nat) (f : Part → Part) : Quiet m (m.setPart p f) := by constructor <;> rfl
theorem setSvc (f : Service → Service) : Quiet m (m.setSvc f) := by constructor <;> rfl
theorem setTrace (f : Trace → Trace) : Quiet m (m.setTrace f) := by constructor <;> rfl
theorem setHang (f : Hang → Hang) : Quiet m (m.setHang f) := by constructor <;> rfl
theorem setErr (f : ErrLog → ErrLog) : Quiet m (m.setErr f) := by constructor <;> rfl
theorem send (o : Output) : Quiet m (m.send o) := by constructor <;> rfl
theorem takeClkreq (h : Nat) : Quiet m (m.takeClkreq h) := by
  unfold Mod.takeClkreq
  split
  · exact send m _
  · exact refl m
theorem backToL0 (l : Nat) : Quiet m (m.backToL0 l) := (takeClkreq m _).trans (setPort _ _ _)
theorem spend (res ix master bytes : Nat) : Quiet m (m.spend res ix master bytes) := by constructor <;> rfl
theorem choose (n : Nat) : Quiet m (m.choose n).2 := by constructor <;> rfl
theorem fabCount (k : Nat) : Quiet m (m.fabCount k) := by constructor <;> rfl
theorem spendMv (v : Option Nat) (res ix bytes : Nat) : Quiet m (m.spendMv v res ix bytes) := by
  cases v with
  | none => exact refl m
  | some v =>
    constructor <;> first | rfl | exact Tbl.mapV_upd _ _ _ _ (fun _ => rfl)

/-- INTx messages and Interrupt Status (R453). -/
theorem syncIntx (l fn : Nat) : Quiet m (m.syncIntx l fn) := by
  simp only [Mod.syncIntx]
  split
  · exact refl m
  · exact ((setLd m _ _).trans (backToL0 _ _)).trans (send _ _)

theorem setIntx (l fn i : Nat) : Quiet m (m.setIntx l fn i) := (setLd m _ _).trans (syncIntx _ _ _)

theorem moduleChanged : Quiet m m.moduleChanged := each m _ _ (fun a l => setIntx a l 1 4)

theorem setChnErr (ch i : Nat) : Quiet m (m.setChnErr ch i) := by
  unfold Mod.setChnErr
  split
  · exact refl m
  · simp only
    split
    · exact (setChan m _ _).trans (setIntx _ _ _ _)
    · exact setChan m _ _

theorem hostWrites (l a : Nat) (bs : List Byte) : Quiet m (m.hostWrites l a bs) := each m _ _ (fun a w => send a _)

theorem dmaWrite (l a : Nat) (bs : List Byte) : Quiet m (m.dmaWrite l a bs) := by
  unfold Mod.dmaWrite
  split
  · exact (backToL0 m l).trans (hostWrites _ _ _ _)
  · exact setLd m _ _

/-- Counters (R524). -/
theorem addCount (hit : Nat → Counter → Bool) (amount : Nat) : Quiet m (m.addCount hit amount) := by
  unfold Mod.addCount
  simp only
  split
  · exact (setSvc m _).trans (setTrace _ _)
  · exact setSvc m _

/-- Counters, and the charge to a master (R349, R524). -/
theorem count (event unit master : Nat) (part : Option Nat) (amount : Nat) : Quiet m (m.count event unit master part amount) := by
  have h : ∀ a : Mod, Quiet a (a.chargeEvent event unit master amount) := by
    intro a; unfold Mod.chargeEvent; split
    · exact refl a
    · exact spend a _ _ _ _
  exact (addCount m _ _).trans (h _)

theorem retireCtx (id : Nat) : Quiet m (m.retireCtx id) := setCtx m _ _

/-- A record written to a ring (R70, R74). -/
theorem writeRecord (ch : Nat) (c : Chan) (r : Ring) (rec : RingRec) : Quiet m (m.writeRecord ch c r rec) := by
  unfold Mod.writeRecord
  split
  · exact refl m
  · simp only
    rename_i l _
    have h : ∀ a : Mod, Quiet m a → Quiet m (if rec.kind = 0 then a.retireCtx rec.context else a) := by
      intro a ha; split
      · exact ha.trans (retireCtx a _)
      · exact ha
    apply h
    have h2 := ((dmaWrite m l (r.base + 32 * (c.head.toNat % 2 ^ r.log2)) (rec.bytes (decide (c.head.toNat / 2 ^ r.log2 % 2 = 0)))).trans
      (count _ 0x000A (0x6000 + l / 16) l ((Tbl.find m.mem.lds l).map (fun b => b.partition)) 32)).trans (setChan _ ch (fun c => { c with head := c.head + 1 }))
    split
    · exact (h2.trans (setLd _ _ _)).trans (syncIntx _ _ _)
    · exact h2

theorem ringRecord (ch : Nat) (rec : RingRec) : Quiet m (m.ringRecord ch rec) := by
  unfold Mod.ringRecord
  split
  · exact refl m
  · split
    · split
      · exact refl m
      · exact setChnErr m _ _
    · split
      · split
        · simp only
          split
          · exact setChan m _ _
          · exact (setChan m _ _).trans (setChnErr _ _ _)
        · exact (setChan m _ _).trans (setChnErr _ _ _)
      · exact writeRecord m _ _ _ _

/-- Events to the subscribers (R90). -/
theorem raise (code part data detail context : Nat) : Quiet m (m.raise code part data detail context) := by
  apply each
  intro a x
  split
  · exact ringRecord a _ _
  · exact refl a

theorem tracePut (e : TraceEv) : Quiet m (m.tracePut e) := by
  unfold Mod.tracePut
  simp only
  split
  · split
    · split
      · exact ((setTrace m _).trans (setTrace _ _)).trans (raise _ _ _ _ _ _)
      · exact setTrace m _
    · exact setTrace m _
  · split
    · exact ((setTrace m _).trans (setTrace _ _)).trans (raise _ _ _ _ _ _)
    · exact setTrace m _
  · exact refl m

theorem traceWrite (e : TraceEv) : Quiet m (m.traceWrite e) := by
  unfold Mod.traceWrite
  simp only
  split
  · exact tracePut m e
  · split
    · exact (setTrace m _).trans (tracePut _ _)
    · exact setTrace m _

theorem ringEvent (e : TraceEv) : Quiet m (m.ringEvent e) := by
  unfold Mod.ringEvent
  split
  · exact setHang m _
  · simp only
    split
    · exact (choose m 2).trans (setHang _ _)
    · exact choose m 2

/-- Trace events and hang rings (R537, R541). -/
theorem traceEv (unit kind part a16 tag a32 a64 : Nat) : Quiet m (m.traceEv unit kind part a16 tag a32 a64) := by
  unfold Mod.traceEv
  simp only
  have h : ∀ e : TraceEv, Quiet m (if m.svc.hang.keeps unit = true then m.ringEvent e else m) := by
    intro e; split
    · exact ringEvent m e
    · exact refl m
  split
  · exact (h _).trans (traceWrite _ _)
  · exact h _

theorem lose (part : Nat) (sev : Sev) : Quiet m (m.lose part sev) := by
  unfold Mod.lose
  simp only
  split
  · exact setPart m _ _
  · exact setErr m _

theorem makeRoom (part : Nat) (sev : Sev) (k fuel : Nat) (a : Mod) (h : m.makeRoom part sev k fuel = some a) : Quiet m a := by
  induction fuel generalizing m with
  | zero => cases h
  | succ n ih =>
    unfold Mod.makeRoom at h
    simp only at h
    split at h
    · cases h; exact refl _
    · split at h
      · cases h
      · exact ((setErr _ _).trans (lose _ _ _)).trans (ih _ h)

theorem errEvents (r : ErrRec) : Quiet m (m.errEvents r) := by
  unfold Mod.errEvents
  simp only
  split
  · exact refl m
  · have h : Quiet m (if r.sev.code < 2 then m.setErr (fun e => { e with lowRaised := Tbl.put e.lowRaised (min r.partition 64) m.second }) else m) := by
      split
      · exact setErr m _
      · exact refl m
    split
    · exact (h.trans (raise _ _ _ _ _ _)).trans (raise _ _ _ _ _ _)
    · exact h.trans (raise _ _ _ _ _ _)

theorem eventLog (l i : Nat) (rec : List Byte) : Quiet m (m.eventLog l i rec) := by
  unfold Mod.eventLog
  simp only
  split
  · split
    · exact (setLd m _ _).trans (setIntx _ _ _ _)
    · exact setLd m _ _
  · exact setLd m _ _

/-- An error record changes nothing but what observes (R484 to R492). -/
theorem logErr (e : ErrIn) : Quiet m (m.logErr e) := by
  unfold Mod.logErr
  simp only
  split
  · exact (setErr m _).trans (lose _ _ _)
  · rename_i a h
    have h1 := (setErr m _).trans (makeRoom _ _ _ _ _ a h)
    have fin : ∀ b : Mod, Quiet m b → Quiet m (if 2 ≤ e.sev.code then b.setTrace (fun t => { t with sources := setBit t.sources 2 }) else b) := by
      intro b hb; split
      · exact hb.trans (setTrace b _)
      · exact hb
    apply fin
    refine Quiet.trans ?_ (traceEv _ _ _ _ _ _ _ _)
    split
    · exact ((h1.trans (setErr a _)).trans (errEvents _ _)).trans (each _ _ _ (fun b l => eventLog b l _ _))
    · exact (h1.trans (setErr a _)).trans (errEvents _ _)

theorem freezeModule : Quiet m m.freezeModule := by
  unfold Mod.freezeModule
  split
  · exact refl m
  · exact (setSvc m _).trans (each _ _ _ (fun a p => raise a _ _ _ _ _))

theorem traceTrigger (no source origin ftc : Nat) : Quiet m (m.traceTrigger no source origin ftc) := by
  unfold Mod.traceTrigger
  simp only
  split
  · repeat' split
    all_goals first
      | exact (setTrace m _).trans (raise _ _ _ _ _ _)
      | exact (setTrace m _).trans (traceEv _ _ _ _ _ _ _ _)
  · exact traceEv m _ _ _ _ _ _ _

theorem trigger (source no origin ftc : Nat) : Quiet m (m.trigger source no origin ftc) := by
  unfold Mod.trigger
  simp only
  have h : Quiet m (if m.svc.trace.freezeOnTrigger = true then m.freezeModule else m) := by
    split
    · exact freezeModule m
    · exact refl m
  exact (h.trans (traceTrigger _ _ _ _ _)).trans (raise _ _ _ _ _ _)

theorem emit (i : Nat) (p : Packet) : Quiet m (m.emit i p) :=
  (((setFport m _ _).trans (send _ _)).trans (count _ _ _ _ _ _)).trans (spendMv _ _ _ _ _)

theorem sendFlit (i : Nat) (name : String) (kind first ends : Nat) (payload : List Byte) : Quiet m (m.sendFlit i name kind first ends payload) :=
  (setFport m _ _).trans (send _ _)

theorem egressPick (p q : Packet) : Quiet m (m.egressPick p q).1 := by
  unfold Mod.egressPick
  simp only
  repeat' split
  all_goals first | exact refl m | exact choose m 2

theorem nextPacket (i used : Nat) : Quiet m (m.nextPacket i used).1 := by
  unfold Mod.nextPacket
  simp only
  split
  · exact refl m
  · exact refl m
  · exact refl m
  · exact egressPick m _ _
  · exact refl m

theorem pumpFrom (i n : Nat) (ps : List Packet) : Quiet m (m.pumpFrom i n ps) := by
  have lay : ∀ (a : Mod) (ps : List Packet), Quiet a (a.layOut i ps) := fun a ps => each a _ _ (fun b _ => sendFlit b _ _ _ _ _ _)
  induction n generalizing m ps with
  | zero => exact lay m ps
  | succ n ih =>
    unfold Mod.pumpFrom
    have h := nextPacket m i (sumOf (ps.map (fun p => p.bytes.length)))
    split
    · rename_i m1 p e
      rw [e] at h
      exact (h.trans (emit m1 i p)).trans (ih _ _)
    · rename_i m1 e
      rw [e] at h
      exact h.trans (lay _ _)

theorem pump (i n : Nat) : Quiet m (m.pump i n) := pumpFrom m i n []

theorem enqueue (i : Nat) (p : Packet) : Quiet m (m.enqueue i p) := (setFport m _ _).trans (pump _ _ _)

theorem sendLocalAll (p : Packet) (x : Nat) : Quiet m (m.sendLocalAll p x) := by
  apply each
  intro a i
  split
  · exact enqueue a _ _
  · exact refl a

/-- The triggers that a command has raised change nothing but what observes (R532). -/
theorem settle : Quiet m m.settle := by
  unfold Mod.settle
  simp only
  split
  · split
    · exact refl m
    · exact setTrace m _
  · refine Quiet.trans ?_ (setTrace _ _)
    have h := (setTrace m (fun t => { t with triggerNo := (m.svc.trace.triggerNo + 1) % 65536 })).trans
      (trigger _ (by assumption) ((m.svc.trace.triggerNo + 1) % 65536) m.fab.deviceId m.ftc)
    split
    · exact h.trans (sendLocalAll _ _ _)
    · exact h

/-- A packet that the module sends (R306). -/
theorem sendPacket (p : Packet) : Quiet m (m.sendPacket p) := by
  have place : ∀ (a : Mod) (q : Packet), Quiet a (a.place q).1 := by
    intro a q; unfold Mod.place
    split
    · exact setFport a _ _
    · split
      · simp only
        split
        · exact (fabCount a _).trans (enqueue _ _ _)
        · exact enqueue a _ _
      · exact refl a
  unfold Mod.sendPacket
  split
  · exact refl m
  · have hp := place m p
    split <;> rename_i e <;> rw [e] at hp
    · exact hp
    · split
      · exact hp.trans (place _ _)
      · exact hp.trans (fabCount _ _)

end Quiet

end Sys2Proof.Machine
end

