-- ==== Sys2Proof/WellFormed.lean ====
section
/-! DEFINITION. Well-formed commands: the operands that the type of a command does not bound by itself have the sizes that the
spec gives the message, the flit, the register or the sample that the command stands for. `exec` is total and does not ask for it. -/
namespace Sys2Proof

/-- What an ill-formed command breaks. -/
inductive Ill where
  /-- A payload of a size that its message cannot have. -/
  | length
  /-- A field outside its range. -/
  | range
  /-- An MCTP medium other than the sideband and host ports 0 to 3 (R49). -/
  | medium
  deriving DecidableEq, Repr

/-- The check that must hold, or what is broken. -/
def need (b : Bool) (e : Ill) : Option Ill := if b then none else some e

/-- The first check that fails. -/
def first : List (Option Ill) → Option Ill
  | [] => none
  | some e :: _ => some e
  | none :: l => first l

/-- A requester's identity names an MCTP medium 0 to 4 (R49). -/
def Owner.ill : Owner → Option Ill
  | .mctp medium _ => need (medium.toNat ≤ 4) .medium
  | .ld _ | .peer _ _ | .neighbour _ => none

/-- A word of SRAM names a slot of the table store, a slot of the context table or a fabric port that there is (R84, R170). -/
def SramWord.ill : SramWord → Option Ill
  | .tableSlot slot _ => need (slot < 4096) .range
  | .contextRecord slot => need (slot < 65536) .range
  | .egress port _ => need (port < 16) .range
  | .cacheEntry | .heldWrite _ | .writeBuffer _ | .logEntry _ => none

/-- The first check that a command fails. A flit has 256 B and its payload 232 B at most (R300), a line 64 B, a configuration
write stays in one doubleword, a mailbox payload has at most 4,096 B (R631), a sample has one temperature for each die and device
(R20, R21). -/
def Instr.ill : Instr → Option Ill
  | .openChannel _ who => who.ill
  | .closeChannel _ who => who.ill
  | .channelFree _ => none
  | .channelIdleTimeout _ => none
  | .ringDoorbell _ who => who.ill
  | .chnErrClear _ who _ => who.ill
  | .resultSlotWrite _ who => who.ill
  | .cringTailWrite _ who _ => who.ill
  | .contextWorkComplete _ => none
  | .ringWriteFailed _ _ => none
  | .contextRetire _ => none
  | .gafferPairFault _ => none
  | .gafferWatchdogReset => none
  | .lseRenew _ => none
  | .stsLatchClear _ _ => none
  | .intxStatusClear _ _ _ => none
  | .intxChnPendClear _ _ _ => none
  | .intxEnableWrite _ _ _ => none
  | .registerWrite who _ _ data => first [who.ill, need (0 < data.length && data.length ≤ 4096) .length]
  | .hdmDecoderCommit _ _ => none
  | .configWrite _ _ offset data => first [need (0 < data.length && data.length ≤ 4) .length, need (offset.toNat % 4 + data.length ≤ 4) .range]
  | .busMasterDisable _ => none
  | .identify _ => none
  | .getStatus _ => none
  | .getCapabilities _ => none
  | .getTime _ => none
  | .channelInfo _ => none
  | .ringSetup _ => none
  | .ringTeardown _ => none
  | .eventSubscribe _ => none
  | .eventUnsubscribe _ => none
  | .contextStatus _ => none
  | .contextCancel _ => none
  | .contextList _ => none
  | .partitionCreate _ => none
  | .partitionBindLd _ => none
  | .partitionUnbindLd _ => none
  | .partitionDestroy _ => none
  | .partitionQuery _ => none
  | .leaseSet _ => none
  | .leaseQuery _ => none
  | .regionCreate _ => none
  | .regionDestroy _ => none
  | .regionSetAttr _ => none
  | .regionQuery _ => none
  | .regionAddExtents _ => none
  | .regionReleaseExtents _ => none
  | .capacityQuery _ => none
  | .openView _ => none
  | .closeView _ => none
  | .openWorking _ => none
  | .publish _ => none
  | .discardWorking _ => none
  | .checkpoint _ => none
  | .versionList _ => none
  | .versionRelease _ => none
  | .setResidency _ => none
  | .prefetch _ => none
  | .evictHint _ => none
  | .residencyQuery _ => none
  | .rebuildTable _ => none
  | .tableSweep _ => none
  | .tableQuery _ => none
  | .movementLoad _ => none
  | .movementStart _ => none
  | .movementStopAtBarrier _ => none
  | .movementStopNow _ => none
  | .movementStatus _ => none
  | .movementUnload _ => none
  | .streamOpenPaced _ => none
  | .streamOpenIngest _ => none
  | .streamStop _ => none
  | .streamClose _ => none
  | .streamStatus _ => none
  | .regSetMinimums _ => none
  | .regSetShares _ => none
  | .regSetWindow _ => none
  | .regSetLatencyTarget _ => none
  | .regQuery _ => none
  | .scrub _ => none
  | .errorLogRead _ => none
  | .errorLogClear _ => none
  | .setMirror _ => none
  | .poisonQuery _ => none
  | .testPolicySet _ => none
  | .testRunKernel _ => none
  | .testRunRound _ => none
  | .testRunRequalify _ => none
  | .testReport _ => none
  | .unitStateQuery _ => none
  | .counterConfig _ => none
  | .counterFreeze _ => none
  | .counterThaw _ => none
  | .counterThawZero _ => none
  | .counterRead _ => none
  | .traceConfig _ => none
  | .traceArm _ => none
  | .traceStop _ => none
  | .traceManualTrigger _ => none
  | .traceMarker _ => none
  | .traceRead _ => none
  | .hangRingEnable _ => none
  | .dumpRead _ => none
  | .dumpTensor _ => none
  | .fabDiscover _ => none
  | .fabDiscoverTimeout _ => none
  | .fabSetId _ => none
  | .fabLoadRoutes _ => none
  | .joinMember _ => none
  | .joinAccessor _ => none
  | .fabRegionLeave _ => none
  | .fabRegionExport _ => none
  | .fabRegionUnexport _ => none
  | .takeRegistrar _ => none
  | .treeSet _ => none
  | .treeClear _ => none
  | .rehome _ => none
  | .ftcSyncRootNow _ => none
  | .ftcSyncRootSideband _ => none
  | .ftcSyncMeasure _ => none
  | .fabQuery _ => none
  | .powerSetRung _ => none
  | .powerQuery _ => none
  | .powerSetLimit _ => none
  | .telemetryRead _ => none
  | .fwUpdate _ => none
  | .fwActivateNextReset _ => none
  | .fwActivateNow _ => none
  | .fwActivateRevert _ => none
  | .lifecycleSet _ => none
  | .debugUnlock _ => none
  | .ownerKeyInstall _ => none
  | .lifecycleResetDelay => none
  | .managerListSet _ => none
  | .getMeasurements _ => none
  | .memRd _ _ _ _ => none
  | .memSpecRd _ _ => none
  | .memInv _ _ _ => none
  | .memWr _ _ _ data _ => need (data.length = 64) .length
  | .memWrPtl _ _ _ data _ _ => need (data.length = 64) .length
  | .flrFunction0 _ => none
  | .flrFunction1 _ => none
  | .cxlReset _ => none
  | .resetComplete _ _ => none
  | .perstAssert _ => none
  | .hotReset _ => none
  | .hostLinkLost _ => none
  | .ideCheckFail _ => none
  | .dmaReadCompletion _ _ data _ error => first [need (data.length ≤ 4096) .length, need (!error || data.isEmpty) .range]
  | .completionTimeout _ _ => none
  | .l1EntryRequest _ => none
  | .identifyMemoryDevice _ => none
  | .getSupportedLogs _ => none
  | .getLog _ input => need (input.length ≤ 4096) .length
  | .getEventRecords _ input => need (input.length ≤ 4096) .length
  | .clearEventRecords _ input => need (input.length ≤ 4096) .length
  | .getEventInterruptPolicy _ => none
  | .setEventInterruptPolicy _ input => need (input.length ≤ 4096) .length
  | .getPoisonList _ input => need (input.length ≤ 4096) .length
  | .getTimestamp _ => none
  | .setTimestamp _ input => need (input.length = 8) .length
  | .getDynamicCapacityConfiguration _ input => need (input.length ≤ 4096) .length
  | .getDynamicCapacityExtentList _ input => need (input.length ≤ 4096) .length
  | .addDynamicCapacityResponse _ _ => none
  | .releaseDynamicCapacity _ _ => none
  | .getDcdInfo who => who.ill
  | .getHostDcRegionConfiguration who _ => who.ill
  | .setDcRegionConfiguration who _ _ _ _ => who.ill
  | .getDcdExtentLists who _ => who.ill
  | .initiateDynamicCapacityAdd who _ _ _ _ _ => who.ill
  | .initiateDynamicCapacityRelease who _ _ _ => who.ill
  | .getLdInfo who => who.ill
  | .getLdAllocations who => who.ill
  | .setLdAllocations who input => first [who.ill, need (input.length ≤ 4096) .length]
  | .doeDiscovery _ _ => none
  | .cxlTableAccess _ _ => none
  | .spdmMessage who _ request => first [who.ill, need (4 ≤ request.length) .length]
  | .chnMsg who write _ offset length data => first [who.ill, need (if write then data.length = length else data.isEmpty) .length, need (offset.toNat + length ≤ 4096) .range]
  | .pwrPrsntMate => none
  | .pwrEnHigh => none
  | .pwrEnLow => none
  | .unmating => none
  | .modReset => none
  | .inputLow _ => none
  | .inputUndervoltage _ => none
  | .inputHigh _ => none
  | .inputOvervoltage _ => none
  | .inputRecovered _ => none
  | .sbVrefLow => none
  | .ftcSyncEdge => none
  | .dsPresenceChange _ _ => none
  | .fabPresenceChange _ _ => none
  | .cablePowerFault _ => none
  | .leakSensorSample _ _ => none
  | .coolantSample _ _ _ => none
  | .powerGovernorSample _ _ _ => none
  | .powerCapFail => none
  | .thermalGovernorSample bDies cDies gddr nand => first [need (bDies.length = 4 && cDies.length = 8) .length, need (gddr.length = 32 && (nand.length = 32 || nand.length = 64)) .length]
  | .thermtrip die _ => need (die < 12) .range
  | .rungDescent => none
  | .rungEntry => none
  | .wake _ => none
  | .t0SweepComplete => none
  | .promotionCommit _ _ => none
  | .evictionCommit _ _ => none
  | .oldLocationFreed _ => none
  | .victimSelectorRun => none
  | .counterDecay pass => pass.sram.bind (fun w => w.2.ill)
  | .pinLowEviction _ => none
  | .repack _ _ => none
  | .unpackCommit _ _ => none
  | .copyOnWriteCommit _ _ => none
  | .exhaustHoldExpiry _ => none
  | .sealEncodeComplete _ _ => none
  | .checkpointEncodeComplete _ => none
  | .durablePersistenceComplete _ _ => none
  | .versionRetired _ _ => none
  | .extentClean _ => none
  | .leaseGrace _ => none
  | .leaseCleanup _ => none
  | .firstTableBuilt _ => none
  | .generationFree _ _ => none
  | .loadChecksComplete _ => none
  | .tileFetchComplete _ _ _ => none
  | .tileStoreCommit _ _ => none
  | .barrierRelease _ => none
  | .runFault _ _ => none
  | .timeLimitExpiry _ => none
  | .longBeat _ => none
  | .movementStopped _ => none
  | .kernelInsertion _ => none
  | .nop _ => none
  | .loop _ => none
  | .loopEnd _ => none
  | .skip _ => none
  | .barrier _ => none
  | .fetch _ => none
  | .store _ => none
  | .gather _ => none
  | .scatter _ => none
  | .putPane _ => none
  | .fill _ => none
  | .copy _ => none
  | .vec _ => none
  | .convert _ => none
  | .sdot _ => none
  | .softmaxPartial _ => none
  | .softmaxMerge _ => none
  | .mma _ => none
  | .reduce _ => none
  | .compare _ => none
  | .topk _ => none
  | .checksum _ => none
  | .fritEncode _ => none
  | .lehrEncode _ => none
  | .decode _ => none
  | .fabSend _ => none
  | .fabRecv _ => none
  | .fabReduce _ => none
  | .portTrainingComplete _ mode lanes => first [need (mode ≤ 2) .range, need (lanes ≤ 4) .range]
  | .hello _ payload => need (payload.length ≤ 232) .length
  | .key _ payload => need (payload.length ≤ 232) .length
  | .timestamp _ payload => need (payload.length ≤ 232) .length
  | .goodbye _ => none
  | .dataFlit _ flit => need (flit.length = 256) .length
  | .idleFlit _ flit => need (flit.length = 256) .length
  | .retryReq _ flit => need (flit.length = 256) .length
  | .ackTimer _ => none
  | .retrainTimeout _ => none
  | .fecAlignmentLost _ => none
  | .keyEpochChange _ => none
  | .linkStall _ => none
  | .fecMargin _ corrected total => need (corrected ≤ total) .range
  | .packetForward _ => none
  | .sync _ => none
  | .unreachable _ => none
  | .msgRefused _ => none
  | .msgSlotFree _ => none
  | .freezeTrigger _ => none
  | .lineRd _ _ => none
  | .lineWr _ => none
  | .tileRd _ _ => none
  | .tileWr _ => none
  | .lineData _ => none
  | .tileData _ => none
  | .wrAck _ => none
  | .redirect _ => none
  | .mapUpdate _ => none
  | .versionRsp _ => none
  | .reducePart _ => none
  | .reduceResult _ => none
  | .msg _ => none
  | .rehomeData _ => none
  | .nack _ => none
  | .vopOpenView _ => none
  | .vopCloseView _ => none
  | .vopOpenWorking _ => none
  | .vopPublish _ => none
  | .vopCheckpoint _ => none
  | .vopDiscardWorking _ => none
  | .vopVersionRelease _ => none
  | .vopVersionList _ => none
  | .sealPrepare _ => none
  | .sealCommit _ => none
  | .sealAbort _ => none
  | .versionFree _ => none
  | .join _ => none
  | .mapFetch _ => none
  | .registrarQuery _ => none
  | .leave _ => none
  | .rehomeForward _ => none
  | .rehomeReserve _ => none
  | .rehomeSend _ => none
  | .rehomeUnitCommit _ _ => none
  | .remoteRequestTimeout _ => none
  | .versionOpTimeout _ => none
  | .sealAckTimeout _ => none
  | .preparedSealTimeout _ => none
  | .treeRoundTimeout _ _ => none
  | .windowBoundary => none
  | .pacedTileFetch _ => none
  | .pacedTileWrite _ => none
  | .pacedCutoff _ => none
  | .pacedStopRecord _ => none
  | .pacedEndRecord _ => none
  | .ingestDrainIdle _ _ => none
  | .refreshDue _ _ => none
  | .maintenanceRetrain => none
  | .t0AccessFailed _ _ _ => none
  | .t1NoResponse _ => none
  | .t1LinkDown _ => none
  | .t1RetrainTimeout _ => none
  | .t1DeviceEvent _ record => need (record.length = 128) .length
  | .t1EnumerationComplete _ _ _ => none
  | .lostPortPoisonPass _ _ => none
  | .nandProgramComplete _ => none
  | .programFailure _ _ _ => none
  | .t2ReadDecode _ step => need (1 ≤ step.toNat && step.toNat ≤ 4) .range
  | .dieFailure _ _ => none
  | .blockRelocation _ _ => none
  | .journalCommit => none
  | .wearGovernorChange state => need (state.toNat < 3) .range
  | .healCommit _ _ => none
  | .healTimeout _ => none
  | .scrubPassComplete _ _ => none
  | .kernelDue _ => none
  | .kernelDeferExpiry _ => none
  | .kernelRunEnd _ _ => none
  | .privilegedFault _ => none
  | .drainPeriodExpiry => none
  | .hangDeclare _ => none
  | .dumpWriteComplete _ => none
  | .captureTaken _ => none
  | .bootImageVerified _ _ => none
  | .journalReplayComplete _ => none
  | .readyEntry => none
  | .perstDeassert _ => none
  | .hostLinkTrained _ mode width rate => first [need (mode.toNat < 3) .range, need ([4, 8, 16].contains width) .range, need ([2, 5, 8, 16, 32, 64, 128].contains rate) .range]
  | .modResetRelease => none
  | .sbVrefRecovered => none
  | .thermtripRelease => none
  | .t1FatalError _ => none
  | .t1LinkRetrained _ => none
  | .ftcSyncEdgeTimeout => none
  | .kernelRunStart => none

/-- The command is well-formed. -/
def Instr.wf (i : Instr) : Bool := i.ill == none

end Sys2Proof
end

