-- ==== Sys2Proof/Tests/Slice0.lean ====
section
/-! SUPPORT. Tests: terms that WellFormed refuses, the spec's worked examples, and a witness for the hypotheses of each statement. -/
namespace Sys2Proof.Tests
open Sys2Proof Sys2Proof.Machine

set_option Elab.async false

/-! ### Small states -/

/-- The host LD that asks, and the manager on the sideband. -/
abbrev host : Owner := .ld 0
abbrev side : Owner := .mctp 0 9

/-- The module after bring-up: READY, T2 in service, one T1 port, host port 0 up as one CXL device whose LD 0 is active. -/
def up : State :=
  { State.reset with mach := { Mod.init with
      ports := (List.replicate 4 HostPort.init).set 0 { HostPort.init with mode := .sld, width := 16, rate := 64, perst := false }
      lds := [(0, { Ld.init with memoryActive := true })]
      boot := { Boot.init with readiness := .ready, step := 8, booted := some 0, sweepDone := true, journalDone := true, kernelSet := 2 ^ 48 - 1 }
      t0 := { Tier0.init with sweeping := false, channels := List.range 128 }
      t1 := (List.replicate 8 T1Port.init).set 0 { T1Port.init with present := true, state := .inService, capacity := 2 ^ 30, holdsMap := true }
      t2 := { Tier2.init with inService := true } } }

/-- A command slot: opcode, partition, arguments. Where the row takes arguments of no one length they end in zeros, since the bytes past ARG_LEN
would be free values. -/
def slotOf (op part : Nat) (args : List Byte) : Mem :=
  let a := if args = [] || op == 0x0107 || op == 0x0700 then args else args ++ List.replicate (56 - args.length) 0
  Mem.ofBytes (leBytes 2 op ++ leBytes 2 0 ++ leBytes 2 a.length ++ leBytes 1 part ++ leBytes 1 0 ++ leBytes 8 7 ++ a)

def reqFor (part : Nat) (args : List Byte) : Req :=
  { ch := 3, owner := host, slot := slotOf 0x300 part args, fuses := State.reset.fuses, part := some part, manager := true }

/-- A region of partition 1 with one extent, by the arguments of its REGION_CREATE. -/
def regionOf (id extent : Nat) (args : List Byte) : Region := { newRegion (reqFor 1 args) id with ordinals := [(0, extent)], nextOrdinal := 1 }

/-- Partition 1 with LD 0 of host port 0 bound, a raw region 1, a Lehr region 2 with versioning, each with an extent, and a third extent that LD 0 holds. -/
def work : State :=
  { up with mach := { up.mach with mem := { up.mach.mem with
      parts := [(1, Part.init 5 100 30)]
      lds := [(0, { partition := 1, lease := .live, periodS := 30, renewals := 0, since := 0, cleanupLogged := false })]
      regions := [(1, regionOf 1 0 (leBytes 8 5 ++ [0, 1, 0, 0, 0, 0, 0, 2, 1])), (2, regionOf 2 1 (leBytes 8 5 ++ [1, 1, 0, 0, 0, 1, 0, 2, 1]))]
      extents := [(0, { pendingLds := [], heldLds := [0], region := some (1, 0), kept := none, serial := 1, inCullet := false, tag := 0 }),
        (1, { pendingLds := [], heldLds := [0], region := some (2, 0), kept := none, serial := 2, inCullet := false, tag := 0 }),
        (2, { pendingLds := [], heldLds := [0], region := none, kept := none, serial := 3, inCullet := false, tag := 0 })] } } }

def ctxOf (work : Work) (obj : Obj) : Ctx :=
  { gen := 1, state := .active, partition := 1, tag := 7, opcode := 0, progress := 0, final := .pending, detail := 0, data := 0, chan := 3,
    noRing := true, chanOwner := host, pastPonr := false, work := work, obj := obj, window := none, holder := some 0, viewWriteLogged := false }

/-- An image of two beats on core 0 with one binding: its header, its core set, its directory, then that many descriptors of 32 bytes. -/
def imageOf (descs : Mem) (n : Nat) : Mem :=
  [(0xC, 1), (0xE, 2), (0x10, 1), (0x14, 0x40), (0x19, 0x03), (0x20, 0x80), (0x21, 0x03), (0x40, 1), (0x304, 0x40), (0x305, 0x03), (0x308, BitVec.ofNat 8 n)] ++ descs ++ [(0x382, 2)]

/-- Two barriers. -/
def image2 : Mem := imageOf [(0x340, 4), (0x360, 4)] 2

/-- The same with a view (slot 0) and a working version (slot 1) of region 2, a loaded movement (slot 2), a paced stream (slot 3) and work
without an object (slot 4). -/
def busy : State :=
  { work with mach := { work.mach with
      ctxs := [(0, ctxOf .none (.view 2 0)), (1, ctxOf .none (.working 2 0 [])), (2, ctxOf .none (.movement 2)), (3, ctxOf .none (.stream 3)),
        (4, ctxOf .testRun .none)]
      mvs := [(2, { Movement.init 1 [(65536, 1)] (0, 0, 0) host with state := .loaded, image := image2 })]
      streams := [(3, Stream.init true (reqFor 1 []) 3 1 .head)] } }

/-- The same with a trace carve-out. -/
def traced : State := { work with mach := { work.mach with svc := { work.mach.svc with trace := { work.mach.svc.trace with carveMiB := 64 } } } }

/-- Partition 1 before it has regions and extents. -/
def bare : State := { work with mach := { work.mach with mem := { work.mach.mem with extents := [], regions := [] } } }

/-- The same with one GDDR7 channel and no T1 port. -/
def narrow : State := { work with mach := { work.mach with t0 := { work.mach.t0 with channels := [0] }, t1 := Mod.init.t1, mem := { work.mach.mem with mapInT0 := true } } }

/-- The module as device 5 of a fabric: region 2 is its part of fabric region 3, region 4 is a striped region that joins none, and a tree. -/
def joined : State :=
  { work with mach := { work.mach with
      mem := { work.mach.mem with regions := work.mach.mem.regions ++ [(4, { regionOf 4 3 (leBytes 8 5 ++ [0, 0, 0, 0, 0, 0, 0, 2, 1]) with striped := true })] }
      fab := { work.mach.fab with deviceId := 5 }
      fm := { work.mach.fm with
        grants := [(1, 7, 0xFF, 1)]
        regions := [(3, { FabRegion.init { purpose := 0, partition := 1, localRegion := 2, registrar := 5, ch := 3, entries := [], answer := none } 1 1 0 0 with members := [5] })]
        trees := [(6, { partition := 1, parent := 0xFFFF, children := [], cores := 1, sub := 0, dtype := 3, elements := 4, timeoutMs := 100, rounds := [], dead := [] })] } } }

/-- The state with that command pending in channel 3, which the requester owns. -/
def ask (s : State) (who : Owner) (op part : Nat) (args : List Byte) : State :=
  { s with mach := { s.mach with
      chans := Tbl.put s.mach.chans 3 { Chan.init who with seq := 1, inflight := some { slot := slotOf op part args, started := false } }
      gaffer := { s.mach.gaffer with order := [3] } } }

/-- The hypotheses of a mailbox row's completion: it is its turn, it is admitted, and the status of its answer. -/
def runs (s : State) (op : Nat) (form : Mem → Bool) (cmd : Cmd) : Option Status :=
  match s.mach.servable 3 op form with
  | none => none
  | some (c, fl) =>
    let m := s.mach.start 3
    match m.turnedAway (m.reqOf s.fuses 3 c fl) with
    | some _ => none
    | none => some (cmd (m.reqOf s.fuses 3 c fl) m).2.status

/-- The row of that opcode completes with that status in that state: OK, ACCEPTED, or PENDING while it waits. -/
def does (st : Status) (s : State) (part op : Nat) (args : List Byte) (form : Mem → Bool) (cmd : Cmd) : Bool :=
  runs (ask s host op part args) op form cmd == some st

/-- A descriptor's 32 bytes. -/
def descOf (op dtype sub flags dst a b count imm ext : Nat) : Mem :=
  (Mem.ofBytes (leBytes 1 op ++ leBytes 1 dtype ++ leBytes 1 sub ++ leBytes 1 flags ++ leBytes 4 dst ++ leBytes 4 a ++ leBytes 4 b ++ leBytes 4 count ++
    leBytes 4 imm ++ leBytes 8 ext)).map (fun c => (c.1 + 0x340, c.2))

/-- A movement that runs on core 0 and stands before that descriptor; its binding is region 1 at the head, and the crucible begins with a Lehr
image of zeros. -/
def runs1 (d : Mem) : State :=
  { joined with mach := { joined.mach with
      ctxs := [(2, ctxOf .none (.movement 2))]
      mvs := [(2, { Movement.init 1 [(65536, 1)] (0, 0, 0) host with state := .running, image := imageOf d 2 })]
      cores := [(0, { Core.init with movement := some 2, crucible := [(0, 1), (3, 1)] })] } }

/-- The hypotheses of a unit's descriptor. -/
def unitRuns (op : Nat) (effect : Effect) (d : Mem) : Bool :=
  match (runs1 d).mach.nextDesc 0 with
  | none => false
  | some i => decide (i.d.op = op) && spansOk i.k (i.d.knownSpans i.k) && spansFree i.k (i.k.busyUnits (runs1 d).mach.treeType) (i.d.knownSpans i.k) &&
      spansOk i.k ((runs1 d).mach.spansOf i) && spansFree i.k (i.k.busyUnits (runs1 d).mach.treeType) ((runs1 d).mach.spansOf i) &&
      (effect i (runs1 d).mach).2.isNone && !(runs1 d).mach.roundStalls 0

/-! ### The mailbox rows: each completes in some state -/

theorem test_channelAndIdentityCommands_meet1 :
    (does .ok work 1 0x0000 ([]) anyForm cmdIdentify &&
      does .ok work 1 0x0001 ([]) anyForm cmdGetStatus &&
      does .ok work 1 0x0002 ([]) anyForm cmdGetCapabilities &&
      does .ok work 1 0x0003 ([]) anyForm cmdGetTime &&
      does .ok work 1 0x0100 ([]) anyForm cmdChannelInfo &&
      does .ok work 1 0x0101 (leBytes 8 0x10000 ++ leBytes 1 8 ++ leBytes 1 1) anyForm cmdRingSetup &&
      does .ok work 1 0x0102 ([]) anyForm cmdRingTeardown &&
      does .ok work 1 0x0103 (leBytes 2 0x0301) anyForm cmdEventSubscribe) = true := by decide +kernel

theorem test_channelAndIdentityCommands_meet2 :
    (does .ok work 1 0x0104 (leBytes 2 0x0301) anyForm cmdEventUnsubscribe &&
      does .ok busy 1 0x0105 (leBytes 4 0x10004) anyForm cmdContextStatus &&
      does .ok busy 1 0x0107 (leBytes 4 0) anyForm cmdContextList &&
      does .ok busy 1 0x0106 (leBytes 4 0x10004) anyForm cmdContextCancel) = true := by decide +kernel

theorem test_partitionAndRegionCommands_meet1 :
    (does .ok work 1 0x0203 ([]) anyForm cmdPartitionDestroy &&
      does .ok work 1 0x0301 (leBytes 2 1) anyForm cmdRegionDestroy &&
      does .ok work 1 0x0305 (leBytes 2 1 ++ leBytes 2 1 ++ leBytes 4 0 ++ leBytes 4 0) anyForm cmdRegionReleaseExtents &&
      does .ok work 2 0x0200 (leBytes 8 9 ++ leBytes 4 10 ++ leBytes 2 0 ++ leBytes 2 0) anyForm cmdPartitionCreate &&
      does .ok work 1 0x0201 (leBytes 1 1 ++ leBytes 1 3) anyForm cmdPartitionBindLd &&
      does .ok bare 1 0x0202 (leBytes 1 0 ++ leBytes 1 0) anyForm cmdPartitionUnbindLd &&
      does .ok work 1 0x0204 ([]) anyForm cmdPartitionQuery &&
      does .ok work 1 0x0205 (leBytes 1 0 ++ leBytes 1 0 ++ leBytes 2 60) anyForm cmdLeaseSet) = true := by decide +kernel

theorem test_partitionAndRegionCommands_meet2 :
    (does .ok work 1 0x0206 (leBytes 1 255 ++ leBytes 1 0) anyForm cmdLeaseQuery &&
      does .ok bare 1 0x0300 (leBytes 8 5 ++ [0, 0, 0, 0, 0, 0, 0] ++ leBytes 1 2 ++ leBytes 1 1 ++ leBytes 1 0) anyForm cmdRegionCreate &&
      does .ok work 1 0x0302 (leBytes 2 1 ++ leBytes 1 0x0F ++ leBytes 1 0 ++ leBytes 4 3) anyForm cmdRegionSetAttr &&
      does .ok work 1 0x0303 (leBytes 2 1) anyForm cmdRegionQuery &&
      does .ok work 1 0x0304 (leBytes 2 1 ++ leBytes 2 1 ++ leBytes 4 0 ++ leBytes 4 2) anyForm cmdRegionAddExtents &&
      does .ok work 1 0x0306 ([]) anyForm cmdCapacityQuery) = true := by decide +kernel

theorem test_versionResidencyTableCommands_meet1 :
    (does .accepted work 1 0x0500 (leBytes 2 1 ++ leBytes 1 1) anyForm cmdSetResidency &&
      does .accepted work 1 0x0501 (leBytes 2 1 ++ leBytes 1 0 ++ leBytes 1 0 ++ leBytes 4 0 ++ leBytes 8 0 ++ leBytes 8 4) anyForm cmdPrefetch &&
      does .ok work 1 0x0502 (leBytes 2 1 ++ leBytes 1 0 ++ leBytes 1 0 ++ leBytes 4 0 ++ leBytes 8 0 ++ leBytes 8 4) anyForm cmdEvictHint &&
      does .ok work 1 0x0503 (leBytes 2 1 ++ leBytes 1 0 ++ leBytes 1 0 ++ leBytes 4 0 ++ leBytes 8 0 ++ leBytes 8 4) anyForm cmdResidencyQuery &&
      does .accepted work 1 0x0600 (leBytes 2 2) anyForm cmdRebuildTable &&
      does .accepted work 1 0x0601 (leBytes 2 2) anyForm cmdTableSweep &&
      does .ok work 1 0x0602 (leBytes 2 2 ++ leBytes 1 0) anyForm cmdTableQuery &&
      does .ok work 1 0x0400 (leBytes 2 2) anyForm cmdOpenView) = true := by decide +kernel

theorem test_versionResidencyTableCommands_meet2 :
    (does .ok busy 1 0x0401 (leBytes 4 0x10000) anyForm cmdCloseView &&
      does .ok work 1 0x0402 (leBytes 2 2) anyForm cmdOpenWorking &&
      does .ok busy 1 0x0403 (leBytes 4 0x10001 ++ leBytes 4 0) anyForm cmdPublish &&
      does .ok busy 1 0x0404 (leBytes 4 0x10001) anyForm cmdDiscardWorking &&
      does .accepted work 1 0x0405 (leBytes 2 2) anyForm cmdCheckpoint &&
      does .ok work 1 0x0406 (leBytes 2 2) anyForm cmdVersionList &&
      does .ok work 1 0x0407 (leBytes 2 2 ++ leBytes 2 0 ++ leBytes 4 0) anyForm cmdVersionRelease) = true := by decide +kernel

theorem test_movementStreamRegulatorCommands_meet1 :
    (does .accepted work 1 0x0700 (leBytes 8 0x1000 ++ leBytes 4 4096 ++ leBytes 4 0 ++ leBytes 1 1 ++ leBytes 7 0 ++ leBytes 4 0 ++ leBytes 2 1 ++ leBytes 2 0) anyForm cmdMovementLoad &&
      does .ok busy 1 0x0701 (leBytes 4 0x10002) anyForm cmdMovementStart &&
      does .ok busy 1 0x0702 (leBytes 4 0x10002 ++ leBytes 1 0) stopBarrierForm cmdMovementStop &&
      does .ok busy 1 0x0702 (leBytes 4 0x10002 ++ leBytes 1 1) stopNowForm cmdMovementStop &&
      does .ok busy 1 0x0703 (leBytes 4 0x10002) anyForm cmdMovementStatus &&
      does .ok busy 1 0x0704 (leBytes 4 0x10002) anyForm cmdMovementUnload &&
      does .ok work 1 0x0800 (leBytes 4 0 ++ leBytes 2 1 ++ leBytes 1 4 ++ leBytes 1 0 ++ leBytes 8 0 ++ leBytes 4 0 ++ leBytes 4 1 ++ leBytes 4 0 ++ leBytes 4 4 ++ leBytes 8 0x100000 ++ leBytes 8 0x200000 ++ leBytes 8 0 ++ leBytes 4 10000 ++ leBytes 4 2000 ++ leBytes 4 0) anyForm cmdStreamOpenPaced &&
      does .ok narrow 1 0x0801 (leBytes 4 0 ++ leBytes 2 1 ++ leBytes 2 0 ++ leBytes 4 0 ++ leBytes 4 0 ++ leBytes 4 64) anyForm cmdStreamOpenIngest) = true := by decide +kernel

theorem test_movementStreamRegulatorCommands_meet2 :
    (does .ok busy 1 0x0802 (leBytes 4 0x10003) anyForm cmdStreamStop &&
      does .ok busy 1 0x0803 (leBytes 4 0x10003) anyForm cmdStreamClose &&
      does .ok busy 1 0x0804 (leBytes 4 0x10003) anyForm cmdStreamStatus &&
      does .ok work 1 0x0900 (leBytes 1 1 ++ leBytes 7 0 ++ leBytes 2 1 ++ leBytes 1 1 ++ leBytes 1 0 ++ leBytes 4 100 ++ leBytes 4 200 ++ leBytes 1 16 ++ leBytes 3 0) anyForm cmdRegSetMinimums &&
      does .ok work 1 0x0901 (leBytes 4 0 ++ leBytes 4 0xFFFFFFFF ++ leBytes 2 0 ++ leBytes 2 3072) anyForm cmdRegSetShares &&
      does .ok work 1 0x0902 (leBytes 8 0) anyForm cmdRegSetWindow &&
      does .ok work 1 0x0903 (leBytes 1 0 ++ leBytes 3 0 ++ leBytes 4 1000) anyForm cmdRegSetLatencyTarget &&
      does .ok work 1 0x0904 (leBytes 1 1) anyForm cmdRegQuery) = true := by decide +kernel

theorem test_integrityTestObservationCommands_meet1 :
    (does .ok work 1 0x0B00 (leBytes 1 1) anyForm cmdTestPolicySet &&
      does .accepted work 1 0x0B01 (leBytes 1 0 ++ leBytes 1 0 ++ leBytes 2 0x1000 ++ leBytes 2 1) testKernel cmdTestRun &&
      does .accepted work 1 0x0B01 (leBytes 1 1 ++ leBytes 1 0 ++ leBytes 2 0x1000 ++ leBytes 2 1) testRound cmdTestRun &&
      does .accepted work 1 0x0B01 (leBytes 1 2 ++ leBytes 1 0 ++ leBytes 2 0x1000 ++ leBytes 2 1) testRequalify cmdTestRun &&
      does .ok work 1 0x0B02 ([]) anyForm cmdTestReport &&
      does .ok work 1 0x0B03 (leBytes 2 0x1000) anyForm cmdUnitStateQuery &&
      does .ok work 1 0x0C00 (leBytes 1 0 ++ leBytes 1 0 ++ leBytes 2 0 ++ leBytes 1 1 ++ leBytes 3 0 ++ leBytes 2 1 ++ leBytes 2 0xFFFF ++ leBytes 2 0xFFFF ++ leBytes 1 0 ++ leBytes 1 0 ++ leBytes 4 0 ++ leBytes 4 0) anyForm cmdCounterConfig &&
      does .ok work 1 0x0C01 (leBytes 1 0 ++ leBytes 1 0) freezeForm cmdCounterFreeze) = true := by decide +kernel

theorem test_integrityTestObservationCommands_meet2 :
    (does .ok work 1 0x0C01 (leBytes 1 0 ++ leBytes 1 1) (actionIs 1 1) cmdCounterFreeze &&
      does .ok work 1 0x0C01 (leBytes 1 0 ++ leBytes 1 2) (actionIs 1 2) cmdCounterFreeze &&
      does .ok work 1 0x0C02 (leBytes 2 0 ++ leBytes 2 0 ++ leBytes 1 1) anyForm cmdCounterRead &&
      does .ok work 1 0x0C03 (leBytes 4 64 ++ leBytes 4 0 ++ leBytes 1 0 ++ leBytes 1 0 ++ leBytes 1 0 ++ leBytes 1 0 ++ leBytes 2 15 ++ leBytes 1 255) anyForm cmdTraceConfig &&
      does .ok traced 1 0x0C04 (leBytes 8 0) armForm cmdTraceArm &&
      does .ok work 1 0x0C04 (leBytes 1 1) (actionIs 0 1) cmdTraceStop &&
      does .ok work 1 0x0C04 (leBytes 1 2) (actionIs 0 2) cmdTraceTrigger &&
      does .ok work 1 0x0C04 (leBytes 1 3) (actionIs 0 3) cmdTraceMarker) = true := by decide +kernel

theorem test_integrityTestObservationCommands_meet3 :
    (does .ok work 1 0x0C05 (leBytes 8 0 ++ leBytes 4 1) anyForm cmdTraceRead &&
      does .ok work 1 0x0C06 (leBytes 2 15) anyForm cmdHangRingEnable &&
      does .ok work 1 0x0C07 (leBytes 2 0 ++ leBytes 1 2) anyForm cmdDumpRead &&
      does .ok work 1 0x0A04 (leBytes 2 1 ++ leBytes 1 0 ++ leBytes 1 0 ++ leBytes 4 0 ++ leBytes 8 0 ++ leBytes 8 4) anyForm cmdPoisonQuery &&
      does .accepted work 1 0x0A00 (leBytes 1 0 ++ leBytes 1 0 ++ leBytes 2 1 ++ leBytes 4 0 ++ leBytes 8 0 ++ leBytes 8 1 ++ leBytes 1 0 ++ leBytes 1 0 ++ leBytes 6 0 ++ leBytes 8 0x10000 ++ leBytes 4 576 ++ leBytes 4 0) anyForm cmdScrub &&
      does .ok work 1 0x0A01 (leBytes 8 0 ++ leBytes 1 0 ++ leBytes 1 255) anyForm cmdErrorLogRead &&
      does .ok work 1 0x0A02 ([]) anyForm cmdErrorLogClear &&
      does .ok joined 1 0x0A03 (leBytes 2 1 ++ leBytes 1 1 ++ leBytes 5 0 ++ leBytes 8 0x10000) anyForm cmdSetMirror) = true := by decide +kernel

theorem test_fabricCommands_meet1 :
    (does .accepted work 1 0x0D00 (leBytes 8 0) anyForm cmdFabDiscover &&
      does .ok work 1 0x0D01 (leBytes 2 5) anyForm cmdFabSetId &&
      does .ok work 1 0x0D02 (leBytes 1 4 ++ leBytes 1 1 ++ leBytes 6 0 ++ leBytes 2 3 ++ leBytes 2 3 ++ leBytes 4 0x80000000) anyForm cmdFabLoadRoutes &&
      does .accepted work 1 0x0D05 (leBytes 8 0 ++ leBytes 8 0) (fun a => slotArg a 0 1 = 0) cmdFtcSync &&
      does .accepted work 1 0x0D05 (leBytes 8 1 ++ leBytes 8 0) (fun a => slotArg a 0 1 = 1) cmdFtcSync &&
      does .accepted work 1 0x0D05 (leBytes 8 2) (fun a => decide (2 ≤ slotArg a 0 1)) cmdFtcSync &&
      does .ok work 1 0x0D06 (leBytes 8 0) anyForm cmdFabQuery &&
      does .pending joined 1 0x0D03 (leBytes 1 0 ++ leBytes 1 0 ++ leBytes 2 9 ++ leBytes 2 4 ++ leBytes 2 7) (joinForm 0) cmdJoinMember) = true := by decide +kernel

theorem test_fabricCommands_meet2 :
    (does .pending joined 1 0x0D03 (leBytes 1 1 ++ leBytes 1 0 ++ leBytes 2 9 ++ leBytes 2 0 ++ leBytes 2 7) (joinForm 1) cmdJoinAccessor &&
      does .ok joined 1 0x0D03 (leBytes 1 2 ++ leBytes 1 0 ++ leBytes 2 3) (joinForm 2) cmdFabRegionLeave &&
      does .ok joined 1 0x0D03 (leBytes 1 3 ++ leBytes 1 0 ++ leBytes 2 0 ++ leBytes 2 1 ++ leBytes 6 0 ++ leBytes 8 0 ++ leBytes 8 0 ++ leBytes 4 0 ++ leBytes 2 8 ++ leBytes 1 2 ++ leBytes 1 1) (joinForm 3) cmdFabRegionExport &&
      does .ok joined 1 0x0D03 (leBytes 1 4 ++ leBytes 1 0 ++ leBytes 2 0 ++ leBytes 2 1 ++ leBytes 6 0 ++ leBytes 8 0 ++ leBytes 8 0 ++ leBytes 4 0 ++ leBytes 2 7 ++ leBytes 1 255) (joinForm 4) cmdFabRegionUnexport &&
      does .ok joined 1 0x0D03 (leBytes 1 5 ++ leBytes 1 0 ++ leBytes 2 3) (joinForm 5) cmdTakeRegistrar &&
      does .accepted joined 1 0x0D04 (leBytes 2 3 ++ leBytes 2 7 ++ leBytes 4 0 ++ leBytes 4 1) anyForm cmdRehome &&
      does .ok joined 1 0x0D03 (leBytes 1 6 ++ leBytes 3 0 ++ leBytes 4 7 ++ leBytes 2 0xFFFF ++ leBytes 1 1 ++ leBytes 1 3 ++ leBytes 1 0 ++ leBytes 1 0 ++ leBytes 2 1 ++ leBytes 4 4 ++ leBytes 4 100 ++ leBytes 2 9) (joinForm 6) cmdTreeSet &&
      does .ok joined 1 0x0D03 (leBytes 1 7 ++ leBytes 3 0 ++ leBytes 4 6) (joinForm 7) cmdTreeClear) = true := by decide +kernel

theorem test_powerAndMeasurementCommands_meet :
    (does .ok work 1 0x0F06 (leBytes 1 3) anyForm cmdGetMeasurements &&
      does .ok work 1 0x0E02 (leBytes 2 800 ++ leBytes 1 1) anyForm cmdPowerSetLimit &&
      does .ok work 1 0x0E03 ([]) anyForm cmdTelemetryRead &&
      does .ok work 1 0x0E00 (leBytes 1 1) anyForm cmdPowerSetRung &&
      does .ok work 1 0x0E01 ([]) anyForm cmdPowerQuery) = true := by decide +kernel

/-- A search among 65,536 numbers ends when only one of them is taken. -/
theorem probe_finds (ok : Nat → Bool) (s : Nat) (x : Nat) (h : ∀ n, n ≠ x → ok n = true) : (probe 65536 ok s 65536).isSome = true := by
  rw [show probe 65536 ok s 65536 = if ok (s % 65536) then some (s % 65536) else
    (if ok ((s + 1) % 65536) then some ((s + 1) % 65536) else probe 65536 ok (s + 1 + 1) 65534) from rfl]
  split
  · rfl
  · rw [if_pos (h _ (fun e => by have := h (s % 65536) (by omega); simp_all))]; rfl

/-- Everything that CAPTURE_TENSOR checks before it opens its context. -/
def dumpChecks (r : Req) (m : Mod) : Bool :=
  match m.mvArg r, r.buffer 0x10 with
  | some (s, v), .inl (_, n, sp) =>
    decide (v.state ≠ .loading) && (decide (r.arg 4 2 < imgSymbols v.image) && (symbolAt v.image (r.arg 4 2)).1 == 1) &&
      (decide (r.arg 6 2 < imgSymbols v.image) && (symbolAt v.image (r.arg 6 2)).1 == 2) && decide (r.arg 8 1 ≤ 1) && decide (r.arg 9 7 = 0) &&
      decide (sp = 0) && r.ld == some 0 &&
      decide ((symbolAt v.image (r.arg 4 2)).2.2.2.2 * ((if bit (r.arg 8 1) 0 then 65536 else 65792) + 16) ≤ n) &&
      decide ((m.svc.hang.captures.filter (fun c => c.movement = s)).length < 4) &&
      decide ((Tbl.find m.mem.lds 0).all (fun b => b.lease != LeaseState.cleanup)) &&
      decide (m.ctxsUsed r.partD < m.ctxQuota r.partD) && decide (m.ctxsInUse < 64512) && decide (m.ctxs.length = 1)
  | _, _ => false

theorem newCtx_opens (m : Mod) (r : Req) (w : Work) (o : Obj) (p : Option Window) (hl : r.ld = some 0)
    (h1 : (Tbl.find m.mem.lds 0).all (fun b => b.lease != LeaseState.cleanup) = true)
    (h2 : m.ctxsUsed r.partD < m.ctxQuota r.partD) (h4 : m.ctxsInUse < 64512) (h3 : m.ctxs.length = 1) :
    ∃ m1 k, m.newCtx r w o p = (m1, .inl k) := by
  obtain ⟨x, hx⟩ : ∃ x, m.ctxs = [x] := List.length_eq_one_iff.1 h3
  have hp := probe_finds (fun n => match Tbl.find m.ctxs n with | some c => c.state == CtxState.free | none => true) (m.choose 65536).1 x.1
    (fun n hn => by simp [hx, Tbl.find, hn])
  obtain ⟨k, hk⟩ := Option.isSome_iff_exists.1 hp
  have hc : (m.chooseFrom 65536 (fun n => match Tbl.find m.ctxs n with | some c => c.state == CtxState.free | none => true)).1 = some k := hk
  unfold Mod.newCtx
  cases hf : Tbl.find m.mem.lds 0 <;> simp only [hl, hf, Option.all_some] at h1 ⊢ <;>
    rw [if_neg (by first | simp; done | simpa using h1), if_neg (by omega)] <;> split
  all_goals first
    | exact ⟨_, _, rfl⟩
    | rename_i e; exact absurd (hc.symm.trans (congrArg Prod.fst e)) (by simp)

theorem cmdDumpTensor_accepts (r : Req) (m : Mod) (h : dumpChecks r m = true) : (cmdDumpTensor r m).2.status = .accepted := by
  unfold dumpChecks at h
  unfold cmdDumpTensor
  split at h
  · rename_i s v a n sp hv hb
    simp only [Bool.and_eq_true, decide_eq_true_eq, beq_iff_eq] at h
    obtain ⟨⟨⟨⟨⟨⟨⟨⟨⟨⟨⟨⟨h1, h2a, h2b⟩, h3a, h3b⟩, h4⟩, h5⟩, h6⟩, h7⟩, h8⟩, h9⟩, h10⟩, h11⟩, h13⟩, h12⟩ := h
    obtain ⟨m1, k, hn⟩ := newCtx_opens m r (.dumpTensor s) .none none h7 h10 h11 h13 h12
    simp only [hv, hb, hn, h2a, h2b, h3a, h3b]
    rw [if_neg h1, if_neg (by simp), if_neg (by simp), if_neg (by omega), if_neg (by omega), if_neg (by omega), if_neg (by simp [h7]), if_neg (by omega),
      if_neg (by omega)]
  · cases h

/-- A row that accepts wherever a check holds completes with ACCEPTED where the check holds. -/
theorem runs_of_check {s : State} {op : Nat} {form : Mem → Bool} {cmd : Cmd} {check : Req → Mod → Bool}
    (hc : ∀ r m, check r m = true → (cmd r m).2.status = .accepted)
    (h : runs s op form (fun r m => (m, { status := if check r m then .accepted else .busy })) = some .accepted) :
    runs s op form cmd = some .accepted := by
  unfold runs at h ⊢
  cases e : s.mach.servable 3 op form with
  | none => simp [e] at h
  | some x =>
    simp only [e] at h ⊢
    split at h
    · cases h
    · simp only [Option.some.injEq, ite_eq_left_iff, reduceCtorEq, imp_false, Decidable.not_not] at h
      rw [hc _ _ h]

/-- A loaded movement alone, with a tensor and a step among its symbols. -/
def dumping : State :=
  { work with mach := { work.mach with
      ctxs := [(2, ctxOf .none (.movement 2))]
      mvs := [(2, { Movement.init 1 [(65536, 1)] (0, 0, 0) host with
        state := .loaded, image := [(0x25, 5), (0x28, 2), (0x500, 1), (0x510, 1), (0x540, 2)] })] } }

theorem test_dumpTensor_meets :
    does .accepted dumping 1 0x0C08 (leBytes 4 0x10002 ++ leBytes 2 0 ++ leBytes 2 1 ++ leBytes 8 0 ++ leBytes 8 0x4000 ++ leBytes 4 0x20000 ++ leBytes 4 0)
      anyForm cmdDumpTensor = true := by
  unfold does
  rw [runs_of_check cmdDumpTensor_accepts (by decide +kernel)]
  rfl

/-! ### The movement core's descriptors -/

theorem test_unitDescriptors_meet1 :
    (unitRuns 0x10 effFetch (descOf 0x10 255 0 0 0 0 0 2 0 0) &&
      unitRuns 0x11 effStore (descOf 0x11 255 0 0 0 0 0 2 0 0) &&
      unitRuns 0x12 effGather (descOf 0x12 255 0 0 0 100 0 2 0 0) &&
      unitRuns 0x13 effScatter (descOf 0x13 255 0 0 0 0 100 2 0 0) &&
      unitRuns 0x14 effPutPane (descOf 0x14 255 0 0 0 0 0 0 0 0) &&
      unitRuns 0x20 effFill (descOf 0x20 255 0 0 0 0 0 4 0 0) &&
      unitRuns 0x21 effCopy (descOf 0x21 255 0 0 100 0 0 4 0 0) &&
      unitRuns 0x53 effChecksum (descOf 0x53 255 0 0 0 0 0 8 0 0)) = true := by decide +kernel

theorem test_unitDescriptors_meet2 :
    (unitRuns 0x30 effVec (descOf 0x30 3 0 0 64 0 0 8 0 0) &&
      unitRuns 0x31 effConvert (descOf 0x31 1 3 0 64 0 0 8 0 0) &&
      unitRuns 0x40 effMma (descOf 0x40 1 0 8 600 0 300 1 0 0) &&
      unitRuns 0x50 effReduce (descOf 0x50 3 0 0 64 0 0 8 0 0) &&
      unitRuns 0x51 effCompare (descOf 0x51 7 0 4 0 0 0 8 1 0) &&
      unitRuns 0x52 effTopk (descOf 0x52 7 0 0 64 0 0 8 2 0) &&
      unitRuns 0x32 effSdot (descOf 0x32 1 0 0 200 0 64 2 0 0) &&
      unitRuns 0x33 effSoftmaxPartial (descOf 0x33 1 0 0 200 0 64 2 0 0)) = true := by decide +kernel

theorem test_unitDescriptors_meet3 :
    (unitRuns 0x34 effSoftmaxMerge (descOf 0x34 255 0 0 200 0 0 0 0 0) &&
      unitRuns 0x60 effFritEncode (descOf 0x60 1 0 0 8192 0 0 0 0 0) &&
      unitRuns 0x61 effLehrEncode (descOf 0x61 1 0 1 8192 0 0 0 0 0) &&
      unitRuns 0x62 effDecode (descOf 0x62 255 0 0 400 0 0 1 0 0) &&
      unitRuns 0x70 effFabSend (descOf 0x70 255 0 0 0 0 0 4 0 7) &&
      unitRuns 0x71 effFabRecv (descOf 0x71 255 0 0 0 0 0 4 0 7) &&
      unitRuns 0x72 effFabReduce (descOf 0x72 3 0 0 64 0 0 4 0 6)) = true := by decide +kernel


/-! ### Channels, sequencer descriptors, signed rows, the primary mailbox, the fabric manager, SPDM -/

/-- Channel 3 of the host with a ring, channel 4 closing, and channel 5 of the sideband. -/
def paged : State :=
  { work with mach := { work.mach with chans :=
      [(3, { Chan.init host with ring := some { base := 0x10000, log2 := 8, irq := true, disabled := false } }), (4, { Chan.init host with closing := true }),
        (5, Chan.init side)] } }

theorem test_channelCommands_meet :
    reaches paged.mach host ∧ reaches paged.mach side ∧
    (((Tbl.find (touched paged.mach host).chans 9).isNone &&
    (Tbl.find (touched paged.mach host).chans 3).elim false (fun c => c.owner == host && !c.closing && c.inflight.isNone && c.ring.isSome &&
      c.owner.ldNo == some 0 && c.head == 0) &&
    (Tbl.find paged.mach.chans 4).elim false (fun c => c.closing && c.inflight.isNone) &&
    (Tbl.find paged.mach.chans 5).elim false (fun c => c.owner.ldNo == none)) = true) :=
  ⟨by show _ ∧ _; decide +kernel, by show _ ∧ _; decide +kernel, by decide +kernel⟩

/-- The next descriptor's opcode, with no unit busy. -/
def seqRuns (op : Nat) : Bool :=
  match (runs1 (descOf op 0xFF 0 0 0 0 0 3 0 0)).mach.nextDesc 0 with
  | none => false
  | some i => decide (i.d.op = op) && i.k.busyUnits joined.mach.treeType == []

theorem test_sequencerDescriptors_meet : ([0x00, 0x01, 0x02, 0x03, 0x04].all seqRuns) = true := by decide +kernel

/-- A signed command that is admitted and waits for its object. -/
def signedWaits (op : Nat) (cmd : Req → Fuses → Mod → (Fuses × Mod) × Reply) : Bool :=
  let s := ask work host op 0xFF (leBytes 8 0x10000 ++ leBytes 4 6000 ++ leBytes 4 0)
  match s.mach.servable 3 op anyForm with
  | none => false
  | some (c, fl) =>
    let r := (s.mach.start 3).reqOf s.fuses 3 c fl
    (((s.mach.start 3).turnedAway r).isNone && (cmd r s.fuses (s.mach.start 3)).2.status == .pending)

theorem test_signedCommands_meet :
    (signedWaits 0x0F00 cmdFwUpdate && signedWaits 0x0F01 (cmdFwActivate 0) && signedWaits 0x0F01 (cmdFwActivate 1) &&
      signedWaits 0x0F01 (cmdFwActivate 2) && signedWaits 0x0F02 cmdLifecycleSet && signedWaits 0x0F03 cmdDebugUnlock &&
      signedWaits 0x0F04 cmdOwnerKeyInstall && signedWaits 0x0F05 cmdManagerListSet) = true := by decide +kernel

/-- The state after the host's traffic; an answer that is Success. -/
def asked : Mod := work.mach.hostTraffic 0
def succeeds (a : Answer) : Bool := a.2.1 == "Success"

/-- LD 0 with one record in each event log and one extent offered to it. -/
def offered : Mod :=
  (asked.setLd 0 (fun d => { d with eventLogs := List.replicate 5 [[1]], adds := [[5]] })).setMem (fun e => { e with
    extents := e.extents ++ [(5, { pendingLds := [0], heldLds := [], region := none, kept := none, serial := 4, inCullet := false, tag := 0 })] })

theorem test_primaryMailbox_meets :
    (hostReaches work.mach 0 0 ∧ (asked.ld 0).memoryActive = true) ∧
    ((succeeds (ansIdentifyMemoryDevice asked) && succeeds (ansGetSupportedLogs asked) && succeeds (ansGetLog (celUuid ++ leBytes 8 0) asked) &&
      succeeds (ansGetEventRecords 0 [1] offered) && succeeds (ansClearEventRecords 0 [1, 0, 1, 0, 0, 0, 1, 0] offered) &&
      succeeds (ansGetEventInterruptPolicy asked) && succeeds (ansSetEventInterruptPolicy [0, 0] asked) && succeeds (ansGetPoisonList 0 (leBytes 8 0 ++ leBytes 8 64) asked) &&
      succeeds (ansGetTimestamp 0 asked) && succeeds (ansSetTimestamp 0 (leBytes 8 5) asked) && succeeds (ansGetDynamicCapacityConfiguration [1, 0] asked) &&
      succeeds (ansGetDynamicCapacityExtentList 0 (leBytes 4 8 ++ leBytes 4 0) asked) && succeeds (ansAddDynamicCapacityResponse 0 [5] offered) &&
      succeeds (ansReleaseDynamicCapacity 0 [2] asked)) = true) :=
  ⟨⟨by show _ ∧ _; decide +kernel, by decide +kernel⟩, by decide +kernel⟩

/-- An add of that policy finds its extents, all of them valid and clean, with room in the event log and in the map. -/
def addsTo (policy : AddPolicy) (count : Nat) (dpas : List Nat) : Bool :=
  let m := work.mach
  let es := match policy with
    | .prescriptive => some (dpas.map (· / 2 ^ 28))
    | .free => m.chooseExtents 0 false count
    | .contiguous => m.chooseExtents 0 true count
  es.elim false (fun es => !es.isEmpty && decide (es.eraseDups.length = es.length) && !es.any (m.addInvalid 0) &&
    decide (((m.ld 0).eventLogs.getD 4 []).length < 64) &&
    decide (((m.offer 0 es 0).mem.extents.filter (fun e => e.2.pendingLds != [] || e.2.heldLds != [] || e.2.kept != none)).length ≤ 1048576) &&
    !m.mem.mapInT0 && (m.offer 0 es 0).reserveMap.isSome && !es.any (fun e => (Tbl.find m.mem.extents e).elim false (fun x => x.inCullet)))

theorem test_fabricManagerChecks_meet :
    (addsTo .prescriptive 0 [9 * 2 ^ 28] && addsTo .free 2 [] && addsTo .contiguous 2 [] &&
      (Tbl.find work.mach.mem.extents 2).elim false (fun x => x.heldLds.contains 0 && !x.pendingLds.contains 0) &&
      !(work.mach.setBoot (fun b => { b with lifecycle := 2 })).isManager (.mctp 1 9) && (work.mach.setBoot (fun b => { b with readiness := .booting })).isManager side) = true ∧
    reaches (work.mach.setBoot (fun b => { b with lifecycle := 2 })) (.mctp 1 9) ∧ reaches work.mach (.peer 7 0) ∧ reaches (work.mach.setBoot (fun b => { b with readiness := .booting })) side :=
  ⟨by decide +kernel, by show _ ∧ _; decide +kernel, by show _ ∧ _; decide +kernel, by show _ ∧ _; decide +kernel⟩

theorem test_fabricManager_meets :
    reaches work.mach side ∧ (work.mach.isManager side = true ∧ work.mach.boot.readiness ≠ .booting) ∧
    ((succeeds (ansGetDcdInfo work.mach) && succeeds (ansGetHostDcRegionConfiguration 0 work.mach) &&
      succeeds (ansSetDcRegionConfiguration 0 (2 ^ 28) (2 ^ 48) 0 work.mach) && succeeds (ansGetDcdExtentLists 0 work.mach) &&
      succeeds (ansInitiateDynamicCapacityAdd 0 .prescriptive 1 [9 * 2 ^ 28] 0 work.mach) &&
      succeeds (ansInitiateDynamicCapacityRelease 0 true [2 * 2 ^ 28] work.mach) && succeeds (ansGetLdInfo work.mach) &&
      succeeds (ansGetLdAllocations work.mach)) = true) :=
  ⟨by show _ ∧ _; decide +kernel, by decide +kernel, by decide +kernel⟩

theorem test_doeAndSpdm_meet :
    (work.mach.presented 0 = true ∧ (work.mach.ld 0).f0.reset = 0 ∧ ((cdatEntries (asked.port 0).rate (asked.port 0).width)[1]?).isSome = true) ∧
    reaches work.mach side ∧ ((work.mach.setFport 2 (fun f => { f with state := .up })).fport 2).linked = true :=
  ⟨by decide +kernel, by show _ ∧ _; decide +kernel, by decide +kernel⟩

/-! ### Signed commands that pass their checks -/

/-- What is left to refuse a signed object where every digest is 0 and every signature verifies: its serial and its number of signers. -/
def lightRefusal (o : Signed) (fz : Fuses) (lc : Nat) : Option Nat :=
  if o.serial ≠ fz.serial ∧ !(o.serial = 0 ∧ o.kind ≤ 2) then some 0x0F03
  else if o.signers ≠ (if o.kind = 4 ∧ lc ≠ 0 ∧ lc ≠ 4 then 2 else 1) then some 0x0F02
  else none

theorem refusal_light (hd : ∀ bs, Config.sha384 bs = 0) (hv : ∀ k bs, Config.verifies k bs = true) (o : Signed) (fz : Fuses) (lc : Nat)
    (h1 : fz.vendorRootDigest = 0) (h2 : fz.ownerDigest = 0) : o.refusal fz lc = lightRefusal o fz lc := by
  have hk : ∀ n, (signersFor fz lc o).getD n 0 = 0 := by
    intro n
    unfold signersFor
    simp only [h1, h2, hd]
    split
    · cases n <;> simp
    · cases n <;> simp
    · split
      · cases n <;> simp
      · rcases n with _ | _ | n <;> simp
    · split
      · cases n <;> simp
      · split <;> cases n <;> simp
  have hl : (signersFor fz lc o).length = if o.kind = 4 ∧ lc ≠ 0 ∧ lc ≠ 4 then 2 else 1 := by
    unfold signersFor
    split <;> simp_all
    · by_cases a : lc = 0 <;> by_cases b : lc = 4 <;> simp [a, b]
  unfold Signed.refusal lightRefusal
  simp only [hk, hl, hd, hv]
  simp

/-- The answer to a signed command where nothing but its own checks can refuse it. -/
def lightCmd (suits mine : Signed → Bool) (allowed : Fuses → Mod → Signed → Bool)
    (run : Req → Fuses → Mod → Signed → (Fuses × Mod) × Reply) (r : Req) (fz : Fuses) (m : Mod) : Option Status :=
  match r.buffer 0 with
  | .inr _ => none
  | .inl (addr, len, space) =>
    match m.readBuffer r.ch 0 0x10 r.owner r.partD addr len space with
    | (m1, .ready bs) =>
      let o := Signed.ofBytes bs
      if spaceOk r.owner space && !decide (64 + 16777216 + 5357 * 2 < len ∨ len < 64 + 5357) && (o.wellFormed && suits o) && mine o &&
        (lightRefusal o fz m1.boot.lifecycle).isNone && !decide ((o.kind = 3 ∨ o.kind = 4) ∧ o.sequence ≤ m1.boot.lastSequence) &&
        !decide (o.kind = 1 ∧ o.security < fz.antiRollback) && allowed fz m1 o then some (run r fz m1 o).2.status else none
    | _ => none

theorem note_status (n : Nat) (m : Mod) (x : (Fuses × Mod) × Reply) : (noteSequence n m x).2.status = x.2.status := by unfold noteSequence; split <;> rfl

theorem signedCmd_light (hd : ∀ bs, Config.sha384 bs = 0) (hv : ∀ k bs, Config.verifies k bs = true) {suits mine : Signed → Bool}
    {allowed : Fuses → Mod → Signed → Bool} {run : Req → Fuses → Mod → Signed → (Fuses × Mod) × Reply} {r : Req} {fz : Fuses} {m : Mod}
    {st : Status} (h1 : fz.vendorRootDigest = 0) (h2 : fz.ownerDigest = 0) (h : lightCmd suits mine allowed run r fz m = some st) :
    (signedCmd suits mine allowed run r fz m).2.status = st := by
  unfold lightCmd at h
  unfold signedCmd
  cases hb : r.buffer 0 with
  | inr o => simp [hb] at h
  | inl x =>
    obtain ⟨addr, len, space⟩ := x
    simp only [hb] at h ⊢
    cases hr : m.readBuffer r.ch 0 0x10 r.owner r.partD addr len space with
    | mk m1 a =>
      cases a with
      | waiting => simp [hr] at h
      | refused s => simp [hr] at h
      | ready bs =>
        simp only [hr] at h ⊢
        split at h
        · rename_i hc
          simp only [Bool.and_eq_true, Bool.not_eq_true', decide_eq_false_iff_not, Option.isNone_iff_eq_none] at hc
          obtain ⟨⟨⟨⟨⟨⟨⟨c1, c2⟩, c3a, c3b⟩, c4⟩, c5⟩, c6⟩, c7⟩, c8⟩ := hc
          rw [refusal_light hd hv _ _ _ h1 h2]
          simp only [c1, c2, c3a, c3b, c4, c5, c6, c7, c8, Bool.and_self, Bool.not_true, Bool.false_eq_true, if_false]
          split <;> rename_i c9
          · exact (note_status _ _ _).trans (Option.some.inj h)
          · exact Option.some.inj h
        · cases h

/-- A signed object with one signer and the module's serial number 0: its header and payload; the key and the signature are zeros. -/
def objectHead (kind opcode sequence : Nat) (payload : List Byte) : List Byte :=
  leBytes 4 0x4E47495A ++ leBytes 2 kind ++ leBytes 2 1 ++ leBytes 8 0 ++ leBytes 8 sequence ++ leBytes 4 payload.length ++ leBytes 2 opcode ++
    leBytes 34 0 ++ payload

/-- The command with its object read, on a module of serial number 0 whose fused digests are 0. -/
def signedAsk (op kind sequence lc : Nat) (payload : List Byte) : State :=
  let len := 64 + payload.length + 5357
  let s := ask work host op 0xFF (leBytes 8 0x10000 ++ leBytes 4 len ++ leBytes 4 0)
  { s with fuses := { s.fuses with serial := 0, vendorRootDigest := 0, ownerDigest := 0, ownerSet := false }, mach := { s.mach with
    boot := { s.mach.boot with lifecycle := lc, slots := [{ FwSlot.init with valid := true }, { FwSlot.init with valid := true }] }
    bufs := [{ key := 3, index := 0, descAt := 0x10, ld := some 0, address := 0x10000, length := len, asked := len, arrived := len,
               got := (((objectHead kind (if kind = 3 then op else 0) sequence payload).mapIdx (fun i b => (i, b))).filter (fun c => c.2 ≠ 0)) }] } }

/-- The request that the command becomes, and the module that serves it. -/
def signedReq (s : State) (op : Nat) : Req :=
  match s.mach.servable 3 op anyForm with
  | some (c, fl) => (s.mach.start 3).reqOf s.fuses 3 c fl
  | none => (s.mach.start 3).reqOf s.fuses 3 (Chan.init host) { slot := [], started := false }

/-- It is the command's turn and nothing turns it away. -/
def signedAdmitted (s : State) (op : Nat) : Bool :=
  (s.mach.servable 3 op anyForm).isSome && ((s.mach.start 3).turnedAway (signedReq s op)).isNone

def fwUpdateAsk : State := signedAsk 0x0F00 1 0 1 [1]
def fwActivateAsk (mode : Nat) : State := signedAsk 0x0F01 3 1 1 (leBytes 1 mode)
def lifecycleAsk : State := signedAsk 0x0F02 3 1 1 [4]
def unlockAsk : State := signedAsk 0x0F03 4 1 4 (leBytes 8 1)
def ownerAsk : State := signedAsk 0x0F04 3 1 0 []
def managersAsk : State := signedAsk 0x0F05 3 1 1 (leBytes 8 0)

theorem test_signedCommands_admitted :
    (signedAdmitted fwUpdateAsk 0x0F00 && signedAdmitted (fwActivateAsk 0) 0x0F01 && signedAdmitted (fwActivateAsk 1) 0x0F01 &&
      signedAdmitted (fwActivateAsk 2) 0x0F01 && signedAdmitted lifecycleAsk 0x0F02 && signedAdmitted unlockAsk 0x0F03 &&
      signedAdmitted ownerAsk 0x0F04 && signedAdmitted managersAsk 0x0F05) = true := by decide +kernel

/-- The status that a signed command answers to such a state. -/
def signedAnswer (s : State) (op : Nat) (cmd : Req → Fuses → Mod → (Fuses × Mod) × Reply) : Status :=
  (cmd (signedReq s op) s.fuses (s.mach.start 3)).2.status

/-- The signed commands answer OK or ACCEPTED there, if every digest is 0 and every signature verifies: Config leaves both open. -/
theorem test_signedCommands_answer (hd : ∀ bs, Config.sha384 bs = 0) (hv : ∀ k bs, Config.verifies k bs = true) :
    signedAnswer fwUpdateAsk 0x0F00 cmdFwUpdate = .accepted ∧ signedAnswer (fwActivateAsk 0) 0x0F01 (cmdFwActivate 0) = .accepted ∧
    signedAnswer (fwActivateAsk 1) 0x0F01 (cmdFwActivate 1) = .accepted ∧ signedAnswer (fwActivateAsk 2) 0x0F01 (cmdFwActivate 2) = .accepted ∧
    signedAnswer lifecycleAsk 0x0F02 cmdLifecycleSet = .accepted ∧ signedAnswer unlockAsk 0x0F03 cmdDebugUnlock = .accepted ∧
    signedAnswer ownerAsk 0x0F04 cmdOwnerKeyInstall = .ok ∧ signedAnswer managersAsk 0x0F05 cmdManagerListSet = .ok := by
  refine ⟨?_, ?_, ?_, ?_, ?_, ?_, ?_, ?_⟩ <;> unfold signedAnswer
  · unfold cmdFwUpdate
    rw [if_neg (by decide +kernel)]
    exact signedCmd_light hd hv (by decide +kernel) (by decide +kernel) (by decide +kernel)
  all_goals
    first | unfold cmdFwActivate | unfold cmdLifecycleSet | unfold cmdDebugUnlock | unfold cmdOwnerKeyInstall | unfold cmdManagerListSet
    exact signedCmd_light hd hv (by decide +kernel) (by decide +kernel) (by decide +kernel)

/-! ### What arrives from the fabric -/

/-- The joined module with a unit of fabric region 3 (versioned) and of fabric region 8 (not versioned), a request, a VERSION_OP and a REHOME of
its own in progress, and a message flow; port 2 is UP. -/
def woven : State :=
  { joined with mach := { joined.mach with
      fab := { joined.mach.fab with
        ports := joined.mach.fab.ports.set 2 { (joined.mach.fport 2) with state := .up, enabled := true, delayPs := 2000 }
        flows := [{ dest := 7, core := 0, held := true, msgs := [(false, [joined.mach.packetTo 7 0 0 0x1D 9 []])] }] }
      cores := [(0, { Core.init with movement := some 2 })]
      mvs := [(2, { Movement.init 1 [(65536, 1)] (0, 0, 0) host with state := .running, image := image2 })]
      fm := { joined.mach.fm with
        grants := [(1, 7, 0xFF, 2)]
        regions := [(3, { FabRegion.init { purpose := 0, partition := 1, localRegion := 2, registrar := 5, ch := 3, entries := [], answer := none } 1 1 0 0 with
            members := [5, 7], stripe := [(0, { home := 5, gen := 1, localUnit := 0, moving := false })] }),
          (8, { FabRegion.init { purpose := 0, partition := 1, localRegion := 4, registrar := 7, ch := 3, entries := [], answer := none } 1 1 0 0 with
            members := [5, 7], stripe := [(0, { home := 5, gen := 1, localUnit := 0, moving := false })], prepared := some (1, 0) })]
        requests := [{
          tag := 9, device := 7, kind := 0, address := 0, src := .host 0 1, context := 0, packet := (joined.mach.packetTo 7 0 3 0x10 9 []), sent := true, data := [], enable := [] }]
        vops := [(9, { op := 1, fregion := 3, device := 7, ch := 3, ctx := 65536, arg := 0 })]
        trees := [(6, {
          partition := 1, parent := 0xFFFF, children := [7], cores := 1, sub := 0, dtype := 3, elements := 4, timeoutMs := 100, rounds := [{ round := 1, got := [], rootOnly := false, sent := false }], dead := [] })] } } }

/-- A packet from device 7 with that operation, flow and payload, its tag 9. -/
def packetOf (op flow : Nat) (payload : List Byte) : Packet :=
  { dest := 5, src := 7, srcPart := 0, cls := 0, esc := false, poison := false, isLocal := false, ttl := 64, flow := flow, op := op, tag := 9, payload := payload }

/-- The module once it has taken that packet from port 2. -/
def takes (op flow : Nat) (payload : List Byte) : Option (Packet × Mod) :=
  (woven.mach.setFport 2 (fun f => { f with arrived := [packetOf op flow payload] })).take 2 (fun q => q.op = op)

def homed (op flow : Nat) (payload : List Byte) (panes : Nat) (write : Bool) : Bool :=
  match takes op flow payload with
  | none => false
  | some (q, m1) =>
    match m1.atHome q (q.index / panes) write with
    | (m2, some (r, sel, pane)) => !bit q.refFlags 1 && !(m2.accessLost r sel pane).1 && !m2.writesStopped && (Tbl.find m2.mem.regions r).isSome
    | _ => false

def absolute (op : Nat) (write : Bool) : Bool :=
  match takes op 0 (refBytes (5 * 2 ^ 50) 0xFFFFFFFF 0 0 0 2) with
  | none => false
  | some (q, m1) =>
    match m1.absHome q 2 write with
    | (m2, some (r, pane, _)) => bit q.refFlags 1 && !(m2.accessLost r .head pane).1 && !m2.writesStopped && (Tbl.find m2.mem.regions r).elim false (fun g => !g.versioning)
    | _ => false

theorem test_remoteAccesses_meet :
    (homed 0x10 3 (refBytes 5 0xFFFFFFFF 0 0 1 0) 1024 false && absolute 0x10 false && homed 0x12 3 (refBytes 5 0xFFFFFFFF 0 0 1 0) 32 false && absolute 0x12 false &&
      homed 0x11 8 (refBytes 5 0xFFFFFFFF 0 0 1 0) 1024 true && absolute 0x11 true && homed 0x13 8 (refBytes 5 0xFFFFFFFF 0 0 1 0) 32 true &&
      absolute 0x13 true) = true := by decide +kernel

/-- The answer to request 9, or to VERSION_OP 9, of device 7. -/
def answers (op : Nat) : Bool :=
  match takes op 3 [] with
  | none => false
  | some (p, m1) => (m1.requestOf p.tag).elim false (fun q => q.device == p.src && q.kind == 0 && q.src == .host 0 1) &&
      (Tbl.find m1.fm.vops p.tag).elim false (fun w => w.device == p.src)

theorem test_remoteAnswers_meet : ([0x14, 0x15, 0x16, 0x17, 0x1F, 0x03, 0x1A].all answers) = true := by decide +kernel

/-- A message of 4 bytes for core 0; a free slot; a part and a result of tree 6, round 9 and round 1. -/
def partBytes : List Byte := leBytes 4 6 ++ leBytes 4 4 ++ List.replicate 24 0

theorem test_messagesAndReductions_meet :
    ((match takes 0x1D 0 (leBytes 8 0 ++ leBytes 8 4 ++ List.replicate 16 1) with
      | some (p, m1) => (m1.core (p.flow % 4096)).movement.isSome && (m1.runOf (p.flow % 4096)).isSome && !m1.fm.refused.contains (p.flow % 4096, p.src, p.flow) &&
          decide (p.num 4 4 = 0) && decide (m1.unmatched (p.flow % 4096) < 16) && decide (((p.payload.drop 16).take (p.num 8 4)).length = p.num 8 4)
      | none => false) &&
    (match takes 0x04 0 [] with
      | some (p, m1) => (m1.fab.flows.find? (fun (f : MsgFlow) => f.dest = p.src && f.core = p.flow % 4096)).elim false (fun f => f.sentWith p.tag == [0])
      | none => false) &&
    (match takes 0x05 0 [] with
      | some (p, m1) => (m1.fab.flows.find? (fun (f : MsgFlow) => f.dest = p.src && f.core = p.flow % 4096)).isSome
      | none => false) &&
    (match takes 0x1B 0 partBytes with
      | some (p, m1) => (Tbl.find m1.fm.trees (p.num 0 4)).elim false (fun t => t.children.contains p.src && !t.dead.contains p.tag &&
          (m1.openRound (p.num 0 4) t p.tag).isSome)
      | none => false) &&
    (match takes 0x1C 0 partBytes with
      | some (p, m1) => (Tbl.find m1.fm.trees (p.num 0 4)).elim false (fun t => t.round p.tag == none)
      | none => false)) = true := by decide +kernel

/-- A result for round 9, which is open. -/
theorem test_reduceResult_meets :
    (match takes 0x1C 0 partBytes with
      | some (p, m0) =>
        let m1 := m0.setTree 6 (fun t => { t with rounds := t.rounds ++ [{ round := 9, got := [], rootOnly := false, sent := false }] })
        (Tbl.find m1.fm.trees (p.num 0 4)).elim false (fun t => (t.round p.tag).isSome &&
          (let m2 := (m1.each t.children (fun m d => m.sendPacket (m.packetTo d 2 p.flow 0x1C p.tag p.payload 0 p.poison))).addPart (p.num 0 4) p.tag
              131072 (p.elements t.width) p.poison
           (((Tbl.find m2.fm.trees (p.num 0 4)).bind (fun t => t.round p.tag)).bind (fun r => Tbl.find r.got 131072)).elim false (fun x =>
             decide (t.elements ≤ x.1.length))))
      | none => false) = true := by decide +kernel

/-- A VERSION_OP of that operation reaches this module, which has joined the region; at its registrar, with the local part there. -/
def vopMeets (op fr arg0 arg1 : Nat) (data : List Byte) (more : Packet → FabRegion → Region → Mod → Bool) : Bool :=
  match takes 0x19 fr (vopBytes 0xFFFFFFFF 0 7 1 op 0 arg0 arg1 data) with
  | none => false
  | some (q, m1) => decide (q.vop = op) &&
      (match Tbl.find m1.fm.regions q.fregion with
        | none => false
        | some f => (match Tbl.find m1.mem.regions f.localRegion with | none => false | some g => more q f g m1))

def atRegistrar (q : Packet) (f : FabRegion) (g : Region) (m : Mod) : Bool := f.registrar == m.fab.deviceId && g.versioning && (m.versionArg f.localRegion g q.arg0).isSome

theorem test_versionOperations_meet :
    (([0x01, 0x02, 0x03, 0x04, 0x05, 0x06, 0x07, 0x08, 0x10, 0x11, 0x12, 0x13].all (fun op => vopMeets op 3 0 0 [] atRegistrar)) &&
      vopMeets 0x05 3 0xFFFFFFFE 0 [] (fun _ f _ m => f.registrar == m.fab.deviceId) &&
      vopMeets 0x05 8 0 0 [] (fun q f _ m => f.registrar != m.fab.deviceId && f.registrar == q.src) &&
      vopMeets 0x06 8 0 0 [] (fun _ f _ m => f.registrar != m.fab.deviceId)) = true := by decide +kernel

theorem test_mapOperations_meet :
    ((match takes 0x18 3 [] with | some (q, m) => !Tbl.has m.fm.joins q.fregion | none => false) &&
      vopMeets 0x18 3 0 0 (leBytes 2 4 ++ (regionOf 2 1 (leBytes 8 5 ++ [1, 1, 0, 0, 0, 1, 0, 2, 1])).joinAttrs)
        (fun q f g m => f.registrar == m.fab.deviceId && (q.vopData.drop 2).take 5 == g.joinAttrs) &&
      vopMeets 0x19 3 0 0 [] (fun _ f _ m => f.registrar == m.fab.deviceId) && vopMeets 0x1A 3 0 0 [] (fun _ _ _ _ => true) &&
      vopMeets 0x1B 3 0 0 [] (fun q f _ m => f.registrar == m.fab.deviceId && !f.stripe.any (fun e => e.2.home = q.src)) &&
      vopMeets 0x1C 3 0 (1 + 2 ^ 32 * 7) [] (fun q f _ m => f.registrar == m.fab.deviceId && decide (q.arg1 % 2 ^ 32 ≠ 0) &&
        decide (q.arg0 + q.arg1 % 2 ^ 32 ≤ f.units) && f.members.contains (bits q.arg1 32 16) && m.fm.rehomes.isEmpty) &&
      vopMeets 0x1D 3 0 0 [] (fun q f _ m => m.boot.readiness != .draining && (m.freeLocalUnit f q.fregion).isSome) &&
      vopMeets 0x1E 3 0 7 [] (fun q f _ m => (Tbl.find f.stripe q.arg0).elim false (fun e =>
        (m.mem.recs.filter (fun x => x.2.region = f.localRegion && f.inUnit e.localUnit x.2.pane)).isEmpty))) = true := by decide +kernel

/-- The record of a poisoned pane arrives for a unit that this module receives; a unit with a pane is sent. -/
theorem test_rehomeRecords_meet :
    ((match takes 0x1E 3 (leBytes 4 0 ++ leBytes 8 0 ++ leBytes 4 0 ++ leBytes 4 8 ++ [0, 1, 0, 0, 0, 0, 0, 0]) with
      | some (q, m0) =>
        let x : UnitMove := { fregion := 3, unit := 0, peer := 7, sending := false, token := 0, registrar := 5, left := 0, localUnit := 1, parts := [] }
        let m := m0.setFm (fun e => { e with unitMoves := [x] })
        (m.fm.unitMoves.find? (fun x => x.fregion = q.fregion && x.unit = q.num 0 4 && !x.sending)).isSome && decide (q.num 12 4 = 0) &&
          decide (q.num 16 4 ≤ ((q.payload.drop 20).take (q.num 16 4)).length) &&
          (match Tbl.find m.fm.regions q.fregion, Tbl.find m.mem.regions 2 with
            | some f, some g => (m.placeRecord q.fregion f.localRegion (x.localUnit * f.span + q.num 4 8 % f.span) g
                (WireRec.read ((q.payload.drop 20).take (q.num 16 4)))).isSome
            | _, _ => false)
      | none => false) &&
      vopMeets 0x1E 3 0 7 [] (fun q f _ m0 =>
        let m := m0.setMem (fun e => { e with recs := [(0, PaneRec.fresh 2 0 1 0 false 0 0)] })
        (Tbl.find f.stripe q.arg0).elim false (fun e =>
          !(m.mem.recs.filter (fun x => x.2.region = f.localRegion && f.inUnit e.localUnit x.2.pane)).isEmpty))) = true := by decide +kernel

/-! ### What the host does -/

/-- The region with that pane of its version 0 on that record. -/
def onRec (g : Region) (pane record : Nat) : Region := { g with vers := Tbl.upd g.vers 0 (fun v => { v with map := Tbl.put v.map pane record }) }

/-- The host's memory: one committed decoder of LD 0 over HPA 0 to 3 GiB; pane 0 of region 1 is raw in T0 and pane 1 is in T1; a window on a view of
fabric region 3, homed at device 7, at extent 7; two DMA reads; a leak latched. -/
def mapped : State :=
  { work with mach := { work.mach with
      lds := [(0, { Ld.init with
        memoryActive := true, decoders := [{ HdmDecoder.init with size := 3 * 2 ^ 30, committed := true }, { HdmDecoder.init with base := 2 ^ 32, size := 2 ^ 28 }]
        reads := [{ tag := 1, key := 3, index := 0, offset := 0, left := 64 }] })]
      ctxs := [(0, { ctxOf .none (.view 0x8003 0) with window := some { ld := 0, extent := 7, count := 1, firstOrdinal := 0 } })]
      pow := { work.mach.pow with leakFlag := true }
      fm := { work.mach.fm with
        regions := [(3, { FabRegion.init { purpose := 0, partition := 1, localRegion := 2, registrar := 7, ch := 3, entries := [], answer := none } 1 1 0 0 with
          stripe := [(0, { home := 7, gen := 1, localUnit := 0, moving := false })] })] }
      mem := { work.mach.mem with
        regions := Tbl.upd work.mach.mem.regions 1 (fun g => onRec (onRec g 0 0) 1 1)
        recs := [(0, PaneRec.fresh 1 0 0 0 false 0 0), (1, { PaneRec.fresh 1 1 0 0 false 0 0 with tier := .t1 })] } } }

theorem test_hostRegisters_meet :
    (hostReaches mapped.mach 0 0 ∧ hostReaches mapped.mach 0 1) ∧
    (let m := mapped.mach.hostTraffic 0
     m.isManager host = true ∧ m.pow.leakFlag = true ∧ m.pow.leakClass ≠ 1 ∧
     (let x := (m.ld 0).decoders.getD 1 HdmDecoder.init
      x.committed = false ∧ (m.port 0).mode ≠ .pcie ∧ (m.ld 0).decoderOk 1 x ((m.ld 0).dpaEnd 1 + x.skip) = true) ∧
     f0Implemented 0x1210 = true ∧ f0Implemented 0x11000 = true ∧ alignedAccess 0x8 [0, 0, 0, 0, 0, 0, 0, 0] = true ∧
     (m.register mapped.fuses 0 .f1bar0 8).isSome = true ∧ (m.register mapped.fuses 0 .f1bar4 0).isSome = true ∧
     mapped.mach.presented 0 = true ∧ (mapped.mach.ld 0).f0.reset = 0 ∧ (mapped.mach.ld 0).f1.reset = 0 ∧
     (List.range 2).all (fun i => cfgRw 0 (4 + i) = 0 && cfgW1c (4 + i) = 0 && cfgStart 0 (4 + i) = 0) = false) :=
  ⟨⟨by show _ ∧ _; decide +kernel, by show _ ∧ _; decide +kernel⟩, by decide +kernel⟩

/-- What is read of the functions: the identities and class codes of R626, and the register of R631 below the INTX_ registers. -/
theorem test_configReads :
    let byte := fun fn off => mapped.mach.configRead mapped.fuses 0 fn off
    (byte 0 2, byte 0 3, byte 1 2, byte 1 3) = (0x20, 0x84, 0x21, 0x84) ∧ (byte 0 9, byte 0 10, byte 0 11) = (0x10, 0x02, 0x05) ∧
    byte 1 11 = 0x08 ∧ byte 0 14 = 0x80 ∧ mapped.mach.f0Read 0 0x11000 = 12 := by decide +kernel

/-- What a host access to an address reaches. -/
def reached (m : Mod) (hpa : Nat) : Option (Nat × VerSel × Nat × Option Nat) := (m.decodeHpa 0 hpa).bind (m.reachOf 0)

theorem test_hostTraffic_meets :
    let m := mapped.mach.hostTraffic 0
    (mapped.mach.cxlUp 0 = true ∧ reached m 0x40 = some (1, .head, 0, none) ∧ (m.accessLost 1 .head 0).1 = false ∧
      reached m (7 * 2 ^ 28) = some (0x8003, .sealed 0, 0, some 0) ∧ (m.accessLost 0x8003 (.sealed 0) 0).1 = false ∧
      (let m2 := (m.choose 2).2
       reached m2 0x10000 = some (1, .head, 1, none) ∧ (m2.recAt 1 .head 1).elim false (fun x => x.1 == 1 && x.2.tier == .t1 && x.2.form != .zero) = true ∧
       (Tbl.find m2.mem.regions 1).elim false (fun g => m2.residency g == .float) = true)) := by decide +kernel

theorem test_hostWrites_meet :
    let m := (mapped.mach.hostTraffic 0).count 0x0009 0x6000 0 (mapped.mach.ldPart 0) 64
    (reached m 0x40 = some (1, .head, 0, none) ∧ (Tbl.find m.mem.lds 0).elim false (fun b => b.lease != .cleanup) = true ∧ m.writesStopped = false ∧
      (Tbl.find m.mem.regions 1).elim false (fun g => !g.versioning) = true) := by decide +kernel

/-- The window stands on a working version of the fabric region, for the write. -/
theorem test_hostFabricWrite_meets :
    let s := { mapped with mach := { mapped.mach with ctxs := [(0, { ctxOf .none (.working 0x8003 0 []) with
      window := some { ld := 0, extent := 7, count := 1, firstOrdinal := 0 } })] } }
    let m := (s.mach.hostTraffic 0).count 0x0009 0x6000 0 (s.mach.ldPart 0) 64
    reached m (7 * 2 ^ 28) = some (0x8003, .working 0, 0, some 0) := by decide +kernel

theorem test_dmaReads_meet :
    mapped.mach.presented 0 = true ∧ ((mapped.mach.ld 0).reads.find? (fun r => r.tag = 1)).elim false (fun r => decide (r.left ≤ 64)) = true := by decide +kernel

theorem test_hostPorts_meet :
    mapped.mach.presented 0 = true ∧ (mapped.mach.port 0).mode ≠ .pcie ∧ (mapped.mach.port 0).mode ≠ .down ∧ mapped.mach.pow.phase = .on ∧
    (mapped.mach.setPow (fun p => { p with phase := .off })).pow.phase ≠ .on ∧
    (((mapped.mach.resetF0 0 1).ld 0).func 0).reset = 1 ∧ 2 ≤ (((mapped.mach.resetF0 0 2).ld 0).func 0).reset ∧
    ((mapped.mach.setPort 0 (fun p => { p with ideSecure := true })).port 0).ideSecure = true ∧
    (mapped.mach.pow.modReset = false ∧ 3 ≤ mapped.mach.boot.step ∧ (mapped.mach.port 0).perst = false ∧ trainsTo 16 64 = true) ∧
    (let m := (mapped.mach.setLd 0 (fun d => { d with f0 := { d.f0 with cfg := Mem.wrLE d.f0.cfg 0x58 1 2 } })).setPow (fun p => { p with rung := 2 })
     m.aspmL1 0 = true ∧ 2 ≤ m.pow.rung ∧ (m.port 0).inL1 = false ∧ (m.aspmL12 0 && decide (3 ≤ m.pow.rung)) = false) := by decide +kernel

/-- A write to line 1 of pane 0, which stands in a raw frame of T0. -/
def lineWrite : HeldWrite :=
  { src := .host 0 1, region := 1, sel := .head, pane := 0, offset := 0x40, bytes := List.replicate 64 7, enable := [], poisoned := false, wait := .frame }

theorem test_hostLine_meets :
    let m := (mapped.mach.hostTraffic 0).count 0x0009 0x6000 0 (mapped.mach.ldPart 0) 64
    let m2 := (m.countWrite lineWrite).noteStaging lineWrite
    (reached m 0x40 = some (1, .head, 0, none) ∧ m.writeWaits lineWrite = none ∧ m.heldBack lineWrite = false ∧ m.mem.heldWrites.find? (fun h => h.samePane lineWrite) = none ∧
      (m2.recAt 1 .head 0).elim false (fun r => r.1 == 0 && !m2.sharedFor .head r.1 r.2 && !r.2.sealEncode && r.2.state == .stable && r.2.tier == .t0 && r.2.form == .raw) = true ∧
      m2.mem.heldWrites = m.mem.heldWrites ∧ Tbl.find m2.mem.regions 1 = Tbl.find m.mem.regions 1 ∧
      (Tbl.find m.mem.regions 1).elim false (fun g => g.extentAt 0 == some 0) = true ∧ m2.t0.offline = []) := by decide +kernel

/-! ### Power, bring-up and the tiers -/

/-- A state with other power registers, and with other bring-up registers. -/
def powered (f : Power → Power) : State := { work with mach := work.mach.setPow f }
def booted (f : Boot → Boot) : State := { work with mach := work.mach.setBoot f }

theorem test_powerAndPins_meet :
    work.mach.pow.sbVrefLow = false ∧ (powered (fun p => { p with sbVrefLow := true })).mach.pow.sbVrefLow = true ∧ work.mach.pow.phase = .on ∧
    (powered (fun p => { p with phase := .off })).mach.pow.phase ≠ .on ∧ work.mach.pow.inputLow = false ∧ work.mach.pow.phase ≠ .unmated ∧
    work.mach.pow.inputHighHour ≠ some (work.mach.localTime / 3600000000000) ∧
    (let p := (powered (fun p => { p with phase := .tripped, pwrEn := false })).mach.pow; p.phase = .tripped ∧ p.pwrEn = false) ∧
    (let p := (powered (fun p => { p with overFloorUs := 1000 })).mach.pow; 1000 ≤ p.overFloorUs ∧ p.capFail = false) := by decide +kernel

/-- Nothing blocks the rungs below; a preparation; a channel whose command wakes the module; a host port in L1. -/
def restful (rung : Nat) (preparing : Bool) : Mod :=
  (work.mach.setPow (fun p => { p with rung := rung, resting := 4, preparing := preparing })).setMem (fun e => { e with extents := [], regions := [] })

theorem test_rungs_meet :
    ((restful 0 false).mayDescend = true ∧ (restful 0 false).pow.preparing = false ∧
      (List.range (min ((restful 0 false).pow.rung + 1) 2)).any (fun i => (restful 0 false).blockersAt (i + 1) != []) = false) ∧
    ((restful 2 false).mayDescend = true ∧
      (List.range (min ((restful 2 false).pow.rung + 1) 2)).any (fun i => (restful 2 false).blockersAt (i + 1) != []) = false) ∧
    ((restful 2 true).mayDescend = true ∧ (restful 2 true).pow.preparing = true ∧
      (List.range ((restful 2 true).pow.rung + 1)).any (fun i => (restful 2 true).blockersAt (i + 1) != []) = false) ∧
    (let m := (ask work host 0x0301 1 []).mach
     m.pow.phase = .on ∧ m.pow.modReset = false ∧
     m.gaffer.order.any (fun ch => ((Tbl.find m.chans ch).bind (fun c => c.inflight)).elim false (fun f => slotOpcode f.slot / 256 = 3)) = true) := by decide +kernel

/-- A search among four ports that have one in L1 finds it, whichever port it begins with. -/
theorem test_hostLinkWake_meets :
    let m := work.mach.setPort 1 (fun p => { p with inL1 := true })
    (m.chooseFrom 4 (fun h => (m.port h).inL1)).1 = some 1 := by
  intro m
  have hp : ∀ h, (m.port h).inL1 = true ↔ h = 1 := by
    intro h
    rcases Nat.lt_or_ge h 4 with h4 | h4
    · rcases (show h = 0 ∨ h = 1 ∨ h = 2 ∨ h = 3 by omega) with rfl | rfl | rfl | rfl <;> decide +kernel
    · obtain ⟨k, rfl⟩ := Nat.exists_eq_add_of_le' h4
      simp [show (m.port (k + 4)).inL1 = false from rfl]
  have h : (m.choose 4).1 < 4 := by unfold Mod.choose; simp only; split <;> omega
  show probe 4 (fun h => (m.port h).inL1) (m.choose 4).1 4 = some 1
  generalize (m.choose 4).1 = i at h ⊢
  rcases (show i = 0 ∨ i = 1 ∨ i = 2 ∨ i = 3 by omega) with rfl | rfl | rfl | rfl <;> simp [probe, hp]

theorem test_bringUpAndResets_meet :
    (let m := (booted (fun b => { b with step := 2 })).mach; m.pow.phase = .on ∧ m.pow.modReset = false ∧ m.boot.step = 2) ∧
    (let m := (booted (fun b => { b with step := 3, readiness := .booting, journalDone := false })).mach
     m.boot.step = 3 ∧ m.boot.recovery = false ∧ m.boot.lifecycle ≠ 5 ∧ m.boot.journalDone = false ∧ m.boot.readiness = .booting) ∧
    (let m := (booted (fun b => { b with step := 3, readiness := .booting })).mach
     m.boot.readiness = .booting ∧ m.boot.step = 3 ∧ m.boot.sweepDone = true ∧ m.boot.journalDone = true ∧
     m.t1.any (fun p => p.state = .training) = false ∧
     (let m1 := m.setMem (fun e => { e with mapInT0 := m.mapPorts == [] })
      (m1.reserveMap.getD m1).t2.saved.failed = false)) ∧
    3 ≤ work.mach.boot.step ∧ (booted (fun b => { b with lifecyclePending := some 1 })).mach.boot.lifecyclePending ≠ none ∧
    privilegedCode 0x9000 = some 0x0901 ∧ (booted (fun b => { b with readiness := .draining })).mach.boot.readiness = .draining ∧
    (work.mach.t2.inService = true ∧ work.mach.t2.writeBuf = [] ∧ work.mach.boot.readiness ≠ .booting) := by decide +kernel

/-- Tiers: a record in each tier, a T1 port in each state, a write buffered for T2. -/
def tiered : Mod :=
  { work.mach with
    t0 := { work.mach.t0 with sweeping := true }
    t1 := (((work.mach.t1.set 1 { T1Port.init with state := .training }).set 2 { T1Port.init with state := .retraining }).set 3 { T1Port.init with poisonPass := true })
    t2 := { work.mach.t2 with writeBuf := [{ record := 2, place := { tier := .t2, loc := 0, sectors := 256, die := 3 }, master := 0 }], lostDies := [4] }
    mem := { work.mach.mem with recs := [(0, PaneRec.fresh 1 0 0 0 false 0 0), (1, { PaneRec.fresh 1 1 0 0 false 0 0 with tier := .t1 }),
      (2, { PaneRec.fresh 1 2 0 0 false 0 0 with tier := .t2 })] } }

theorem test_tierZero_meets :
    (tiered.pow.rung < 2 ∧ tiered.t0.channels.contains 5 = true ∧ tiered.t0.offline.contains 5 = false) ∧
    (Tbl.find tiered.mem.recs 0).elim false (fun x => x.tier == .t0 && x.form != .zero && decide (5 < x.sectors * 4)) = true ∧
    (tiered.t0.sweeping = true ∧ tiered.pow.phase = .on ∧ 3 ≤ tiered.boot.step ∧ tiered.boot.recovery = false ∧ tiered.boot.lifecycle ≠ 5) := by decide +kernel

theorem test_tierOne_meets :
    (tiered.t1.getD 1 T1Port.init).state = .training ∧ (tiered.t1.getD 0 T1Port.init).state = .inService ∧ (tiered.t1.getD 2 T1Port.init).state = .retraining ∧
    (tiered.setBoot (fun b => { b with readiness := .booting })).boot.readiness = .booting ∧ tiered.boot.readiness ≠ .booting ∧
    (Tbl.find tiered.mem.recs 1).elim false (fun x => x.tier == .t1 && x.form != .zero && x.state != .poisoned && x.dest.isNone) = true := by decide +kernel

theorem test_tierTwo_meets :
    (tiered.t2.inService = true ∧ 0 % 16 * 32 + 3 < tiered.t2Dies ∧ tiered.t2.lostDies.contains 3 = false ∧ tiered.t2.lostChannels.contains 3 = false) ∧
    (tiered.dieOk 4 = false ∧ tiered.dieOk 3 = true ∧ (tiered.t1.getD 3 T1Port.init).poisonPass = true) ∧
    (tiered.t2.writeBuf.find? (fun w => w.record = 2)).isSome = true ∧
    (Tbl.find tiered.mem.recs 2).elim false (fun x => x.tier == .t2 && x.form != .zero && x.state != .poisoned && !tiered.homeLost x) = true ∧
    (let m : Mod := { tiered with t2 := { tiered.t2 with wearSpent := tiered.driveWrite + 1 } }; (1 ≠ m.t2.wearState ∧ 1 = m.wearCalls) ∧
      { m with t2 := { m.t2 with wearSpent := 2 * m.driveWrite } }.wearCalls = 2) := by decide +kernel

/-! ### Panes and versions -/

/-- Panes on the move: 0 to T0 and 1 from T0 (with a parked slot), 2 from T1 to T2, 3 raw in T0 with an old location and an unpack, 6 in its repack, a copy, a held write, a
seal encode, a table and an extent in the cullet. -/
def moving : Mod :=
  let x := PaneRec.fresh 1 0 0 0 false 0 0
  let p : Parked := { place := { tier := .t2, loc := 0, sectors := 256, die := 0 }, form := .raw, gen := 0, img := [], age := 0 }
  { work.mach with
    ctxs := [(5, ctxOf (.checkpoint 2 0 0) .none)]
    mem := { work.mach.mem with
      recs := [(0, { x with tier := .t1, state := .movingUp, dest := some { tier := .t0, loc := 0, sectors := 256 } }),
        (1, { x with pane := 1, state := .movingDown, dest := some { tier := .t2, loc := 0, sectors := 256 }, parked := some p }),
        (2, { x with pane := 2, tier := .t1, state := .movingDown, dest := some { tier := .t2, loc := 512, sectors := 256 } }),
        (3, { x with pane := 3, loc := 1024, old := some p, unpacking := some { tier := .t0, loc := 2048, sectors := 256 } }),
        (4, { x with region := 2, sealEncode := true }),
        (5, { x with pane := 5, loc := 4096 }),
        (6, { x with pane := 6, loc := 5120, state := .movingDown, dest := some { tier := .t0, loc := 6144, sectors := 256 } })]
      regions := Tbl.upd (Tbl.upd work.mach.mem.regions 1 (fun g => { g with packed := true, residency := .pinT0 })) 2 (fun g => { g with
        tables := { g.tables with sampled := 64, gens := [(3, { slot := 1, image := [] })] }, persisting := [0], vers := g.vers ++ [(7, { map := [], checkpoint := false, orphan := false, durableDone := false, published := false })] })
      cows := [{ region := 2, sel := .head, pane := 0, source := 3, dest := { tier := .t0, loc := 8192, sectors := 256 }, elastic := false }]
      heldWrites := [{ src := .host 0 1, region := 1, sel := .head, pane := 0, offset := 0, bytes := [], enable := [], poisoned := false, wait := .space }]
      extents := work.mach.mem.extents ++ [(6, { pendingLds := [], heldLds := [], region := none, kept := none, serial := 9, inCullet := true, tag := 0 }),
        (7, { pendingLds := [], heldLds := [0], region := none, kept := none, serial := 10, inCullet := true, tag := 0 })] } }

def recIs (k : Nat) (p : PaneRec → Bool) : Bool := (Tbl.find moving.mem.recs k).elim false p

theorem test_paneMoves_meet :
    (recIs 0 (fun x => x.dest.isSome && x.state == .movingUp && !moving.linkWaits x && !moving.homeLost x && x.dest.elim false (fun d => !moving.placeWaits d &&
        !moving.moveHeld x d (x.mover.getD (moving.moveMaster x.region))) && !badRead (x.checkHome .good)) &&
      moving.svc.heals.isEmpty &&
      recIs 1 (fun x => x.state == .movingDown && x.tier == .t0 && x.parked.isSome && x.dest.elim false (fun d => d.tier != .t0 && !moving.placeWaits d && !moving.moveHeld x d (moving.moverOf x d) &&
        x.parked.elim false (fun p => p.place == d)) && !moving.linkWaits x) &&
      recIs 2 (fun x => x.state == .movingDown && x.parked.isNone && !moving.linkWaits x && !badRead (x.checkHome .good) &&
        x.dest.elim false (fun d => !moving.placeWaits d && !moving.moveHeld x d (moving.moverOf x d))) &&
      recIs 3 (fun x => x.old.elim false (fun p => p.place.tier == .t2 && decide (moving.t2.journalPending = 0)) && x.unpacking.isSome) &&
      recIs 5 (fun x => !x.repacking && moving.repackOk x && (Tbl.find moving.mem.regions x.region).isSome) &&
      recIs 6 (fun x => x.repacking && x.parked.isNone && !moving.linkWaits x && !badRead (x.checkHome .good) &&
        x.dest.elim false (fun d => !moving.placeWaits d && !moving.moveHeld x d (moving.moverOf x d))) &&
      (moving.mem.cows[0]?).elim false (fun j => (Tbl.find moving.mem.recs j.source).isSome) &&
      (moving.mem.heldWrites[0]?).elim false (fun w => w.wait == .space && (Tbl.find moving.mem.regions w.region).isSome)) = true := by decide +kernel

/-- A region that is PIN_LOW, with a pane below its threshold; the run of the victim selector, with T1 nearly full and without. -/
theorem test_residencyEvents_meet :
    (let m := moving.setRegion 1 (fun g => { g with residency := .pinLow, evictBelow := 1 })
     (Tbl.find m.mem.regions 1).elim false (fun g => m.residency g == .pinLow && recIs 0 (fun x => decide (x.counter ≤ g.evictBelow))) = true) ∧
    (let m := bare.mach.selectVictims (decide (bare.mach.t0Free * 100 < bare.mach.t0Pool)) (bare.mach.mem.recs.length + 1)
     m.t1Total ≤ m.t1Free * 50) ∧
    (let s := bare.mach.setMem (fun e => { e with recs := [(0, { PaneRec.fresh 1 0 0 0 false 0 0 with tier := .t1, sectors := bare.mach.t1Total })] })
     let m := s.selectVictims (decide (s.t0Free * 100 < s.t0Pool)) (s.mem.recs.length + 1)
     m.t1Usable = true ∧ m.t1Free * 50 < m.t1Total ∧ m.t2Usable = true) := by decide +kernel

theorem test_versionEvents_meet :
    ((Tbl.find moving.mem.regions 2).elim false (fun g => g.form == .lehr && g.tables.current.isNone && decide (64 ≤ g.tables.sampled) &&
        (Tbl.find g.tables.gens 3).isSome && g.persisting.contains 0 && (Tbl.find g.vers 7).elim false (fun v => !moving.retained 2 g 7 v)) &&
      moving.freeSlot.1.isSome && decide (moving.genImages 2 3 true = 0) && !moving.movementHolds 2 && !moving.genInFlight 2 && !moving.genLatched 2 3 && recIs 4 (fun x => x.sealEncode && x.state != .movingDown) &&
      (Tbl.find moving.ctxs 5).elim false (fun c => c.work == .checkpoint 2 0 0) && (moving.recsOf 2 0).isEmpty && moving.t2Usable && !(moving.needsFaulted []).1) = true := by decide +kernel

theorem test_extentsAndLeases_meet :
    (Tbl.find moving.mem.extents 6).elim false (fun x => x.inCullet && x.heldLds.isEmpty && x.pendingLds.isEmpty) = true ∧
    (Tbl.find moving.mem.extents 7).elim false (fun x => x.inCullet && !x.heldLds.isEmpty) = true ∧
    (Tbl.find moving.mem.lds 0).elim false (fun b => b.lease == .live) = true ∧
    (Tbl.find (moving.setMem (fun e => { e with lds := Tbl.upd e.lds 0 (fun b => { b with lease := .grace }) })).mem.lds 0).elim false
      (fun b => b.lease == .grace) = true := by decide +kernel

/-! ### Movements and streams -/

/-- A whole image of one beat on core 0 that passes every load check: one binding, one barrier. -/
def wholeImage : Mem :=
  [(0, 0x4E), (1, 0x4F), (2, 0x52), (3, 0x46), (5, 1), (8, 0x40), (9, 0x03), (0xC, 1), (0xE, 1), (0x10, 1), (0x12, 1), (0x14, 0x40), (0x18, 0x40), (0x19, 0x02),
    (0x1C, 0x80), (0x1D, 0x02), (0x20, 0xC0), (0x21, 0x02), (0x40, 1), (0x245, 0x03), (0x248, 1), (0x284, 0xFF), (0x285, 0xFF), (0x2C0, 0xFF), (0x2C1, 0xFF), (0x2C2, 1),
    (0x2C3, 0xFF), (0x2C4, 0xFF), (0x300, 4), (0x301, 0xFF)]

/-- That image has arrived for a movement that loads. -/
def loadable : Mod :=
  { narrow.mach with
    ctxs := [(2, ctxOf (.load 2) (.movement 2))]
    mvs := [(2, Movement.init 1 [(65536, 1)] (0, 832, 0) host)]
    bufs := [{ key := 4098, index := 0, descAt := 0x10, ld := some 0, address := 0, length := 832, asked := 832, arrived := 832, got := wholeImage }] }

theorem test_load_meets :
    (Tbl.find loadable.mvs 2).elim false (fun v => v.state == .loading &&
      (match loadable.readBuffer 4098 0 0x10 v.owner v.partition v.buffer.1 v.buffer.2.1 v.buffer.2.2 with
        | (m, .ready bs) => (imageFault (Mem.pack 0 bs) bs.length (m.fab.deviceId != 0xFFFF)).isNone && (m.check8 v (Mem.pack 0 bs)).isNone &&
            (m.check9 v (Mem.pack 0 bs)).isNone && (m.fencedIn (Mem.pack 0 bs)).isNone && m.areaFits v &&
            (Tbl.find (m.takeArea 2).mvs 2).elim false (fun x => x.imageAt.isSome)
        | _ => false)) = true := by decide +kernel

/-- A run of an image of two beats (of which only the core set and the number of beats are written) on core 0 at its first barrier, with a tile fetch and a tile store of the core in progress. -/
def running (f : Movement → Movement) (k : Core → Core) : Mod :=
  { joined.mach with
    ctxs := [(2, ctxOf .none (.movement 2))]
    mvs := [(2, f { Movement.init 1 [(65536, 1)] (0, 0, 0) host with state := .running, image := [(0xE, 2), (0x14, 0x40), (0x40, 1)], timeLimitMs := 5 })]
    cores := [(0, k { Core.init with movement := some 2, pc := 1, atBarrier := true })] }

def fetchOf (region : Nat) : FetchReq := { ticket := 4, binding := 0, region := region, sel := .head, pane := 0, tile := 0, dest := 0, asked := false, op := 0x10 }
def storeOf : StoreReq :=
  { ticket := 4, binding := 0, region := 1, sel := .head, pane := 0, offset := 0, bytes := [], poisoned := false, image := none, waiting := false, op := 0x11 }

theorem test_coreAccesses_meet :
    (let m := running id (fun k => { k with stores := [storeOf] })
     ((m.core 0).stores.find? (fun x => x.ticket = 4)).elim false (fun st => !st.waiting && !(m.core 0).stores.any (fun x => decide (x.ticket < 4))) = true) ∧
    (let m := running id (fun k => { k with fetches := [fetchOf 1] })
     (((m.core 0).fetches.take 32).find? (fun f => f.ticket = 4)).elim false (fun f => !f.asked && decide (f.region < 0x8000) && (m.core 0).stores.isEmpty) = true) ∧
    (let m := (running id (fun k => { k with fetches := [fetchOf 0x8003] })).setFm (fun e => { e with regions := Tbl.upd e.regions 3 (fun f => { f with
       stripe := [(0, { home := 7, gen := 1, localUnit := 0, moving := false })] }) })
     (((m.core 0).fetches.take 32).find? (fun f => f.ticket = 4)).elim false (fun f => (Tbl.find m.fm.regions (f.region - 0x8000)).elim false (fun g =>
       (g.entry f.pane).elim false (fun e => e.home != m.fab.deviceId))) = true) ∧
    (let m := (running id (fun k => { k with fetches := [fetchOf 0x8003] })).setFm (fun e => { e with regions := Tbl.upd e.regions 3 (fun f => { f with
       stripe := [(0, { home := 5, gen := 1, localUnit := 0, moving := false })] }) })
     (Tbl.find m.fm.regions 3).elim false (fun g => (g.entry 0).elim false (fun e => e.home == m.fab.deviceId && !g.accessor)) = true) ∧
    (let m := running id (fun k => { k with fault := some (.aborted, 2, none) })
     (m.runOf 0).elim false (fun v => (m.core 0).fault.elim false (fun f => f.2.1 == 2) && (m.faultOf v.2).isSome) = true) := by decide +kernel

def captureOf : Capture := { ctxSlot := 5, movement := 2, tensor := 0, step := 0, raw := true, dest := 0, destLen := 65536, holding := true }

theorem test_runs_meet :
    (let m := running id id
     (Tbl.find m.mvs 2).elim false (fun v => v.state == .running && decide (v.timeLimitMs ≠ 0) && !v.longBeatRaised && decide (v.stopMode ≠ 2) && m.barrierMet v &&
       (m.captureDue 2 v).isNone && decide (v.beat + 1 ≠ imgBeats v.image) && decide (v.stopMode ≠ 1)) = true) ∧
    (let m := running (fun v => { v with beat := 1 }) id
     (Tbl.find m.mvs 2).elim false (fun v => decide (v.beat + 1 = imgBeats v.image) && m.barrierMet v && (m.captureDue 2 v).isNone) = true) ∧
    (let m := running (fun v => { v with stopMode := 1, state := .stopping }) id
     (Tbl.find m.mvs 2).elim false (fun v => decide (v.stopMode = 1) && v.state == .stopping && m.barrierMet v) = true) ∧
    (let m := (running id id).setHang (fun h => { h with captures := [captureOf] })
     (Tbl.find m.mvs 2).elim false (fun v => m.barrierMet v && (m.captureDue 2 v).isSome) = true) ∧
    (let m := running (fun v => { v with stopMode := 2, state := .stopping, ending := some (.aborted, 6, none) }) id
     (Tbl.find m.mvs 2).elim false (fun v => v.ending.isSome && v.state == .stopping && decide (v.stopMode = 2)) = true) := by decide +kernel

/-- Streams of 16 loops of 4 tiles: open with a tile fetched, past its cutoff, stopping at its next tile, at its end; and an ingest stream. -/
def streamed (paced : Bool) (f : Stream → Stream) : Mod :=
  { work.mach with
    ctxs := [(3, ctxOf .none (.stream 3))]
    streams := [(3, f (Stream.init paced (reqFor 1 (leBytes 4 0 ++ leBytes 4 1 ++ leBytes 8 5 ++ leBytes 4 1 ++ leBytes 4 4 ++ leBytes 4 16)) 3 1 .head))]
    mem := { work.mach.mem with recs := [(7, PaneRec.fresh 1 0 0 512 false 0 0)] } }

def streamIs (m : Mod) (p : Stream → Bool) : Bool := (Tbl.find m.streams 3).elim false p

theorem test_streams_meet :
    (let m := streamed true (fun t => { t with fetched := [(0, 1, [1])] })
     streamIs m (fun t => t.paced && t.state == .open && !t.bound.elim false (fun b => decide (b ≤ t.nextFetch)) && t.tileIndex t.nextFetch == (6 : Int) &&
       decide (t.region < 0x8000) && !m.overMax 5 (m.holderOf 3 / 16) (m.holderOf 3) none && (t.fetched.find? (fun f => f.1 = t.next)).elim false (fun f => f.2.1 == 1) &&
       !t.bound.elim false (fun b => decide (b ≤ t.cutoffs)) && decide (t.next ≤ t.cutoffs)) = true) ∧
    streamIs (streamed true (fun t => { t with next := 1 })) (fun t => decide (t.cutoffs < t.next)) = true ∧
    streamIs (streamed true (fun t => { t with state := .stopping, stopAt := some 3, next := 3 })) (fun t => t.state == .stopping && t.stopAt == some t.next) = true ∧
    streamIs (streamed true (fun t => { t with next := 64 })) (fun t => t.state == .open && t.total == some t.next) = true ∧
    (let m := streamed false (fun t => { t with frames := [512] })
     streamIs m (fun t => ((m.stagedIn t).find? (fun x => x.1 = 7)).isSome) = true) ∧
    (let m := streamed false (fun t => { t with state := .stopping })
     streamIs m (fun t => m.stagedIn t == [] && !t.paced && t.state == .stopping) = true) := by decide +kernel

/-! ### Fabric links, timers and service -/

/-- Fabric port 2 of the joined module. -/
def ported (f : FabPort → FabPort) : Mod := joined.mach.setFport 2 (fun p => f { p with state := .up, enabled := true })

/-- A flit with those first 8 bytes and a good CRC. -/
def flitOf (h : Nat) : List Byte :=
  let b := leBytes 8 h ++ List.replicate 244 0
  b ++ leBytes 4 (crc32c 0 b)

theorem test_links_meet :
    ((ported (fun f => { f with state := .training })).fport 2).state = .training ∧
    (let f := (ported (fun f => { f with state := .training, retrain := some .up })).fport 2; f.retrain = some .up ∧ f.rehello = false ∧ f.retryPending = false) ∧
    (let f := (ported (fun f => { f with state := .training, retrain := some .limited, rehello := true })).fport 2; f.retrain = some .limited ∧ f.rehello = true) ∧
    ((ported id).fport 2).linked = true ∧ ((ported id).fport 2).carries = true ∧
    (flitGood (flitOf 0) = true ∧ bits (leNat ((flitOf 0).take 8)) 36 4 = 0 ∧ bits (leNat ((flitOf 0).take 8)) 52 12 = ((ported id).fport 2).expected ∧
      bits (leNat ((flitOf (3 * 2 ^ 36)).take 8)) 36 4 = 3 ∧ (((ported id).fport 2).unseal (flitOf 0)).isSome = true) ∧
    ((ported (fun f => { f with retrain := some .up })).fport 2).retrain.isSome = true ∧
    (let f := (ported (fun f => { f with encrypted := true })).fport 2; f.carries = true ∧ f.encrypted = true) ∧
    (let f := (ported (fun f => { f with egress := [joined.mach.packetTo 7 0 3 0x10 9 []] })).fport 2
     f.state = .up ∧ ((List.range 8).find? (fun v => (f.egress.find? (fun p => p.vc = v)).elim false (fun p => decide (f.credits.getD v 0 < p.credits)))).isSome = true) := by
  decide +kernel

/-- An encrypted port and a flit of the expected SEQ with a good CRC whose ENC is clear. -/
theorem test_encrypted_meets :
    (let f := (ported (fun f => { f with encrypted := true })).fport 2
     f.linked = true ∧ f.encrypted = true ∧ flitGood (flitOf 0) = true ∧ bits (leNat ((flitOf 0).take 8)) 52 12 = f.expected ∧
     bit (leNat ((flitOf 0).take 8)) 14 = false) := by decide +kernel

/-- A RETRY_REQ for SEQ 3: the first, and the eighth. -/
def retries (got : Nat) : Nat :=
  let m := (ported (fun f => { f with gotRetry := (3, got) })).ackNoted 2 ((3 + 4095) % 4096) 0 0
  if (m.fport 2).gotRetry.1 = 3 then (m.fport 2).gotRetry.2 + 1 else 1

theorem test_retries_meet : flitGood (flitOf (3 * 2 ^ 40)) = true ∧ bits (leNat ((flitOf (3 * 2 ^ 40)).take 8)) 40 12 = 3 ∧ retries 0 < 8 ∧ 8 ≤ retries 7 := by
  decide +kernel

/-- A packet that another module sends through this one or to it. -/
def passing (dest op cls : Nat) (isLocal : Bool) (ttl : Nat) (payload : List Byte) : Mod :=
  ported (fun f => { f with arrived := [{
    dest := dest, src := 7, srcPart := 0, cls := cls, esc := false, poison := false, isLocal := isLocal, ttl := ttl, flow := 0,
    op := op, tag := 9, payload := payload }] })

theorem test_forwarding_meets :
    (((passing 9 0x10 0 false 64 []).fport 2).arrived.find? (fun q => !q.isLocal && q.dest != joined.mach.fab.deviceId)).elim false (fun p => decide (1 < p.ttl)) = true ∧
    (((passing 9 0x10 0 false 1 []).fport 2).arrived.find? (fun q => !q.isLocal && q.dest != joined.mach.fab.deviceId)).elim false (fun p => decide (p.ttl ≤ 1)) = true ∧
    joined.mach.fab.deviceId ≠ 0xFFFF ∧ ((passing 9 0x10 0 false 64 []).setFab (fun f => { f with deviceId := 0xFFFF })).fab.deviceId = 0xFFFF ∧
    (((passing 9 0x10 0 false 64 []).setFab (fun f => { f with deviceId := 0xFFFF })).fport 2).arrived.any (fun q => !q.isLocal && q.dest != 0xFFFF) = true := by
  decide +kernel

theorem test_presence_meets :
    joined.mach.pow.rung < 3 ∧ 3 ≤ (joined.mach.setPow (fun p => { p with rung := 3 })).pow.rung ∧
    (let m := (ported (fun f => { f with state := .down })).setPow (fun p => { p with fPrsnt := p.fPrsnt.set 2 true, cableFault := p.cableFault.set 0 false })
     (m.syncPorts.fport 2).state = .down ∧ m.syncPorts.canTrain 2 = true) ∧
    (List.range 4).any (fun k => (joined.mach.setPow (fun p => { p with fPrsnt := p.fPrsnt.set 2 true })).syncPorts.pow.vcblOut.getD k false) = true := by decide +kernel

theorem test_fabricTime_meets :
    ((passing 5 2 3 true 1 (leBytes 2 1 ++ leBytes 6 0 ++ leBytes 8 1000)).take 2 (fun q => q.op = 2 && q.isLocal && q.cls = 3)).elim false
      (fun x => waveNewer (x.1.num 0 2) joined.mach.fab.lastWave) = true ∧
    ((passing 5 6 3 true 1 (leBytes 2 1 ++ leBytes 2 7 ++ leBytes 4 0 ++ leBytes 8 1000)).take 2 (fun q => q.op = 6 && q.isLocal && q.cls = 3)).isSome = true ∧
    (Tbl.find joined.mach.svc.trace.lastTrigger 7).isNone = true ∧
    ((joined.mach.setFab (fun f => { f with syncWait := some (5, 2) })).fab.syncWait).isSome = true ∧
    (let m := { joined.mach with ctxs := [(4, ctxOf (.discover 4 1000) .none)] }
     (Tbl.find m.ctxs 4).elim false (fun c => c.state == .active && c.work == .discover 4 1000) = true) := by decide +kernel

/-- Timers: a REHOME that may commit, requests, a VERSION_OP, a seal that awaits a member, a prepared part, and an open round. -/
def timed : Mod :=
  joined.mach.setFm (fun e => { e with
    rehomes := [{ fregion := 3, unit := 0, left := 1, dest := 7, requester := 5, token := 0, phase := 3, localUnit := 0, moved := 0, failed := none, cancelled := false }]
    vops := [(9, { op := 1, fregion := 3, device := 7, ch := 3, ctx := 65536, arg := 0 })]
    requests := [{
      tag := 9, device := 7, kind := 0, address := 0, src := .host 0 1, context := 0, packet := joined.mach.packetTo 7 0 3 0x10 9 [], sent := true, data := [], enable := [] }]
    regions := e.regions ++ [(8, { FabRegion.init { purpose := 0, partition := 1, localRegion := 4, registrar := 7, ch := 3, entries := [], answer := none } 1 1 0 0 with
      prepared := some (1, 0), sealing := some { number := 1, origin := 7, wctx := 0, token := 0, publish := true, base := 0, awaited := [7] } })]
    trees := Tbl.upd e.trees 6 (fun t => { t with rounds := [{ round := 1, got := [], rootOnly := false, sent := false }] }) })

theorem test_timers_meet :
    (timed.rehomeOf 3).elim false (fun h => decide (h.phase = 3 ∧ h.unit = 0)) = true ∧ (Tbl.find timed.fm.regions 3).elim false (fun f => f.sealing.isNone) = true ∧
    (Tbl.find timed.fm.vops 9).elim false (fun w => decide (w.op ≠ 0x10 ∧ w.op ≠ 0x1C)) = true ∧ (timed.requestOf 9).elim false (fun q => q.sent) = true ∧
    (Tbl.find timed.fm.regions 8).elim false (fun f => f.sealing.elim false (fun x => x.awaited == [7]) && f.registrar != timed.fab.deviceId && f.prepared.isSome) = true ∧
    (Tbl.find timed.fm.trees 6).elim false (fun t => (t.round 1).isSome) = true := by decide +kernel

/-- Service: a heal whose tiles have all arrived, a scrub pass, due kernels, a run, and contexts. -/
def served : Mod :=
  { work.mach with
    ctxs := [(5, ctxOf .scrub .none)]
    mvs := [(2, { Movement.init 1 [(65536, 1)] (0, 0, 0) host with state := .running, image := image2 })]
    mem := { work.mach.mem with recs := [(0, PaneRec.fresh 1 0 0 0 false 0 0)] }
    test := { work.mach.test with enabled := true, cores := [(1, { CoreTest.init with due := [(2, 5)] })] }
    svc := { work.mach.svc with
      heals := [{
        record := 0, region := 1, pane := 0, mirror := 0, frame := { tier := .t0, loc := 512, sectors := 256 }, tiles := (List.range 32).map (fun t => (t, [])),
        poisonedReads := 0, wasPoisoned := true }]
      scrub := some {
        ctxSlot := 5, mode := 0, heal := false, noWriteback := false, region := 1, sel := .head, first := 0, count := 1, tier := 0, port := 0,
        summarySpace := 0, summaryAddr := 0, bad := [], healed := 0 }
      hang := { work.mach.svc.hang with captures := [{ ctxSlot := 5, movement := 2, tensor := 0, step := 0, raw := true, dest := 0, destLen := 65536, holding := true }] } } }

theorem test_heals_meet :
    (served.svc.heals.find? (fun h => h.record = 0)).elim false (fun h => decide (h.tiles.length = 32 ∧ h.frame.sectors ≠ 0)) = true ∧
    (Tbl.find served.mem.recs 0).elim false (fun x => (Tbl.find served.mem.regions x.region).isSome) = true := by decide +kernel

theorem test_scrubs_meet :
    (served.svc.scrub.elim false (fun p => (Tbl.find served.ctxs p.ctxSlot).elim false (fun c => c.state == .active) &&
      !(served.scrubList p).any (fun v => v.2.elim false (fun x => x.2.state == .movingUp || x.2.state == .movingDown || (p.heal && served.svc.heals.any (fun h => h.record = x.1)))))) = true ∧
    (Tbl.find (served.setCtx 5 (fun c => { c with state := .cancelling })).ctxs 5).elim false (fun c => c.state == .cancelling) = true := by decide +kernel

theorem test_kernels_meet :
    (served.test.enabled = true ∧ (served.coreTest 1).fenced = false ∧ served.boot.readiness = .ready ∧ served.kernels.head?.isSome = true) ∧
    ((served.coreTest 1).due ≠ [] ∧ served.pow.rung < 2) ∧
    (served.test.running = [] ∧ (served.jobs.find? (fun j => served.idleSlot j.1 && served.mayTest j)).isSome = true) ∧
    (let m : Mod := { served with
       cores := [(1, { Core.init with movement := some 2, pc := 1 })]
       mvs := [(2, { Movement.init 1 [(65536, 1)] (0, 0, 0) host with state := .running, image := [(0xC, 1), (0x18, 0x40), (0x40, 1), (0x44, 0x80), (0x48, 2), (0x80, 4)] })]
       test := { served.test with cores := [(1, { CoreTest.init with due := [(2, 5)], deferred := true })] } }
     (m.runOf 1).elim false (fun x => !(m.core 1).atBarrier && (m.core 1).pc == 1 && (descAt x.2.image 1 0).elim false (fun d => d.op == 0x04) && decide (x.2.stopMode = 0) &&
       (m.jobs.find? (fun (j : Nat × Nat × Nat) => j.1 == 1 && m.mayTest j && (j.2.2 == 1 || (j.2.2 == 0 && (m.coreTest 1).deferred) ||
         (j.2.2 == 2 && m.test.testRuns.any (fun t => t.mode != 2 && t.todo.head? == some (j.1, j.2.1)))))).isSome) = true) ∧
    ((served.setTest (fun t => { t with running := [(1, 2, 0)] })).test.running.head? = some (1, 2, 0)) := by decide +kernel

theorem test_observation_meets :
    (50 < 1 * 10000 ∧ 1 * 10000 ≤ 20000 ∧ ((ported id).fport 2).linked = true) ∧
    (Tbl.find served.mvs 2).elim false (fun v => v.state == .running && !v.hangDeclared) = true ∧
    (Tbl.find (served.setMv 2 (fun v => { v with state := .stopping })).mvs 2).elim false (fun v => v.state == .stopping && !v.hangStop) = true ∧
    (served.svc.hang.captures.find? (fun c => c.movement = 2 && c.holding)).isSome = true ∧
    (served.pow.phase = .on ∧ served.pow.modReset = false) := by decide +kernel

/-! ### WellFormed, worked examples, the whole block -/

/-- A command that an ill-formed term breaks as the list says, for every check of `Instr.ill`. -/
def badWho : Owner := .mctp 5 9
def zeros (n : Nat) : List Byte := List.replicate n 0

theorem test_illRequesters :
    ([Instr.openChannel 3 badWho, .closeChannel 3 badWho, .ringDoorbell 3 badWho, .chnErrClear 3 badWho 1, .resultSlotWrite 3 badWho, .cringTailWrite 3 badWho 0,
      .registerWrite badWho .f0bar0 0 [0, 0, 0, 0], .getDcdInfo badWho, .getHostDcRegionConfiguration badWho 0, .setDcRegionConfiguration badWho 0 0 0 0,
      .getDcdExtentLists badWho 0, .initiateDynamicCapacityAdd badWho 0 .free 1 [] 0, .initiateDynamicCapacityRelease badWho 0 true [], .getLdInfo badWho,
      .getLdAllocations badWho, .setLdAllocations badWho [], .spdmMessage badWho .mctp [0, 0, 0, 0], .chnMsg badWho false 3 0 4 []].all
        (fun c => c.ill == some .medium)) = true := by decide +kernel

theorem test_illLengths :
    ([Instr.registerWrite host .f0bar0 0 [], .configWrite 0 0 0 [], .memWr 0 0 0 (zeros 63) false, .memWrPtl 0 0 0 (zeros 65) 0 false,
      .dmaReadCompletion 0 0 (zeros 4097) false false, .getLog 0 (zeros 4097), .getEventRecords 0 (zeros 4097), .clearEventRecords 0 (zeros 4097),
      .setEventInterruptPolicy 0 (zeros 4097), .getPoisonList 0 (zeros 4097), .setTimestamp 0 (zeros 7), .getDynamicCapacityConfiguration 0 (zeros 4097),
      .getDynamicCapacityExtentList 0 (zeros 4097), .setLdAllocations side (zeros 4097), .spdmMessage side .mctp [0x13], .chnMsg side true 3 0 8 (zeros 4),
      .chnMsg side false 3 0 4 (zeros 4), .thermalGovernorSample [1] [] [] [], .thermalGovernorSample (List.replicate 4 0) (List.replicate 8 0) (List.replicate 32 0) [],
      .hello 2 (zeros 233), .key 2 (zeros 233), .timestamp 2 (zeros 233), .dataFlit 2 (zeros 255), .idleFlit 2 (zeros 255), .retryReq 2 (zeros 257),
      .t1DeviceEvent 1 (zeros 127)].all (fun c => c.ill == some .length)) = true := by decide +kernel

theorem test_illRanges :
    ([Instr.configWrite 0 0 2 (zeros 4), .dmaReadCompletion 0 0 [1] false true, .chnMsg side false 3 0xFFF 4 [], .thermtrip 12 1000, .portTrainingComplete 2 3 4,
      .portTrainingComplete 2 1 5, .fecMargin 2 5 4, .t2ReadDecode 0 0, .t2ReadDecode 0 5, .wearGovernorChange 3, .hostLinkTrained 0 3 16 64, .hostLinkTrained 0 1 2 64,
      .hostLinkTrained 0 1 16 6].all (fun c => c.ill == some .range)) = true := by decide +kernel

theorem test_wellFormed :
    ([Instr.openChannel 3 side, .memWr 0 0 0 (zeros 64) false, .configWrite 0 0 2 (zeros 2), .dataFlit 2 (zeros 256), .hostLinkTrained 0 1 16 64, .identify 3].all
      (fun c => c.ill == none)) = true := by decide +kernel

/-! ### Worked examples of the spec -/

/-- R142 to R145: the first six elements of a Frit tile (spec/04). -/
theorem test_example_frit :
    (fritTileEncode .bf16 [0x78, 0x79, 0x7B, 0x7C, 0x7D, 0x7E, 0x7F] [0x3F80, 0xBD4C, 0x4100, 0x3BA0, 0x3E20, 0x8000]).take 8 =
      [0x80, 0xFB, 0xEB, 0xFF, 0x00, 0x00, 0x22, 0x00] := by decide +kernel

/-- A Frit BF16 pane takes 177 sectors (spec/00). -/
theorem test_example_fritSectors : DType.bf16.fritSectors = 177 := by decide +kernel

/-- R101: the entry of a pane that has come to T0 with COUNTER 4 (spec/03). -/
theorem test_example_mapEntry : { PaneRec.fresh 1 0 0 0x1234000 false 0 0 with counter := 4 }.entry = 0x0000400001234000 := by decide +kernel

/-- R447: two ways at 4 KiB from 0x40_0000_0000 (spec/14); below BASE nothing is mapped. -/
theorem test_example_decoder :
    let d : HdmDecoder := { HdmDecoder.init with base := 0x4000000000, size := 2 ^ 40, waysLog2 := 1, granLog2 := 12, committed := true }
    d.map 0x4523400A40 = some 0x291A00A40 ∧ d.map 0x3FFFFFFFC0 = none := by decide +kernel

/-- R382: the line at frame offset 19,008 of the frame at T0 byte 0x1_2340_0000 (spec/12). -/
theorem test_example_t0Decode : up.mach.t0Decode (0x123400000 + 19008) = { chan := 39, bank := 11, row := 1202, col := 10 } := by decide +kernel

/-- R315: the slot of a packet, by its flow, and after port 14 has lost its link (spec/09). -/
def routed (down : List Nat) (flow : Nat) : Option (Nat × Bool) :=
  let m := up.mach.setFab (fun f => { f with
    deviceId := 0x0123, routes := [(0x0A40, 0xB080E952)]
    ports := (List.range 16).map (fun i => { FabPort.init with state := if down.contains i then .down else .up }) })
  m.routeOf (m.packetTo 0x0A40 0 flow 0x10 9 [])

theorem test_example_routes :
    routed [] 12 = some (14, true) ∧ routed [] 13 = some (9, false) ∧ routed [14] 12 = some (2, false) ∧ routed [14] 13 = some (9, false) := by decide +kernel

/-- R530: a carve-out of 1,024 MiB with 64 MiB for dumps (spec/17). -/
theorem test_example_trace : { up.mach.svc.trace with carveMiB := 1024, dumpMiB := 64 }.capacity = 31457280 := by decide +kernel

/-- R274: the CRC-32C check value of its parameters, over the digits 1 to 9. -/
theorem test_crc32c : crc32c 0 [0x31, 0x32, 0x33, 0x34, 0x35, 0x36, 0x37, 0x38, 0x39] = 0xE3069283 := by decide +kernel

/-! ### The statements about the whole block -/

theorem test_time_meets :
    State.reset.pending = [] ∧ State.reset.mach.pow.phase = .on ∧ State.reset.mach.pow.rung < 3 ∧ State.reset.mach.fab.absorb = 0 ∧
    (let m := (State.reset.mach.setFab (fun f => { f with absorb := 5 })); 0 < m.fab.absorb ∧ ({ m with localTime := 7 } : Mod).localTime % 2 = 1) ∧
    3 ≤ (State.reset.mach.setPow (fun p => { p with rung := 3 })).pow.rung ∧ (State.reset.mach.setPow (fun p => { p with phase := .off })).pow.phase ≠ .on := by
  decide +kernel

theorem test_stepAnswers : ∃ t, step State.reset = .next t := ⟨_, rfl⟩

theorem test_fuses_meet :
    burntFrom State.reset.fuses State.reset.fuses ∧
    (let f := State.reset.fuses
     { f with lcEnd := true }.lifecycle = 5 ∧ { f with lcReturn := true }.lifecycle = 4 ∧ { f with ownerSet := true, lcOperational := true }.lifecycle = 2 ∧
     { f with ownerSet := true, lcOperational := true, debugCount := 1 }.lifecycle = 3 ∧ { f with ownerSet := true }.lifecycle ≠ 0) :=
  ⟨by show _ ∧ _; decide +kernel, by decide +kernel⟩

/-- The module that becomes ready under an image of SECURITY_VERSION 7, with 6 bits burnt (spec/19's example). -/
def newImage : State :=
  { work with
    fuses := { work.fuses with antiRollback := 6 }
    mach := work.mach.setBoot (fun b => { b with readiness := .booting, step := 3, slots := b.slots.set 0 { (b.slots.getD 0 FwSlot.init) with security := 7 } }) }

def fusesAfter (s : State) (c : Instr) : Fuses := match exec c s with | .next t => t.fuses | _ => s.fuses

theorem test_rollback_meets :
    (fusesAfter newImage .readyEntry).antiRollback = 7 ∧ newImage.fuses.antiRollback < (newImage.mach.boot.slots.getD 0 FwSlot.init).security ∧
    newImage.mach.boot.booted = some 0 ∧ newImage.mach.boot.step = 3 ∧ newImage.mach.boot.sweepDone = true ∧ newImage.mach.boot.journalDone = true ∧
    newImage.mach.t1.any (fun p => p.state = .training) = false ∧ newImage.mach.t2.saved.failed = false ∧
    (work.mach.boot.slots.getD 1 FwSlot.init).security < { work.fuses with antiRollback := 1 }.antiRollback := by decide +kernel

/-- The command that burns differs from the fuses before it. -/
theorem test_burning_meets : ∃ t, exec .readyEntry newImage = .next t ∧ t.fuses ≠ newImage.fuses := by
  refine ⟨_, rfl, fun h => ?_⟩
  have h2 := test_rollback_meets.1
  rw [show fusesAfter newImage .readyEntry = newImage.fuses from h] at h2
  exact absurd h2 (by decide +kernel)

theorem test_packets_meet :
    let p : Packet := { dest := 0x0A40, src := 0x0123, srcPart := 63, cls := 3, esc := true, poison := true, isLocal := true, ttl := 255, flow := 65535, op := 0x19, tag := 2 ^ 32 - 1,
                        payload := List.replicate 32 1 }
    p.dest < 2 ^ 14 ∧ p.payload.length % 16 = 0 ∧ p.payload.length ≤ 2224 ∧ p.q = {} ∧ Packet.ofBytes p.bytes = some p := by decide +kernel

theorem test_pages_meet :
    let m := { work.mach with chans := [(3, Chan.init host)] }
    (Tbl.find m.chans 3).elim false (fun c => c.owner != side) = true ∧ (Tbl.find m.chans 9).isNone = true ∧ m.pageRead side 3 0 4 = [1, 0, 0, 0] ∧
    m.pageRead host 3 0 4 ≠ [1, 0, 0, 0] ∧ leNat (([1, 0, 0, 0] : List Byte).take 4) % 2 = 1 := by decide +kernel

/-- GET_TIME while the module boots. -/
def unready : State := ask { work with mach := work.mach.setBoot (fun b => { b with readiness := .booting }) } host 0x0003 0xFF []

theorem test_notReady_meets :
    let s := unready
    (s.mach.servable 3 0x0003 anyForm).elim false (fun x => decide (slotOpcode (argSlot x.2.slot) = 3)) = true ∧ s.mach.boot.readiness = .booting ∧
    s.mach.boot.recovery = false ∧ s.mach.boot.lifecycle ≠ 5 := by decide +kernel

theorem test_queries_meet : ∃ t, exec (.identify 3) (ask work host 0 0xFF []) = .next t := ⟨_, rfl⟩
theorem test_registers_meet : work.mach.pow.rung ≤ 1 ∧ side.ldNo = none ∧ ∃ t, exec (.openChannel 9 host) work = .next t := ⟨by decide +kernel, rfl, _, rfl⟩

theorem test_interrupts_meet :
    let m := work.mach.setLd 0 (fun d => d.setFunc 1 (fun f => { f with intxStatus := 2, intxEnable := 2 }))
    ((m.ld 0).func 1).asserted ≠ ((m.ld 0).intxCond 1 && !((m.ld 0).func 1).intDisable) ∧
    ((work.mach.ld 0).func 1).asserted = ((work.mach.ld 0).intxCond 1 && !((work.mach.ld 0).func 1).intDisable) := by decide +kernel

theorem test_bytes_meet : Mem.wf [(3, 7)] = true ∧ mergeBytes [(3, 7)] 2 [1, 0, 9] [true, true, false] = [(2, 1)] := by decide +kernel

theorem test_decoders_meet :
    let d : HdmDecoder := { HdmDecoder.init with base := 2 ^ 28, size := 2 ^ 29, waysLog2 := 1, granLog2 := 8, committed := true }
    (d.committed = true ∧ d.base ≤ 2 ^ 28 ∧ 2 ^ 28 < d.base + d.size ∧ d.base + d.size - 1 < d.base + d.size) ∧
    (2 ^ 28 + 256 - d.base) / 2 ^ (d.granLog2 + d.waysLog2) = (2 ^ 28 - d.base) / 2 ^ (d.granLog2 + d.waysLog2) ∧ d.map (2 ^ 28) = d.map (2 ^ 28 + 256) := by decide +kernel

/-- POWER_SET_LIMIT at both ends of its range and outside it. -/
def limit (w flags : Nat) : Req := reqFor 1 (leBytes 2 w ++ leBytes 1 flags)
theorem test_limits_meet :
    ((limit 0 0).arg 0 2 = 0 ∧ (limit 300 1).arg 0 2 = 300 ∧ (limit 1150 1).arg 2 1 = 1) ∧
    ([(0, 0), (300, 1), (1150, 1)].all (fun p => (cmdPowerSetLimit (limit p.1 p.2) work.mach).2.status == .ok)) = true ∧
    ([(299, 0), (1151, 0), (300, 2)].all (fun p => (cmdPowerSetLimit (limit p.1 p.2) work.mach).2.status == .badArgument)) = true := by decide +kernel

theorem test_generations_meet :
    let t : Tables := { (regionOf 2 1 []).tables with current := some 15, gens := [(0, { slot := 1, image := [] }), (15, { slot := 2, image := [] })] }
    t.nextGen = some 1 ∧ { t with gens := (List.range 16).map (fun i => (i, { slot := i, image := [] })) }.nextGen = none := by decide +kernel

theorem test_errorLog_meets : (reqFor 1 (leBytes 8 0)).arg 0 8 = 0 ∧ (reqFor 1 (leBytes 8 5)).arg 0 8 ≠ 0 := by decide +kernel

theorem test_fritTiles_meet :
    DType.bf16.floating = true ∧ (0 ∉ [120, 127] ∧ ∀ e ∈ [120, 127], e < 2 ^ DType.bf16.expBits) ∧
    ((List.replicate DType.bf16.perTile 0x3F80).all (fun v => decide (v < 2 ^ (8 * DType.bf16.bytes)) && [120, 127].contains (DType.bf16.split v).2.1)) = true := by decide +kernel

end Sys2Proof.Tests
end

section
/-! PROOF. The limit of POWER_SET_LIMIT (spec/18_power_coolant_rungs.md R559, R570): which arguments it takes, that the pins, the event and the
record which follow a change of the limit in force leave the host's setting alone, and that a cold reset takes it back. -/
namespace Sys2Proof.Machine

/-- What POWER_SET_LIMIT sets (R570): the host's limit and NO_BURST. -/
def Power.hostSetting (p : Power) : Nat × Bool := (p.hostLimit, p.noBurst)

/-! ### What leaves the host's setting alone -/

variable (m : Mod)

theorem Quiet.drive (name : String) (old new float : Bool) : Quiet m (m.drive name old new float) := by
  unfold Mod.drive
  split
  · exact Quiet.refl m
  · exact Quiet.send m _

theorem Quiet.drivePorts (names : List String) (old new : List Bool) : Quiet m (m.drivePorts names old new) :=
  Quiet.each m _ _ fun a _ => Quiet.each a _ _ fun b _ => Quiet.send b _

@[simp] theorem Mod.drive_pow (name : String) (old new float : Bool) : (m.drive name old new float).pow = m.pow := (Quiet.drive m _ _ _ _).pow

@[simp] theorem Mod.drivePorts_pow (names : List String) (old new : List Bool) : (m.drivePorts names old new).pow = m.pow :=
  (Quiet.drivePorts m _ _ _).pow

@[simp] theorem Mod.syncPorts_hostSetting : m.syncPorts.pow.hostSetting = m.pow.hostSetting := by
  simp [Mod.syncPorts, Power.hostSetting]

@[simp] theorem Mod.syncPins_hostSetting : m.syncPins.pow.hostSetting = m.pow.hostSetting := by
  rw [Mod.syncPins, Mod.syncPorts_hostSetting]
  simp [Power.hostSetting]

/-- LIMIT_CHANGED, DERATED and the pins announce a new limit and do not move the setting (R559, R576). -/
@[simp] theorem Mod.limitChanged_hostSetting (old : Nat) : (m.limitChanged old).pow.hostSetting = m.pow.hostSetting := by
  simp only [Mod.limitChanged]
  split
  · exact m.syncPins_hostSetting
  · rw [Mod.syncPins_hostSetting]
    split
    · rw [(Quiet.logErr _ _).pow, (Quiet.raise m _ _ _ _ _).pow]
    · rw [(Quiet.raise m _ _ _ _ _).pow]

/-- The setting after a cold reset is that of power-on, whatever stood before (R570, R594). -/
theorem Mod.coldReset_hostSetting : m.coldReset.pow.hostSetting = (1150, false) := rfl

/-! ### The command -/

variable (r : Req)

theorem exec_powerSetLimit (s : State) (ch : ChanNo) : exec (.powerSetLimit ch) s = s.mailbox ch 0x0E02 anyForm cmdPowerSetLimit := rfl

/-- The arguments that R570 gives POWER_SET_LIMIT: SUSTAINED_W of 0 or 300 to 1,150, and no reserved bit of FLAGS. -/
def Req.limitGiven (r : Req) : Prop := (r.arg 0 2 = 0 ∨ 300 ≤ r.arg 0 2 ∧ r.arg 0 2 ≤ 1150) ∧ r.arg 2 1 ≤ 1

theorem cmdPowerSetLimit_of_given (h : r.limitGiven) : cmdPowerSetLimit r m =
    done ((m.setPow (fun p => { p with hostLimit := if r.arg 0 2 = 0 then 1150 else r.arg 0 2, noBurst := bit (r.arg 2 1) 0 })).limitChanged
      m.pow.sustained) := by
  obtain ⟨hw, hf⟩ := h
  have hw' : ¬ (r.arg 0 2 ≠ 0 ∧ (r.arg 0 2 < 300 ∨ 1150 < r.arg 0 2)) := by omega
  have hf' : ¬ 1 < r.arg 2 1 := by omega
  simp only [cmdPowerSetLimit, if_neg hw', if_neg hf']

/-- Arguments outside R570's are refused at SUSTAINED_W (offset 0) or at FLAGS (offset 2). -/
theorem cmdPowerSetLimit_of_not_given (h : ¬ r.limitGiven) : ∃ off, cmdPowerSetLimit r m = badArg m off := by
  unfold Req.limitGiven at h
  simp only [cmdPowerSetLimit]
  split
  · exact ⟨0, rfl⟩
  · have hf : 1 < r.arg 2 1 := by omega
    exact ⟨2, if_pos hf⟩

theorem cmdPowerSetLimit_hostSetting (h : r.limitGiven) :
    (cmdPowerSetLimit r m).1.pow.hostSetting = (if r.arg 0 2 = 0 then 1150 else r.arg 0 2, bit (r.arg 2 1) 0) := by
  rw [cmdPowerSetLimit_of_given m r h]
  exact Mod.limitChanged_hostSetting _ _

/-- NO_BURST is bit 0 of FLAGS, the only bit that may be set. -/
theorem bit_zero_iff_of_le_one {v : Nat} (h : v ≤ 1) : bit v 0 = true ↔ v = 1 := by
  simp only [bit, Nat.pow_zero, Nat.div_one, decide_eq_true_eq]
  omega

end Sys2Proof.Machine

namespace Sys2Proof.Proofs
open Sys2Proof Sys2Proof.Machine

/-- Settles O56: the command's two outcomes by its arguments, and the setting that its announcements keep and a cold reset takes back. -/
theorem powerLimit : Obligations.PowerLimit := by
  refine ⟨fun s ch => exec_powerSetLimit s ch, fun r m hw hf => ?_, fun r m h => ?_, fun m => ?_⟩
  · have given : r.limitGiven := ⟨hw, hf⟩
    obtain ⟨hLimit, hBurst⟩ := Prod.mk.inj (cmdPowerSetLimit_hostSetting m r given)
    refine ⟨?_, hLimit, ?_⟩
    · rw [cmdPowerSetLimit_of_given m r given]
      rfl
    · rw [hBurst]
      exact bit_zero_iff_of_le_one hf
  · obtain ⟨off, hOff⟩ := cmdPowerSetLimit_of_not_given m r h
    rw [hOff]
    exact ⟨rfl, rfl⟩
  · exact Prod.mk.inj m.coldReset_hostSetting

end Sys2Proof.Proofs
end

section
/-! PROOF. The anti-rollback count and SECURITY_VERSION (spec/19_bringup_lifecycle_security.md R585, R589, R590): the reservation of the map
store, which comes before READY and may move panes out of T1, leaves the boot store's slots and the journal alone, so that the image under which
the module becomes READY is the one that was booted; and what the root of trust does with an image that is rolled back. -/
namespace Sys2Proof.Machine

/-- What a change must leave alone for the module to become READY under the image that it booted: the state of bring-up, with the slots of the
boot store, and what the journal holds. -/
def Mod.bringUp (m : Mod) : Boot × Saved := (m.boot, m.t2.saved)

variable (m : Mod)

theorem Quiet.bringUp {a b : Mod} (h : Quiet a b) : b.bringUp = a.bringUp := by
  rw [Mod.bringUp, h.boot, h.t2]
  rfl

/-- A fold that goes on while each of its changes is possible keeps what each of them keeps. -/
theorem foldl_bind_keeps {α β γ : Type} (f : β → γ) (g : β → α → Option β) (hg : ∀ b x b', g b x = some b' → f b' = f b)
    (l : List α) (o : Option β) {b' : β} (h : l.foldl (fun o x => o.bind (fun b => g b x)) o = some b') : ∃ b, o = some b ∧ f b' = f b := by
  induction l generalizing o with
  | nil => exact ⟨b', h, rfl⟩
  | cons x l ih =>
    obtain ⟨c, hc, keeps⟩ := ih _ h
    obtain ⟨b, hb, hx⟩ := Option.bind_eq_some_iff.mp hc
    exact ⟨b, hb, keeps.trans (hg b x c hx)⟩

/-! ### Places for evicted images (R116, R121, R416) -/

theorem Mod.t1Alloc_bringUp (n : Nat) : (m.t1Alloc n).2.bringUp = m.bringUp := by
  simp only [Mod.t1Alloc]
  split <;> rename_i h <;> exact (congrArg (·.2.bringUp) h).symm

theorem Mod.t2Alloc_bringUp (n : Nat) : (m.t2Alloc n).2.bringUp = m.bringUp := by
  unfold Mod.t2Alloc
  split
  · rfl
  · split
    · rfl
    · split <;> rename_i h <;> exact (congrArg (·.2.bringUp) h).symm

theorem Mod.reclaimOne_bringUp (t : Tier) {m1 : Mod} (h : m.reclaimOne t = some m1) : m1.bringUp = m.bringUp := by
  simp only [Mod.reclaimOne] at h
  split at h
  · cases h
    rfl
  · cases h

theorem Mod.lowAlloc_bringUp (t : Tier) (n fuel : Nat) : (m.lowAlloc t n fuel).2.bringUp = m.bringUp := by
  induction fuel generalizing m with
  | zero => rfl
  | succ fuel ih =>
    have alloc : (if t = .t1 then m.t1Alloc n else m.t2Alloc n).2.bringUp = m.bringUp := by
      split
      · exact m.t1Alloc_bringUp n
      · exact m.t2Alloc_bringUp n
    unfold Mod.lowAlloc
    split <;> rename_i m1 h <;> rw [h] at alloc
    · exact alloc
    · split
      · rename_i m2 h2
        exact (ih m2).trans ((m1.reclaimOne_bringUp t h2).trans alloc)
      · exact alloc

theorem Mod.turnAlloc_bringUp (t : Tier) (n : Nat) : (m.turnAlloc t n).2.bringUp = m.bringUp := by
  simp only [Mod.turnAlloc]
  split
  · exact m.lowAlloc_bringUp t n _
  · split
    · rfl
    · exact Mod.lowAlloc_bringUp _ t n _

theorem Mod.evictPlace_bringUp (n : Nat) : (m.evictPlace n).2.bringUp = m.bringUp := by
  have turn := m.turnAlloc_bringUp m.evictTier n
  unfold Mod.evictPlace
  split <;> rename_i m1 h <;> rw [h] at turn
  · exact turn
  · split
    · exact (m1.turnAlloc_bringUp .t2 n).trans turn
    · exact turn

/-! ### Moving an image out (R105, R427, R525) -/

theorem Mod.each_bringUp {α : Type} (l : List α) (f : Mod → α → Mod) (hf : ∀ a x, (f a x).bringUp = a.bringUp) :
    (m.each l f).bringUp = m.bringUp := by
  induction l generalizing m with
  | nil => rfl
  | cons x l ih => exact (ih (f m x)).trans (hf m x)

theorem Mod.t0Access_bringUp (write : Bool) (a n master : Nat) : (m.t0Access write a n master).bringUp = m.bringUp := by
  unfold Mod.t0Access
  refine (Mod.each_bringUp _ _ _ fun b g => ?_).trans (Quiet.choose m 2).bringUp
  exact ((Quiet.count _ _ _ _ _ _).trans (Quiet.count _ _ _ _ _ _)).bringUp

theorem Quiet.chargeEvent (event unit master amount : Nat) : Quiet m (m.chargeEvent event unit master amount) := by
  unfold Mod.chargeEvent
  split
  · exact Quiet.refl m
  · exact Quiet.spend m _ _ _ _

theorem Mod.countT0_bringUp (event master part a n : Nat) : (m.countT0 event master part a n).bringUp = m.bringUp := by
  simp only [Mod.countT0]
  rw [← m.t0Access_bringUp (event = 0x0004) a n master]
  split
  · exact (Quiet.chargeEvent _ _ _ _ _).bringUp
  · exact (Quiet.each _ _ _ fun b i => Quiet.count b _ _ _ _ _).bringUp

theorem Mod.countSource_bringUp (x : PaneRec) (ms : Nat) : (m.countSource x ms).bringUp = m.bringUp := by
  simp only [Mod.countSource]
  split
  · exact m.countT0_bringUp _ _ _ _ _
  · exact (Quiet.count m _ _ _ _ _).bringUp
  · exact (Quiet.count m _ _ _ _ _).bringUp
  · rfl

/-- An image staged for T2 awaits the journal; what the journal holds changes only with its commit (R418, R423). -/
theorem Mod.storeImage_bringUp (k : Nat) (p : Place) (ms : Nat) : (m.storeImage k p ms).bringUp = m.bringUp := by
  unfold Mod.storeImage
  split
  · rfl
  · simp only
    split
    · exact ((Quiet.send m _).trans (Quiet.count _ _ _ _ _ _)).bringUp
    · rfl
    · rfl

theorem Mod.moveOut_bringUp (k : Nat) {m1 : Mod} (h : m.moveOut k = some m1) : m1.bringUp = m.bringUp := by
  unfold Mod.moveOut at h
  split at h
  · cases h
    rfl
  · rename_i x _
    have place := m.evictPlace_bringUp x.sectors
    split at h <;> rename_i m2 hp <;> rw [hp] at place
    · cases h
    · cases h
      rw [Mod.storeImage_bringUp, Mod.countSource_bringUp, ← place]
      exact (Quiet.count _ _ _ _ _ _).bringUp

/-! ### The reservation of the map store (R105) -/

theorem Mod.growShare_bringUp (d bytes : Nat) {m1 : Mod} (h : m.growShare d bytes = some m1) : m1.bringUp = m.bringUp := by
  simp only [Mod.growShare] at h
  split at h
  · cases h
    rfl
  · split at h
    · cases h
    · obtain ⟨_, ⟨⟩, moved⟩ := foldl_bind_keeps Mod.bringUp Mod.moveOut (fun a k _ hk => a.moveOut_bringUp k hk) _ _ h
      exact moved

theorem Mod.carveMap_bringUp (n : Nat) {m1 : Mod} (h : m.carveMap n = some m1) : m1.bringUp = m.bringUp := by
  induction n generalizing m with
  | zero =>
    cases h
    rfl
  | succ n ih =>
    obtain ⟨s, _, hs⟩ := Option.bind_eq_some_iff.mp h
    exact (ih _ hs :)

theorem Mod.reserveMap_bringUp {m1 : Mod} (h : m.reserveMap = some m1) : m1.bringUp = m.bringUp := by
  simp only [Mod.reserveMap] at h
  split at h
  · split at h
    · exact m.carveMap_bringUp _ h
    · cases h
  · split at h
    · cases h
      rfl
    · split at h
      · cases h
      · exact m.growShare_bringUp _ _ h
    · obtain ⟨_, ⟨⟩, grown⟩ := foldl_bind_keeps Mod.bringUp (fun a d => a.growShare d _) (fun a d _ hd => a.growShare_bringUp d _ hd) _ _ h
      exact grown

/-- Where the map store finds no room, the module is as it was. -/
theorem Mod.reserveMap_getD_bringUp : (m.reserveMap.getD m).bringUp = m.bringUp := by
  cases h : m.reserveMap with
  | none => rfl
  | some m1 => exact m.reserveMap_bringUp h

/-! ### The count at READY (R585, R590) -/

/-- SECURITY_VERSION of the image in a slot. -/
def Boot.securityOf (b : Boot) (i : Nat) : Nat := (b.slots.getD i FwSlot.init).security

variable (fz : Fuses) {i : Nat}

theorem Mod.advanceRollback_of_lt (hi : m.boot.booted = some i) (h : fz.antiRollback < m.boot.securityOf i) :
    m.advanceRollback fz = ({ fz with antiRollback := m.boot.securityOf i }, m.logRot 0x0904 .info (m.boot.securityOf i)) := by
  simp only [Mod.advanceRollback, hi]
  exact if_pos h

theorem Mod.advanceRollback_of_le (hi : m.boot.booted = some i) (h : m.boot.securityOf i ≤ fz.antiRollback) : m.advanceRollback fz = (fz, m) := by
  simp only [Mod.advanceRollback, hi]
  exact if_neg (Nat.not_lt.mpr h)

theorem Mod.advanceRollback_antiRollback (hi : m.boot.booted = some i) :
    (m.advanceRollback fz).1.antiRollback = max fz.antiRollback (m.boot.securityOf i) := by
  rcases Nat.lt_or_ge fz.antiRollback (m.boot.securityOf i) with h | h
  · rw [m.advanceRollback_of_lt fz hi h, Nat.max_eq_right (Nat.le_of_lt h)]
  · rw [m.advanceRollback_of_le fz hi h, Nat.max_eq_left h]

/-- Beside the fuses, the advance writes a record at most. -/
theorem Quiet.advanceRollback (hi : m.boot.booted = some i) : Quiet m (m.advanceRollback fz).2 := by
  rcases Nat.lt_or_ge fz.antiRollback (m.boot.securityOf i) with h | h
  · rw [m.advanceRollback_of_lt fz hi h]
    exact Quiet.logErr m _
  · rw [m.advanceRollback_of_le fz hi h]
    exact Quiet.refl m

/-- READY_ENTRY counts failed boots in the booted slot (R589), which is no change of its SECURITY_VERSION. -/
theorem FwSlot.security_getD_modify (slots : List FwSlot) (f : FwSlot → FwSlot) (hf : ∀ x, (f x).security = x.security) :
    ((slots.modify i f).getD i FwSlot.init).security = (slots.getD i FwSlot.init).security := by
  rw [List.getD_eq_getElem?_getD, List.getD_eq_getElem?_getD, List.getElem?_modify_eq]
  cases slots[i]? with
  | none => rfl
  | some x => exact hf x

/-- The conditions of R590 step 8, for a module that has booted a slot and whose journal does not record FAILED_REPLACE. -/
structure Mod.EntersReady (m : Mod) (i : Nat) : Prop where
  booting : m.boot.readiness = .booting
  step : m.boot.step = 3
  noRecovery : m.boot.recovery = false
  notEnd : m.boot.lifecycle ≠ 5
  swept : m.boot.sweepDone = true
  replayed : m.boot.journalDone = true
  trained : m.t1.any (fun p => p.state = .training) = false
  notFailed : m.t2.saved.failed = false
  booted : m.boot.booted = some i

/-- What READY_ENTRY does to the map store first: it lies in T0 where no T1 port holds it, and room is reserved for it (R105). -/
def Mod.withMapStore (m : Mod) : Mod :=
  let m1 := m.setMem (fun e => { e with mapInT0 := m.mapPorts == [] })
  m1.reserveMap.getD m1

/-- What READY_ENTRY does next where the journal does not record FAILED_REPLACE: READINESS, the booted slot's failed boots (R593), the memory of
the LDs and their MODULE interrupts. -/
def Mod.madeReady (m : Mod) : Mod :=
  let m3 := m.setBoot (fun b => { b with readiness := .ready, step := 8, slots := match b.booted with
    | some i => b.slots.modify i (fun s => { s with failedBoots := if decide (20000000000 < m.localTime) then s.failedBoots + 1 else 0 })
    | none => b.slots })
  (m3.each m3.ldNos (fun m l => m.setLd l (fun d => { d with memoryActive := true }))).moduleChanged

theorem Mod.withMapStore_bringUp : m.withMapStore.bringUp = m.bringUp := Mod.reserveMap_getD_bringUp _

theorem Mod.madeReady_boot (hi : m.boot.booted = some i) :
    m.madeReady.boot.readiness = .ready ∧ m.madeReady.boot.booted = some i ∧ m.madeReady.boot.securityOf i = m.boot.securityOf i := by
  simp only [Mod.madeReady]
  rw [(Quiet.moduleChanged _).boot, (Quiet.each _ _ _ fun b l => Quiet.setLd b l _).boot, Mod.setBoot_boot, hi]
  exact ⟨rfl, rfl, FwSlot.security_getD_modify _ _ fun _ => rfl⟩

theorem State.burn_of_eq (s : State) {f : Fuses → Mod → Fuses × Mod} {r : Fuses × Mod} (h : f s.fuses s.mach = r) :
    s.burn f = .next { s with mach := r.2.settle, fuses := r.1 } := by
  rw [State.burn_eq, h]

/-- READY_ENTRY makes the module READY under the image that it booted, and then advances the count. -/
theorem exec_readyEntry (s : State) (h : s.mach.EntersReady i) :
    exec .readyEntry s = .next { s with
      mach := (s.mach.withMapStore.madeReady.advanceRollback s.fuses).2.settle
      fuses := (s.mach.withMapStore.madeReady.advanceRollback s.fuses).1 } := by
  obtain ⟨booting, step, noRecovery, notEnd, swept, replayed, trained, notFailed, -⟩ := h
  obtain ⟨-, saved⟩ := Prod.mk.inj s.mach.withMapStore_bringUp
  have notFailed' : ¬ s.mach.withMapStore.t2.saved.failed = true := by simp [saved, notFailed]
  show execReadyEntry s = _
  unfold execReadyEntry
  refine State.burn_of_eq s (r := s.mach.withMapStore.madeReady.advanceRollback s.fuses) ?_
  rw [if_neg (by simp [booting, step, noRecovery, notEnd, swept, replayed, trained])]
  exact if_neg notFailed'

/-! ### A rolled-back image (R582, R585) -/

theorem Mod.slotOk_of_rolled_back (h : m.boot.securityOf i < fz.antiRollback) : m.slotOk fz i = false := by
  simp only [Mod.slotOk, Bool.and_eq_false_iff, decide_eq_false_iff_not]
  exact .inr (Nat.not_le.mpr h)

/-- The root of trust does not boot a rolled-back image: the event that says that it verified has no effect. -/
theorem Mod.imageVerified_of_rolled_back (slot : BitVec 1) (h : m.boot.securityOf slot.toNat < fz.antiRollback) :
    m.imageVerified fz slot true = m := by
  have kept (f : Boot → Boot) (hf : (f m.boot).slots = m.boot.slots) : (m.setBoot f).slotOk fz slot.toNat = false :=
    Mod.slotOk_of_rolled_back _ fz (by rwa [Boot.securityOf, Mod.setBoot_boot, hf])
  simp only [Mod.imageVerified]
  rw [if_neg (by decide), kept _ rfl]
  rfl

theorem exec_bootImageVerified_of_rolled_back (s : State) (slot : BitVec 1) (h : s.mach.boot.securityOf slot.toNat < s.fuses.antiRollback) :
    exec (.bootImageVerified slot true) s = .next (s.after s.mach) := by
  show execBootImageVerified slot true s = _
  simp only [execBootImageVerified, State.actF_eq, Mod.imageVerified_of_rolled_back _ _ slot h, ite_self]

end Sys2Proof.Machine

namespace Sys2Proof.Proofs
open Sys2Proof Sys2Proof.Machine

/-- Settles O55: READY comes under the image that was booted, its SECURITY_VERSION is burnt where it exceeds the count, and no slot with a lower
one verifies or boots. -/
theorem rollbackAdvances : Obligations.RollbackAdvances := by
  refine ⟨fun m fz i hi => ⟨m.advanceRollback_of_lt fz hi, m.advanceRollback_of_le fz hi⟩, ?_, fun m fz i => m.slotOk_of_rolled_back fz,
    exec_bootImageVerified_of_rolled_back⟩
  intro s i booting step noRecovery notEnd swept replayed trained notFailed booted
  obtain ⟨boot, -⟩ := Prod.mk.inj s.mach.withMapStore_bringUp
  obtain ⟨ready, hi, security⟩ := s.mach.withMapStore.madeReady_boot (boot ▸ booted)
  refine ⟨_, exec_readyEntry s ⟨booting, step, noRecovery, notEnd, swept, replayed, trained, notFailed, booted⟩, ?_, ?_⟩
  · rw [((Quiet.advanceRollback _ s.fuses hi).trans (Quiet.settle _)).boot, ready]
  · rw [Mod.advanceRollback_antiRollback _ s.fuses hi, security, boot]
    rfl

end Sys2Proof.Proofs
end

section
/-! PROOF. What a command can leave (spec/19_bringup_lifecycle_security.md, Fuses): one command answers one next state, only three kinds of command
touch the fuses, and they touch them by burning. -/
namespace Sys2Proof.Machine

/-! ### What the commands with a signed object do to the fuses (R582) -/

theorem noteSequence_fuses (sequence : Nat) (m : Mod) (x : (Fuses × Mod) × Reply) : (noteSequence sequence m x).1.1 = x.1.1 := by
  unfold noteSequence
  split <;> rfl

/-- A command with a signed object keeps of the fuses what its run keeps: a refused object leaves them alone. -/
theorem signedCmd_fuses (P : Fuses → Prop) {suits mine : Signed → Bool} {allowed : Fuses → Mod → Signed → Bool}
    {run : Req → Fuses → Mod → Signed → (Fuses × Mod) × Reply} (r : Req) (fz : Fuses) (m : Mod) (hfz : P fz)
    (hrun : ∀ m1 o, allowed fz m1 o = true → P (run r fz m1 o).1.1) : P (signedCmd suits mine allowed run r fz m).1.1 := by
  unfold signedCmd
  split
  · exact hfz
  split
  · exact hfz
  split
  · exact hfz
  split
  · exact hfz
  · exact hfz
  rename_i m1 bs _
  simp only
  split
  · exact hfz
  split
  · exact hfz
  split
  · exact hfz
  split
  · exact hfz
  split
  · exact hfz
  split
  · exact hfz
  rename_i h
  have ran := hrun m1 (Signed.ofBytes bs) (by simpa using h)
  split
  · rwa [noteSequence_fuses]
  · exact ran

theorem acceptSigned_fuses (r : Req) (fz : Fuses) (m : Mod) (w : Work) (f : Nat → Mod → Mod) : (acceptSigned r fz m w f).1.1 = fz := by
  unfold acceptSigned
  split <;> rfl

theorem cmdFwUpdate_fuses (r : Req) (fz : Fuses) (m : Mod) : (cmdFwUpdate r fz m).1.1 = fz := by
  unfold cmdFwUpdate
  split
  · rfl
  · exact signedCmd_fuses (· = fz) r fz m rfl fun m1 o _ => acceptSigned_fuses _ _ _ _ _

theorem cmdFwActivate_fuses (mode : Nat) (r : Req) (fz : Fuses) (m : Mod) : (cmdFwActivate mode r fz m).1.1 = fz := by
  refine signedCmd_fuses (· = fz) r fz m rfl fun m1 o _ => ?_
  simp only
  split
  · rfl
  split
  · rfl
  · exact acceptSigned_fuses _ _ _ _ _

theorem cmdLifecycleSet_fuses (r : Req) (fz : Fuses) (m : Mod) : (cmdLifecycleSet r fz m).1.1 = fz := by
  refine signedCmd_fuses (· = fz) r fz m rfl fun m1 o _ => ?_
  split
  · rfl
  · exact acceptSigned_fuses _ _ _ _ _

theorem cmdDebugUnlock_fuses (r : Req) (fz : Fuses) (m : Mod) : (cmdDebugUnlock r fz m).1.1 = fz := by
  refine signedCmd_fuses (· = fz) r fz m rfl fun m1 o _ => ?_
  split
  · rfl
  split
  · rfl
  · exact acceptSigned_fuses _ _ _ _ _

theorem cmdManagerListSet_fuses (r : Req) (fz : Fuses) (m : Mod) : (cmdManagerListSet r fz m).1.1 = fz :=
  signedCmd_fuses (· = fz) r fz m rfl fun _ _ _ => rfl

/-- A row that serves its channel keeps of the fuses what its command keeps. -/
theorem Mod.serveF_fuses (P : Fuses → Prop) (m : Mod) (fz : Fuses) (ch op : Nat) (form : Mem → Bool)
    {cmd : Req → Fuses → Mod → (Fuses × Mod) × Reply} (hfz : P fz) (hcmd : ∀ r m1, P (cmd r fz m1).1.1) : P (m.serveF fz ch op form cmd).1 := by
  unfold Mod.serveF
  split
  · exact hfz
  simp only
  split
  · exact hfz
  split <;> exact hcmd _ _

/-! ### Every command answers a next state -/

/-- The commands that may leave other fuses than they find. -/
def MayBurn (c : Instr) : Prop :=
  c = .readyEntry ∨ (∃ slot, c = .contextWorkComplete slot) ∨ (∃ ch, c = .ownerKeyInstall ch)

/-- A row with a signed object whose command leaves the fuses alone is a change of the module. -/
theorem State.signedRow_eq_after (s : State) (ch : ChanNo) (op : Nat) {cmd : Req → Fuses → Mod → (Fuses × Mod) × Reply}
    (h : ∀ r fz m, (cmd r fz m).1.1 = fz) : ∃ m, s.signedRow ch op cmd = .next (s.after m) := by
  refine ⟨(s.mach.serveF s.fuses ch.toNat op anyForm cmd).2, ?_⟩
  rw [State.signedRow, State.burn_eq, Mod.serveF_fuses (· = s.fuses) s.mach s.fuses ch.toNat op anyForm rfl fun r m1 => h r s.fuses m1]
  rfl

/-- Every command but three kinds is a change of the module, which leaves the fuses and the queue alone. -/
theorem exec_eq_after (c : Instr) (s : State) (h : ¬ MayBurn c) : ∃ m, exec c s = .next (s.after m) := by
  cases c
  case readyEntry => exact absurd (.inl rfl) h
  case contextWorkComplete slot => exact absurd (.inr (.inl ⟨slot, rfl⟩)) h
  case ownerKeyInstall ch => exact absurd (.inr (.inr ⟨ch, rfl⟩)) h
  case fwUpdate ch => exact s.signedRow_eq_after ch _ cmdFwUpdate_fuses
  case fwActivateNextReset ch => exact s.signedRow_eq_after ch _ (cmdFwActivate_fuses 0)
  case fwActivateNow ch => exact s.signedRow_eq_after ch _ (cmdFwActivate_fuses 1)
  case fwActivateRevert ch => exact s.signedRow_eq_after ch _ (cmdFwActivate_fuses 2)
  case lifecycleSet ch => exact s.signedRow_eq_after ch _ cmdLifecycleSet_fuses
  case debugUnlock ch => exact s.signedRow_eq_after ch _ cmdDebugUnlock_fuses
  case managerListSet ch => exact s.signedRow_eq_after ch _ cmdManagerListSet_fuses
  all_goals exact ⟨_, rfl⟩

/-- Every command answers a next state, and leaves the queue as it was. -/
theorem exec_eq_next (c : Instr) (s : State) : ∃ t, exec c s = .next t ∧ t.pending = s.pending := by
  by_cases h : MayBurn c
  · rcases h with rfl | ⟨slot, rfl⟩ | ⟨ch, rfl⟩ <;> exact ⟨_, rfl, rfl⟩
  · obtain ⟨m, hm⟩ := exec_eq_after c s h
    exact ⟨_, hm, rfl⟩

/-! ### Burning -/

theorem burntFrom_refl (a : Fuses) : burntFrom a a := ⟨rfl, rfl, rfl, rfl, fun h => ⟨h, rfl⟩, id, id, id, Nat.le_refl _, Nat.le_refl _⟩

theorem burntFrom_trans {a b c : Fuses} (h : burntFrom a b) (k : burntFrom b c) : burntFrom a c := by
  obtain ⟨hserial, hroot, hvendor, hrev, howner, hop, hret, hend, hdebug, hroll⟩ := h
  obtain ⟨kserial, kroot, kvendor, krev, kowner, kop, kret, kend, kdebug, kroll⟩ := k
  refine ⟨kserial.trans hserial, kroot.trans hroot, kvendor.trans hvendor, krev.trans hrev, fun ha => ?_, kop ∘ hop, kret ∘ hret, kend ∘ hend,
    Nat.le_trans hdebug kdebug, Nat.le_trans hroll kroll⟩
  obtain ⟨setB, digestB⟩ := howner ha
  obtain ⟨setC, digestC⟩ := kowner setB
  exact ⟨setC, digestC.trans digestB⟩

/-- Every transition of the life cycle burns one fuse (R600 step 3). -/
theorem burntFrom_burnFor (fz : Fuses) (lc target : Nat) : burntFrom fz (burnFor fz lc target) := by
  unfold burnFor
  split
  · split <;> simp [burntFrom]
  all_goals simp [burntFrom]

theorem Mod.lifecycleStep_burns (m : Mod) (fz : Fuses) (slot target mask : Nat) (c : Ctx) :
    burntFrom fz (m.lifecycleStep fz slot target mask c).1 := by
  unfold Mod.lifecycleStep
  split
  · exact burntFrom_refl fz
  · exact burntFrom_burnFor fz _ _

/-- Of the work that contexts run, the changes of the life cycle alone burn. -/
theorem Mod.workStep_burns (m : Mod) (fz : Fuses) (slot : Nat) (c : Ctx) : burntFrom fz (m.workStep fz slot c).1 := by
  unfold Mod.workStep
  split
  case h_10 => exact m.lifecycleStep_burns fz _ _ _ _
  case h_11 =>
    split
    · exact burntFrom_refl fz
    · exact m.lifecycleStep_burns fz _ _ _ _
  all_goals exact burntFrom_refl fz

theorem Mod.advanceRollback_burns (m : Mod) (fz : Fuses) : burntFrom fz (m.advanceRollback fz).1 := by
  cases hi : m.boot.booted with
  | none =>
    simp only [Mod.advanceRollback, hi, Nat.not_lt_zero, if_false]
    exact burntFrom_refl fz
  | some i =>
    rcases Nat.lt_or_ge fz.antiRollback (m.boot.securityOf i) with h | h
    · rw [m.advanceRollback_of_lt fz hi h]
      exact ⟨rfl, rfl, rfl, rfl, fun h => ⟨h, rfl⟩, id, id, id, Nat.le_refl _, Nat.le_of_lt h⟩
    · rw [m.advanceRollback_of_le fz hi h]
      exact burntFrom_refl fz

/-- The owner's digest is installed in a module that has none (R603). -/
theorem cmdOwnerKeyInstall_burns (r : Req) (fz : Fuses) (m : Mod) : burntFrom fz (cmdOwnerKeyInstall r fz m).1.1 := by
  refine signedCmd_fuses (burntFrom fz) r fz m (burntFrom_refl fz) fun m1 o allowed => ?_
  have unset : fz.ownerSet = false := by simp only [Bool.and_eq_true, Bool.not_eq_true'] at allowed; exact allowed.2
  exact ⟨rfl, rfl, rfl, rfl, fun h => absurd h (by simp [unset]), id, id, id, Nat.le_refl _, Nat.le_refl _⟩

theorem State.burn_burns (s : State) (f : Fuses → Mod → Fuses × Mod) {t : State} (hf : burntFrom s.fuses (f s.fuses s.mach).1)
    (h : s.burn f = .next t) : burntFrom s.fuses t.fuses := by
  cases h
  exact hf

theorem execContextWorkComplete_burns (slot : SlotNo) (s : State) {t : State} (h : execContextWorkComplete slot s = .next t) :
    burntFrom s.fuses t.fuses := by
  unfold execContextWorkComplete at h
  refine s.burn_burns _ ?_ h
  split
  · exact burntFrom_refl _
  split
  · exact burntFrom_refl _
  split
  · exact Mod.workStep_burns _ _ _ _
  all_goals exact burntFrom_refl _

theorem execReadyEntry_burns (s : State) {t : State} (h : execReadyEntry s = .next t) : burntFrom s.fuses t.fuses := by
  unfold execReadyEntry at h
  refine s.burn_burns _ ?_ h
  simp only
  split
  · exact burntFrom_refl _
  split
  · exact burntFrom_refl _
  · exact Mod.advanceRollback_burns _ _

theorem exec_burns (c : Instr) (s : State) {t : State} (h : exec c s = .next t) : burntFrom s.fuses t.fuses := by
  by_cases hc : MayBurn c
  · rcases hc with rfl | ⟨slot, rfl⟩ | ⟨ch, rfl⟩
    · exact execReadyEntry_burns s h
    · exact execContextWorkComplete_burns slot s h
    · cases h
      exact Mod.serveF_fuses (burntFrom s.fuses) _ _ _ _ _ (burntFrom_refl _) fun r m1 => cmdOwnerKeyInstall_burns r _ m1
  · obtain ⟨m, hm⟩ := exec_eq_after c s hc
    cases hm.symm.trans h
    exact burntFrom_refl _

/-- A step is a command or the passing of time, which burns nothing. -/
theorem step_burns (s : State) {t : State} (h : step s = .next t) : burntFrom s.fuses t.fuses := by
  unfold step at h
  split at h
  · cases h
    exact burntFrom_refl _
  · rename_i c rest _
    exact exec_burns c { s with pending := rest } h

/-! ### The life cycle that the fuses give (R598) -/

theorem Fuses.lifecycle_eq_five (f : Fuses) : f.lifecycle = 5 ↔ f.lcEnd = true := by
  unfold Fuses.lifecycle
  (repeat' split) <;> simp_all

theorem Fuses.lifecycle_eq_four (f : Fuses) : f.lifecycle = 4 ↔ f.lcEnd = false ∧ f.lcReturn = true := by
  unfold Fuses.lifecycle
  (repeat' split) <;> simp_all

theorem Fuses.lifecycle_eq_zero (f : Fuses) : f.lifecycle = 0 ↔ f.lcEnd = false ∧ f.lcReturn = false ∧ f.ownerSet = false := by
  unfold Fuses.lifecycle
  (repeat' split) <;> simp_all

theorem Fuses.lifecycle_eq_one (f : Fuses) :
    f.lifecycle = 1 ↔ f.lcEnd = false ∧ f.lcReturn = false ∧ f.ownerSet = true ∧ f.lcOperational = false := by
  unfold Fuses.lifecycle
  (repeat' split) <;> simp_all

/-- OPERATIONAL and DEBUG are the states of a module in service. -/
theorem Fuses.lifecycle_eq_two_or_three (f : Fuses) :
    f.lifecycle = 2 ∨ f.lifecycle = 3 ↔ f.lcEnd = false ∧ f.lcReturn = false ∧ f.ownerSet = true ∧ f.lcOperational = true := by
  unfold Fuses.lifecycle
  (repeat' split) <;> simp_all

end Sys2Proof.Machine

namespace Sys2Proof.Proofs
open Sys2Proof Sys2Proof.Machine

/-- Settles O41: each step only burns, and burning composes. -/
theorem fusesOnlyBurn : Obligations.FusesOnlyBurn := fun _ s _ burnt h => burntFrom_trans burnt (step_burns s h)

/-- Settles O43: each state of the life cycle is decided by fuses that stay burnt. -/
theorem lifeCycleNeverGoesBack : Obligations.LifeCycleNeverGoesBack := by
  intro s t h
  obtain ⟨-, -, -, -, owner, operational, returned, ended, -, -⟩ := step_burns s h
  refine ⟨fun h5 => ?_, fun h4 => ?_, fun h23 => ?_, fun h0 => ?_⟩
  · rw [Fuses.lifecycle_eq_five] at h5 ⊢
    exact ended h5
  · obtain ⟨-, hret⟩ := (Fuses.lifecycle_eq_four _).mp h4
    rw [Fuses.lifecycle_eq_four, Fuses.lifecycle_eq_five]
    cases t.fuses.lcEnd with
    | false => exact .inl ⟨rfl, returned hret⟩
    | true => exact .inr rfl
  · obtain ⟨-, -, hset, hop⟩ := (Fuses.lifecycle_eq_two_or_three _).mp h23
    constructor
    · rw [Ne, Fuses.lifecycle_eq_zero]
      simp [(owner hset).1]
    · rw [Ne, Fuses.lifecycle_eq_one]
      simp [operational hop]
  · rw [Ne, Fuses.lifecycle_eq_zero] at h0 ⊢
    rintro ⟨hend, hret, hset⟩
    refine h0 ⟨?_, ?_, ?_⟩
    · exact eq_false_of_ne_true fun h => by simp [ended h] at hend
    · exact eq_false_of_ne_true fun h => by simp [returned h] at hret
    · exact eq_false_of_ne_true fun h => by simp [(owner h).1] at hset

/-- Settles O44: every other command is a change of the module. -/
theorem fewCommandsBurnFuses : Obligations.FewCommandsBurnFuses := by
  intro c s t h changed
  refine Classical.byContradiction fun hc => ?_
  obtain ⟨m, hm⟩ := exec_eq_after c s hc
  cases hm.symm.trans h
  exact changed rfl

/-- Settles O37: with a command in front, `step` is by definition that command on the rest of the queue. -/
theorem stepRunsFrontCommand : Obligations.StepRunsFrontCommand := fun _ _ _ => rfl

/-- Settles O39: a step is a command on the queue's rest, which it leaves alone, or the passing of time on the empty queue. -/
theorem everyStepGoesOn : Obligations.EveryStepGoesOn := by
  intro s
  suffices h : ∃ t, step s = .next t ∧ t.pending = s.pending.tail by
    obtain ⟨t, ht, rest⟩ := h
    refine ⟨⟨t, ht⟩, fun t' ht' => ?_⟩
    cases ht.symm.trans ht'
    exact rest
  unfold step
  split
  case h_1 empty => exact ⟨_, rfl, empty.trans (by rw [empty]; rfl)⟩
  case h_2 c rest queue =>
    rw [queue]
    exact exec_eq_next c { s with pending := rest }

/-- Settles O42: burning starts from the reset state, and no fuse of it is burnt. -/
theorem fusesAtReset : Obligations.FusesAtReset := ⟨burntFrom_refl _, rfl⟩

end Sys2Proof.Proofs
end

section
/-! PROOF. What a cold reset leaves (spec/19_bringup_lifecycle_security.md, Resets). -/
namespace Sys2Proof.Machine

/-- Every fabric port stands as `FabPort.init` gives it (R297). -/
theorem State.reset_fport (p : Nat) : State.reset.mach.fport p = FabPort.init := by
  show (List.replicate 16 FabPort.init).getD p FabPort.init = _
  rw [List.getD_eq_getElem?_getD, List.getElem?_replicate]
  split <;> rfl

end Sys2Proof.Machine

namespace Sys2Proof.Proofs
open Sys2Proof Sys2Proof.Machine

/-- Settles O40: each value as the reset state's definition gives it. -/
theorem coldResetLeaves : Obligations.ColdResetLeaves := by
  refine ⟨rfl, rfl, rfl, rfl, rfl, rfl, rfl, rfl, rfl, rfl, rfl, rfl, fun p => ?_, rfl, rfl, rfl, rfl, rfl, rfl, rfl, rfl, rfl, fun ld => ?_⟩
  · rw [State.reset_fport]
    rfl
  · exact ⟨rfl, rfl, rfl, rfl, rfl, rfl, rfl⟩

end Sys2Proof.Proofs
end

section
/-! PROOF. Little-endian numbers (spec/00_scope.md R4) and the header of a packet (spec/09_fabric_links_routing.md R306): what is written reads back. -/
namespace Sys2Proof

@[simp] theorem leBytes_length (n v : Nat) : (leBytes n v).length = n := by
  induction n generalizing v with
  | zero => rfl
  | succ n ih => simp [leBytes, ih]

theorem leNat_leBytes (n v : Nat) : leNat (leBytes n v) = v % 256 ^ n := by
  induction n generalizing v with
  | zero => simp [leBytes, leNat, Nat.mod_one]
  | succ n ih =>
    rw [leBytes, leNat, ih, BitVec.toNat_ofNat, Nat.pow_succ' (m := 256) (n := n)]
    exact Nat.mod_mul.symm

theorem leBytes_leNat (bs : List Byte) : leBytes bs.length (leNat bs) = bs := by
  induction bs with
  | nil => rfl
  | cons b bs ih =>
    have hb : b.toNat < 256 := b.isLt
    have rest : (b.toNat + 256 * leNat bs) / 256 = leNat bs := by omega
    have first : BitVec.ofNat 8 (b.toNat + 256 * leNat bs) = b := by
      apply BitVec.eq_of_toNat_eq
      rw [BitVec.toNat_ofNat]
      omega
    simp only [List.length_cons, leNat, leBytes, rest, first, ih]

theorem leNat_digit (bs : List Byte) (i : Nat) : leNat bs / 256 ^ i % 256 = (bs.getD i 0).toNat := by
  induction bs generalizing i with
  | nil => simp [leNat]
  | cons b bs ih =>
    have hb : b.toNat < 256 := b.isLt
    cases i with
    | zero => simp only [leNat, Nat.pow_zero, Nat.div_one, List.getD_cons_zero]; omega
    | succ i =>
      have rest : (b.toNat + 256 * leNat bs) / 256 = leNat bs := by omega
      rw [leNat, Nat.pow_succ', ← Nat.div_div_eq_div_mul, rest, ih, List.getD_cons_succ]

namespace Machine

theorem b2n_lt_two (b : Bool) : b2n b < 2 := by cases b <;> decide

theorem bit_eq_of_digit {v i : Nat} {b : Bool} (h : v / 2 ^ i % 2 = b2n b) : bit v i = b := by
  rw [bit, h]
  cases b <;> rfl

/-- The fields of a packet have the widths of its header, and its payload is whole units and not too long (R306). -/
structure Packet.Fits (p : Packet) : Prop where
  dest : p.dest < 2 ^ 14
  src : p.src < 2 ^ 14
  srcPart : p.srcPart < 64
  cls : p.cls < 4
  ttl : p.ttl < 256
  flow : p.flow < 2 ^ 16
  op : p.op < 256
  tag : p.tag < 2 ^ 32
  whole : p.payload.length % 16 = 0
  short : p.payload.length ≤ 2224

/-- The number that the 16 B of the header spell: each field at its place (R306). -/
def Packet.header (p : Packet) : Nat :=
  p.dest * 2 ^ 114 + p.src * 2 ^ 100 + p.srcPart * 2 ^ 94 + p.cls * 2 ^ 92 + b2n p.esc * 2 ^ 91 + b2n p.poison * 2 ^ 90 +
    b2n p.isLocal * 2 ^ 89 + p.ttl * 2 ^ 80 + p.flow * 2 ^ 64 + p.op * 2 ^ 56 + p.payload.length / 16 * 2 ^ 48 + p.tag

variable {p : Packet}

theorem Packet.Fits.units (h : p.Fits) : p.units = p.payload.length / 16 := by
  have := h.whole
  simp only [Packet.units, ceilDiv]
  omega

theorem Packet.Fits.header_lt (h : p.Fits) : p.header < 256 ^ 16 := by
  obtain ⟨dest, src, srcPart, cls, ttl, flow, op, tag, whole, short⟩ := h
  have := b2n_lt_two p.esc
  have := b2n_lt_two p.poison
  have := b2n_lt_two p.isLocal
  simp only [Packet.header]
  omega

theorem Packet.Fits.bytes (h : p.Fits) : p.bytes = leBytes 16 p.header ++ p.payload := by
  have units := h.units
  obtain ⟨dest, src, srcPart, cls, ttl, flow, op, tag, whole, short⟩ := h
  rw [Packet.bytes]
  refine congr (congrArg HAppend.hAppend (congrArg (leBytes 16) ?_)) ?_
  · rw [Packet.header, units, Nat.mod_eq_of_lt dest, Nat.mod_eq_of_lt src, Nat.mod_eq_of_lt srcPart, Nat.mod_eq_of_lt cls, Nat.mod_eq_of_lt ttl,
      Nat.mod_eq_of_lt flow, Nat.mod_eq_of_lt op, Nat.mod_eq_of_lt tag]
    omega
  · have len : 16 * p.units = p.payload.length := by omega
    rw [len, List.take_left]

/-- Each field of the header reads back. -/
theorem Packet.Fits.fields (h : p.Fits) :
    bits p.header 114 14 = p.dest ∧ bits p.header 100 14 = p.src ∧ bits p.header 94 6 = p.srcPart ∧ bits p.header 92 2 = p.cls ∧
    bit p.header 91 = p.esc ∧ bit p.header 90 = p.poison ∧ bit p.header 89 = p.isLocal ∧ bits p.header 80 8 = p.ttl ∧
    bits p.header 64 16 = p.flow ∧ bits p.header 56 8 = p.op ∧ bits p.header 48 8 = p.payload.length / 16 ∧ bits p.header 0 32 = p.tag := by
  obtain ⟨dest, src, srcPart, cls, ttl, flow, op, tag, whole, short⟩ := h
  have := b2n_lt_two p.esc
  have := b2n_lt_two p.poison
  have := b2n_lt_two p.isLocal
  simp only [bits, Packet.header]
  refine ⟨?_, ?_, ?_, ?_, bit_eq_of_digit ?_, bit_eq_of_digit ?_, bit_eq_of_digit ?_, ?_, ?_, ?_, ?_, ?_⟩ <;> omega

theorem Packet.Fits.ofBytes_bytes (h : p.Fits) (local_ : p.q = {}) : Packet.ofBytes p.bytes = some p := by
  obtain ⟨dest, src, srcPart, cls, esc, poison, isLocal, ttl, flow, op, units, tag⟩ := h.fields
  have head : leNat (p.bytes.take 16) = p.header := by
    rw [h.bytes, List.take_left' (leBytes_length 16 _), leNat_leBytes, Nat.mod_eq_of_lt h.header_lt]
  have body : (p.bytes.drop 16).take (16 * (p.payload.length / 16)) = p.payload := by
    rw [h.bytes, List.drop_left' (leBytes_length 16 _)]
    exact List.take_of_length_le (by have := h.whole; omega)
  have notLong : ¬ 139 < p.payload.length / 16 := by have := h.short; omega
  simp only [Packet.ofBytes, head, dest, src, srcPart, cls, esc, poison, isLocal, ttl, flow, op, units, tag, body, if_neg notLong, ← local_]

end Machine
end Sys2Proof

namespace Sys2Proof.Proofs
open Sys2Proof Sys2Proof.Machine

/-- Settles O46: the two directions of the conversion, and its digits. -/
theorem littleEndianFields : Obligations.LittleEndianFields := ⟨leNat_leBytes, leBytes_leNat, leNat_digit⟩

/-- Settles O45: the header is one little-endian number, whose fields do not overlap. -/
theorem packetsReadBack : Obligations.PacketsReadBack := by
  intro p dest src srcPart cls ttl flow op tag whole short queued
  have fits : p.Fits := ⟨dest, src, srcPart, cls, ttl, flow, op, tag, whole, short⟩
  exact ⟨fits.ofBytes_bytes queued, fits.bytes⟩

end Sys2Proof.Proofs
end

section
/-! PROOF. Frit tiles (spec/04_frit_and_lehr_formats.md R137 to R144): bits cut into bytes and read back, and the elements of a tile through its
codebook. -/
namespace Sys2Proof.Machine

/-! ### Bits and bytes (R137) -/

@[simp] theorem bitsLsb_length (w v : Nat) : (bitsLsb w v).length = w := by
  induction w generalizing v with
  | zero => rfl
  | succ w ih => simp [bitsLsb, ih]

theorem packBits_bitsLsb (w v : Nat) : packBits (bitsLsb w v) = v % 2 ^ w := by
  induction w generalizing v with
  | zero => simp [bitsLsb, packBits, Nat.mod_one]
  | succ w ih =>
    have low : b2n (decide (v % 2 = 1)) = v % 2 := by
      rcases Nat.mod_two_eq_zero_or_one v with h | h <;> rw [h] <;> rfl
    rw [bitsLsb, packBits, ih, low, Nat.pow_succ' (m := 2) (n := w)]
    exact Nat.mod_mul.symm

theorem bitsLsb_packBits {n : Nat} {l : List Bool} (h : l.length = n) : bitsLsb n (packBits l) = l := by
  induction l generalizing n with
  | nil => rw [← h]; rfl
  | cons b l ih =>
    have hb := b2n_lt_two b
    have rest : (b2n b + 2 * packBits l) / 2 = packBits l := by omega
    have first : decide ((b2n b + 2 * packBits l) % 2 = 1) = b := by
      rw [show (b2n b + 2 * packBits l) % 2 = b2n b by omega]
      cases b <;> rfl
    rw [← h, List.length_cons, packBits, bitsLsb, rest, first, ih rfl]

theorem packBits_lt {n : Nat} {l : List Bool} (h : l.length = n) : packBits l < 2 ^ n := by
  induction l generalizing n with
  | nil => exact Nat.two_pow_pos n
  | cons b l ih =>
    have hb := b2n_lt_two b
    have hl := ih rfl
    rw [packBits, ← h, List.length_cons, Nat.pow_succ' (m := 2) (n := l.length)]
    omega

@[simp] theorem bitsToBytes_length (n : Nat) (l : List Bool) : (bitsToBytes n l).length = n := by
  induction n generalizing l with
  | zero => rfl
  | succ n ih => simp [bitsToBytes, ih]

theorem bytesToBits_bitsToBytes {n : Nat} {l : List Bool} (h : l.length = 8 * n) : bytesToBits (bitsToBytes n l) = l := by
  induction n generalizing l with
  | zero => rw [List.length_eq_zero_iff.mp h]; rfl
  | succ n ih =>
    have len : (l.take 8).length = 8 := by rw [List.length_take]; omega
    have byte : bitsLsb 8 (BitVec.ofNat 8 (packBits (l.take 8))).toNat = l.take 8 := by
      rw [BitVec.toNat_ofNat, Nat.mod_eq_of_lt (packBits_lt len)]
      exact bitsLsb_packBits len
    have rest : bytesToBits (bitsToBytes n (l.drop 8)) = l.drop 8 := ih (by rw [List.length_drop]; omega)
    rw [bytesToBits] at rest
    rw [bitsToBytes, bytesToBits, List.flatMap_cons, byte, rest, List.take_append_drop]

theorem pieces_flatMap {α β : Type} {k : Nat} (f : α → List β) (l : List α) (h : ∀ x ∈ l, (f x).length = k) :
    pieces k l.length (l.flatMap f) = l.map f := by
  induction l with
  | nil => rfl
  | cons x l ih =>
    have hx := h x List.mem_cons_self
    rw [List.length_cons, pieces, List.flatMap_cons, List.take_left' hx, List.drop_left' hx, ih fun y hy => h y (List.mem_cons_of_mem x hy)]
    rfl

/-! ### Elements (R141, R142) -/

variable {d : DType}

/-- The element widths of the types that Frit codes: sign, exponent and mantissa fill the element, and a tile's elements fill its bytes. -/
theorem DType.floating_widths (h : d.floating = true) : 8 * d.bytes = d.manBits + d.expBits + 1 ∧ d.fritBits * d.perTile = 8 * d.fritTile := by
  cases d <;> first | exact absurd h (by decide) | decide

theorem DType.split_join {v : Nat} (h : v < 2 ^ (d.manBits + d.expBits + 1)) : d.join (d.split v).1 (d.split v).2.1 (d.split v).2.2 = v := by
  have hs : v / 2 ^ d.manBits / 2 ^ d.expBits < 2 := by
    rw [Nat.div_div_eq_div_mul, ← Nat.pow_add, Nat.div_lt_iff_lt_mul (Nat.two_pow_pos _), ← Nat.pow_succ']
    exact h
  simp only [DType.split, DType.join, bits, Nat.pow_zero, Nat.div_one, Nat.pow_one]
  rw [Nat.add_comm d.expBits, Nat.pow_add, ← Nat.div_div_eq_div_mul, Nat.mod_eq_of_lt hs, Nat.div_add_mod', Nat.div_add_mod']

/-- An exponent that the codebook holds, or zero, gets a code of three bits that gives it back (R141, R144). -/
theorem fritMap_exact {cb : List Nat} (e man : Nat) (hlen : cb.length ≤ 7) (he : e = 0 ∨ e ∈ cb) :
    ∃ code, code < 8 ∧ fritMap d cb e man = (code, man, false) ∧
      (if code = 0 then 0 else (cb ++ List.replicate (7 - cb.length) 0).getD (code - 1) 0) = e := by
  by_cases hz : e = 0
  · exact ⟨0, by decide, by rw [fritMap, if_pos hz], by rw [if_pos rfl, hz]⟩
  · have hmem : e ∈ cb := he.resolve_left hz
    have hix : cb.idxOf e < cb.length := List.idxOf_lt_length_of_mem hmem
    refine ⟨codeOf cb e, by rw [codeOf]; omega, ?_, ?_⟩
    · rw [fritMap, if_neg hz, if_pos (List.contains_iff_mem.mpr hmem)]
    · rw [codeOf, if_neg (Nat.succ_ne_zero _), Nat.add_sub_cancel, List.getD_eq_getElem?_getD, List.getElem?_append_left hix,
        List.getElem?_eq_getElem hix, Option.getD_some, List.getElem_idxOf hix]

theorem fritElem_length (cb : List Nat) (v : Nat) : (fritElem d cb v).length = d.fritBits := bitsLsb_length _ _

/-- The value of a Frit element's bits, as `fritTileDecode` expands them with the padded codebook. -/
def fritValue (d : DType) (cb : List Nat) (l : List Bool) : Nat :=
  d.join (bits (packBits l) (3 + d.manBits) 1) (if bits (packBits l) d.manBits 3 = 0 then 0 else cb.getD (bits (packBits l) d.manBits 3 - 1) 0)
    (bits (packBits l) 0 d.manBits)

theorem fritTileDecode_eq (cb : List Nat) (body : List Byte) : fritTileDecode d cb body =
    (pieces d.fritBits d.perTile (bytesToBits body)).flatMap (fun l => leBytes d.bytes (fritValue d cb l)) := rfl

/-- The three fields of a Frit element, above each other. -/
theorem frit_fields {sign code man w : Nat} (hs : sign < 2) (hc : code < 8) (hm : man < 2 ^ w) :
    bits ((sign * 8 + code) * 2 ^ w + man) (3 + w) 1 = sign ∧ bits ((sign * 8 + code) * 2 ^ w + man) w 3 = code ∧
    bits ((sign * 8 + code) * 2 ^ w + man) 0 w = man ∧ (sign * 8 + code) * 2 ^ w + man < 2 ^ (4 + w) := by
  have top : ((sign * 8 + code) * 2 ^ w + man) / 2 ^ w = sign * 8 + code := by
    rw [Nat.add_comm, Nat.add_mul_div_right _ _ (Nat.two_pow_pos w), Nat.div_eq_of_lt hm, Nat.zero_add]
  have low : ((sign * 8 + code) * 2 ^ w + man) % 2 ^ w = man := by
    rw [Nat.mul_add_mod', Nat.mod_eq_of_lt hm]
  simp only [bits, Nat.pow_zero, Nat.div_one, low, Nat.add_comm 3 w, Nat.add_comm 4 w, Nat.pow_add, ← Nat.div_div_eq_div_mul, top]
  refine ⟨by omega, by omega, trivial, ?_⟩
  calc (sign * 8 + code) * 2 ^ w + man < (sign * 8 + code + 1) * 2 ^ w := by rw [Nat.succ_mul]; omega
    _ ≤ 16 * 2 ^ w := Nat.mul_le_mul_right _ (by omega)
    _ = 2 ^ w * 2 ^ 4 := Nat.mul_comm _ _

/-- An element with a coded exponent reads back exactly. -/
theorem fritValue_fritElem {cb : List Nat} {v : Nat} (hd : d.floating = true) (hlen : cb.length ≤ 7) (hv : v < 2 ^ (8 * d.bytes))
    (he : (d.split v).2.1 = 0 ∨ (d.split v).2.1 ∈ cb) : fritValue d (cb ++ List.replicate (7 - cb.length) 0) (fritElem d cb v) = v := by
  obtain ⟨code, hcode, hmap, hexp⟩ := fritMap_exact (d := d) (d.split v).2.1 (d.split v).2.2 hlen he
  have hsign : (d.split v).1 < 2 := Nat.mod_lt _ (by decide)
  have hman : (d.split v).2.2 < 2 ^ d.manBits := Nat.mod_lt _ (Nat.two_pow_pos _)
  obtain ⟨sign, ecode, man, fits⟩ := frit_fields hsign hcode hman
  have packed : packBits (fritElem d cb v) = ((d.split v).1 * 8 + code) * 2 ^ d.manBits + (d.split v).2.2 := by
    simp only [fritElem, hmap, packBits_bitsLsb]
    exact Nat.mod_eq_of_lt fits
  rw [fritValue, packed, sign, ecode, man, hexp]
  exact DType.split_join ((DType.floating_widths hd).1 ▸ hv)

/-- The elements of a tile, from its body. -/
theorem pieces_fritTileEncode {cb vs : List Nat} (hd : d.floating = true) (hvs : vs.length = d.perTile) :
    pieces d.fritBits d.perTile (bytesToBits (fritTileEncode d cb vs)) = vs.map (fritElem d cb) := by
  have len : (vs.flatMap (fritElem d cb)).length = 8 * d.fritTile := by
    rw [← (DType.floating_widths hd).2, ← hvs, List.length_flatMap, List.map_congr_left (fun v _ => fritElem_length cb v), List.map_const', List.sum_replicate_nat]
    exact Nat.mul_comm _ _
  rw [fritTileEncode, bytesToBits_bitsToBytes len, ← hvs]
  exact pieces_flatMap _ _ fun v _ => fritElem_length cb v

end Sys2Proof.Machine

namespace Sys2Proof.Proofs
open Sys2Proof Sys2Proof.Machine

/-- Settles O60: a tile's bits are its elements without gaps, and each element reads back. -/
theorem fritTilesReadBack : Obligations.FritTilesReadBack := by
  intro d cb vs hd hlen _ _ hvs hv
  refine ⟨bitsToBytes_length _ _, ?_⟩
  rw [fritTileDecode_eq, pieces_fritTileEncode hd hvs, List.flatMap_map, List.flatMap_def, List.flatMap_def]
  refine congrArg List.flatten (List.map_congr_left fun v hmem => ?_)
  obtain ⟨hlt, he⟩ := hv v hmem
  rw [fritValue_fritElem hd hlen hlt he]

end Sys2Proof.Proofs
end

section
/-! PROOF. Bytes that are stored with their enables (spec/00_scope.md, spec/03_tiers_and_panes.md R386): they read back, and no other byte changes. -/
namespace Sys2Proof.Machine

variable {m : Mem}

/-- One byte with its enable. -/
theorem Mem.wf_wr_if (on : Bool) (a : Nat) (b : Byte) (h : Mem.wf m = true) : Mem.wf (if on then Mem.wr m a b else m) = true := by
  split
  · exact Mem.wf_wr a b h
  · exact h

theorem Mem.rd_wr_if_other (on : Bool) {a j : Nat} (b : Byte) (h : Mem.wf m = true) (hj : j ≠ a) :
    Mem.rd (if on then Mem.wr m a b else m) j = Mem.rd m j := by
  split
  · exact Mem.rd_wr_other b h hj
  · rfl

/-- No byte outside the range changes. -/
theorem mergeBytes_rd_outside {a j : Nat} (bs : List Byte) (en : List Bool) (h : Mem.wf m = true) (hj : j < a ∨ a + bs.length ≤ j) :
    Mem.rd (mergeBytes m a bs en) j = Mem.rd m j := by
  induction bs generalizing m a en with
  | nil => rfl
  | cons b bs ih =>
    rw [List.length_cons] at hj
    rw [mergeBytes, ih _ (Mem.wf_wr_if _ a b h) (by omega), Mem.rd_wr_if_other _ b h (by omega)]

/-- A byte of the range reads as stored where it is enabled, and as before where it is not. -/
theorem mergeBytes_rd_inside {a i : Nat} (bs : List Byte) (en : List Bool) (h : Mem.wf m = true) (hi : i < bs.length) :
    Mem.rd (mergeBytes m a bs en) (a + i) = if en.getD i true then bs.getD i 0 else Mem.rd m (a + i) := by
  induction bs generalizing m a en i with
  | nil => exact absurd hi (Nat.not_lt_zero i)
  | cons b bs ih =>
    have wf := Mem.wf_wr_if (en.headD true) a b h
    rw [mergeBytes]
    cases i with
    | zero =>
      have head : en.getD 0 true = en.headD true := by cases en <;> rfl
      rw [mergeBytes_rd_outside _ _ wf (by omega), head, List.getD_cons_zero, Nat.add_zero]
      split
      · exact Mem.rd_wr_same a b h
      · rfl
    | succ i =>
      have tail : en.getD (i + 1) true = en.tail.getD i true := by cases en <;> rfl
      rw [← Nat.add_assoc, Nat.add_right_comm, ih _ wf (Nat.lt_of_succ_lt_succ hi), Mem.rd_wr_if_other _ b h (by omega), tail, List.getD_cons_succ]

end Sys2Proof.Machine

namespace Sys2Proof.Proofs
open Sys2Proof Sys2Proof.Machine

/-- Settles O52: what a byte inside the store, a byte outside it, and the canonical form come to. -/
theorem storedBytesReadBack : Obligations.StoredBytesReadBack := fun _ a bs en h =>
  ⟨mergeBytes_wf a bs en h, fun _ => mergeBytes_rd_inside bs en h, fun _ => mergeBytes_rd_outside bs en h⟩

end Sys2Proof.Proofs
end

section
/-! PROOF. INTx of a function (spec/14_host_ports.md R453): what its message says, and what bringing it up to date leaves alone. -/
namespace Sys2Proof.Machine

variable (m : Mod)

theorem Mod.ld_setLd_same (l : Nat) (f : Ld → Ld) : (m.setLd l f).ld l = f (m.ld l) := by
  rw [Mod.ld, Mod.setLd_lds, Tbl.updD, Tbl.findD, Tbl.find_put_same]
  rfl

/-- A change of a function that keeps its status and enable registers keeps the interrupt condition. -/
theorem Ld.intxCond_setFunc (d : Ld) (fn : Nat) (f : Function → Function) (hs : ∀ x, (f x).intxStatus = x.intxStatus)
    (he : ∀ x, (f x).intxEnable = x.intxEnable) : (d.setFunc fn f).intxCond fn = d.intxCond fn := by
  unfold Ld.intxCond Ld.intxStatus Ld.func Ld.setFunc
  split <;> simp only [hs, he]

theorem Ld.func_setFunc (d : Ld) (fn : Nat) (f : Function → Function) : (d.setFunc fn f).func fn = f (d.func fn) := by
  unfold Ld.func Ld.setFunc
  split <;> rfl

@[simp] theorem Mod.backToL0_lds (l : Nat) : (m.backToL0 l).lds = m.lds := by
  unfold Mod.backToL0 Mod.takeClkreq
  split <;> rfl

@[simp] theorem Mod.backToL0_ld (l k : Nat) : (m.backToL0 l).ld k = m.ld k := by
  rw [Mod.ld, Mod.backToL0_lds, Mod.ld]

/-- Whether INTx of a function is to be asserted (R453). -/
def Mod.intxNow (m : Mod) (l fn : Nat) : Bool := (m.ld l).intxCond fn && !((m.ld l).func fn).intDisable

theorem Mod.syncIntx_of_eq {l fn : Nat} (h : ((m.ld l).func fn).asserted = m.intxNow l fn) : m.syncIntx l fn = m := if_pos h.symm

theorem Mod.syncIntx_of_ne {l fn : Nat} (h : ((m.ld l).func fn).asserted ≠ m.intxNow l fn) : m.syncIntx l fn =
    ((m.setLd l (fun d => d.setFunc fn (fun f => { f with asserted := m.intxNow l fn }))).backToL0 l).send (.intx l fn (m.intxNow l fn)) :=
  if_neg (Ne.symm h)

/-- The link's return to L0 drives CLKREQ# at most, which is no message (R649). -/
theorem Mod.backToL0_out (l : Nat) : ∃ wakes : List Output,
    wakes.all (fun o => match o with | .intx _ _ _ => false | _ => true) = true ∧ (m.backToL0 l).out = m.out ++ wakes := by
  unfold Mod.backToL0 Mod.takeClkreq
  split
  · exact ⟨[_], rfl, rfl⟩
  · exact ⟨[], rfl, (List.append_nil _).symm⟩

end Sys2Proof.Machine

namespace Sys2Proof.Proofs
open Sys2Proof Sys2Proof.Machine

/-- Settles O51: the function's INTx agrees already, or is brought to agree by one message. -/
theorem interruptsFollowTheirBits : Obligations.InterruptsFollowTheirBits := by
  intro m l fn _
  by_cases h : ((m.ld l).func fn).asserted = m.intxNow l fn
  · rw [m.syncIntx_of_eq h]
    exact ⟨rfl, h, fun _ => rfl, fun changed => absurd h changed⟩
  · have ld : (m.syncIntx l fn).ld l = (m.ld l).setFunc fn (fun f => { f with asserted := m.intxNow l fn }) := by
      rw [m.syncIntx_of_ne h]
      exact (Mod.backToL0_ld _ l l).trans (m.ld_setLd_same l _)
    refine ⟨?_, ?_, fun same => absurd same h, fun _ => ?_⟩
    · rw [ld]
      exact Ld.intxCond_setFunc _ _ _ (fun _ => rfl) (fun _ => rfl)
    · rw [ld, Ld.func_setFunc]
      rfl
    · obtain ⟨wakes, quiet, out⟩ := Mod.backToL0_out (m.setLd l (fun d => d.setFunc fn (fun f => { f with asserted := m.intxNow l fn }))) l
      refine ⟨wakes, quiet, ?_⟩
      rw [m.syncIntx_of_ne h, Mod.send_out, out]
      rfl

end Sys2Proof.Proofs
end

section
/-! PROOF. HDM decoders (spec/14_host_ports.md R447). -/
namespace Sys2Proof.Machine

variable {d : HdmDecoder} {hpa : Nat}

/-- A committed decoder's range. -/
structure HdmDecoder.Takes (d : HdmDecoder) (hpa : Nat) : Prop where
  committed : d.committed = true
  low : d.base ≤ hpa
  high : hpa < d.base + d.size

theorem HdmDecoder.map_of_takes (h : d.Takes hpa) : d.map hpa = some (d.dpaBase + (hpa - d.base) / 2 ^ (d.granLog2 + d.waysLog2) * 2 ^ d.granLog2 +
    (hpa - d.base) % 2 ^ d.granLog2) := if_pos ⟨h.committed, h.low, h.high⟩

theorem HdmDecoder.map_of_not_takes (h : ¬ d.Takes hpa) : d.map hpa = none := if_neg fun ⟨committed, low, high⟩ => h ⟨committed, low, high⟩

end Sys2Proof.Machine

namespace Sys2Proof.Proofs
open Sys2Proof Sys2Proof.Machine

/-- Settles O54: within its range a decoder's map is a function of the two parts of the offset that the ways leave. -/
theorem decoderMapping : Obligations.DecoderMapping := by
  refine fun d hpa => ⟨fun committed low high => ?_, fun outside => ?_, fun hpa2 committed low high low2 high2 above below => ?_⟩
  · rw [HdmDecoder.map_of_takes ⟨committed, low, high⟩, Nat.shiftRight_eq_div_pow, Nat.shiftLeft_eq]
  · refine HdmDecoder.map_of_not_takes fun ⟨committed, low, high⟩ => ?_
    rcases outside with free | below | above
    · exact absurd committed (by simp [free])
    · omega
    · omega
  · rw [HdmDecoder.map_of_takes ⟨committed, low, high⟩, HdmDecoder.map_of_takes ⟨committed, low2, high2⟩, above, below]

end Sys2Proof.Proofs
end

section
/-! PROOF. Table generations (spec/05_compression_engines.md R166) and the clearing of the error log (spec/15_integrity_poison.md R486, R490). -/
namespace Sys2Proof.Machine

/-! ### The number of a new generation (R166) -/

/-- The number that comes `k` places after the current one. -/
def genAfter (c k : Nat) : Nat := (c + 1 + k) % 16

/-- With a current generation, the next number is the nearest after it that is not live. -/
theorem Tables.nextGen_of_current {t : Tables} {c : Nat} (h : t.current = some c) :
    t.nextGen = ((List.range 16).find? (fun k => !Tbl.has t.gens (genAfter c k))).map (genAfter c) := by
  simp only [Tables.nextGen, h]
  exact List.find?_map

theorem Tables.nextGen_eq_some {t : Tables} {c n : Nat} (h : t.current = some c) (hn : t.nextGen = some n) :
    ∃ k, k < 16 ∧ n = genAfter c k ∧ Tbl.has t.gens n = false ∧ ∀ j, j < k → Tbl.has t.gens (genAfter c j) = true := by
  rw [Tables.nextGen_of_current h, Option.map_eq_some_iff] at hn
  obtain ⟨k, hk, rfl⟩ := hn
  obtain ⟨free, lt, live⟩ := List.find?_range_eq_some.mp hk
  refine ⟨k, List.mem_range.mp lt, rfl, by simpa using free, fun j hj => by simpa using live j hj⟩

/-- There is none only while every number is live. -/
theorem Tables.nextGen_eq_none {t : Tables} {c n : Nat} (h : t.current = some c) (hn : t.nextGen = none) (hlt : n < 16) :
    Tbl.has t.gens n = true := by
  rw [Tables.nextGen_of_current h, Option.map_eq_none_iff, List.find?_eq_none] at hn
  have place : genAfter c ((n + 15 - c % 16) % 16) = n := by rw [genAfter]; omega
  have live := hn ((n + 15 - c % 16) % 16) (List.mem_range.mpr (Nat.mod_lt _ (by decide)))
  rw [place] at live
  simpa using live

/-- A region's tables once an image has been installed under the next number. -/
theorem Mod.installTable_region (m : Mod) {r n : Nat} (slot : Nat) (lens : List (Nat × Nat)) {g : Region} (hg : Tbl.find m.mem.regions r = some g)
    (hn : g.tables.nextGen = some n) : Tbl.find (m.installTable r slot lens).mem.regions r = some { g with tables := { g.tables with
      gens := Tbl.put g.tables.gens n { slot := slot, image := tableImage g.dtype n lens }, current := some n, histogram := [], storeWait := false } } := by
  simp only [Mod.installTable, Mod.setRegion_mem, Tbl.find_upd_same, Mod.setMem_mem, hg, Option.map_some, hn]

/-! ### ERROR_LOG_CLEAR (R486, R490) -/

variable (r : Req) (m : Mod)

theorem cmdErrorLogClear_status : (cmdErrorLogClear r m).2.status = .ok := rfl

/-- Clearing all takes every record and zeroes the LOST counters of the module and of each partition. -/
theorem cmdErrorLogClear_all (h : r.arg 0 8 = 0) : (cmdErrorLogClear r m).1 =
    (m.setErr (fun g => { g with recs := [], lost := [0, 0, 0, 0, 0] })).setMem (fun e => { e with
      parts := Tbl.mapV e.parts (fun _ p => { p with lost := [0, 0, 0, 0, 0] }) }) := by
  simp only [cmdErrorLogClear, h, if_true]
  rfl

/-- Clearing up to a number takes the records up to it, an appendix by its parent's number, and leaves the rest alone. -/
theorem cmdErrorLogClear_upto (h : r.arg 0 8 ≠ 0) : (cmdErrorLogClear r m).1 =
    m.setErr (fun g => { g with recs := g.recs.filter (fun x => decide (r.arg 0 8 < x.seq - x.parentDiff)) }) := by
  simp only [cmdErrorLogClear, if_neg h]
  rfl

end Sys2Proof.Machine

namespace Sys2Proof.Proofs
open Sys2Proof Sys2Proof.Machine

/-- Settles O58: the search goes once round the sixteen numbers, from the one after the current to the current itself. -/
theorem generationNumbers : Obligations.GenerationNumbers := by
  refine ⟨fun t c n hc hn => ?_, fun t c hc hn n => Tables.nextGen_eq_none hc hn, fun m r slot n lens g hg hn => ?_⟩
  · obtain ⟨k, hk, rfl, free, live⟩ := Tables.nextGen_eq_some hc hn
    have place : (genAfter c k + 15 - c % 16) % 16 = k := by rw [genAfter]; omega
    rw [place]
    exact ⟨Nat.mod_lt _ (by decide), free, live⟩
  · exact ⟨_, m.installTable_region slot lens hg hn, rfl, fun k hk => Tbl.find_put_other _ _ hk⟩

/-- Settles O59: the two forms of the command, by UPTO_SEQ. -/
theorem errorLogClears : Obligations.ErrorLogClears := by
  refine ⟨fun _ _ => rfl, fun r m => ?_⟩
  by_cases h : r.arg 0 8 = 0
  · rw [cmdErrorLogClear_all r m h]
    refine ⟨cmdErrorLogClear_status r m, rfl, fun x => ?_, fun _ => ⟨rfl, fun p x hx => ?_⟩, fun some => absurd h some⟩
    · simp [h]
    · rw [Mod.setMem_mem, Tbl.find_mapV, Option.map_eq_some_iff] at hx
      obtain ⟨_, _, rfl⟩ := hx
      rfl
  · rw [cmdErrorLogClear_upto r m h]
    refine ⟨cmdErrorLogClear_status r m, rfl, fun x => ?_, fun all => absurd all h, fun _ => ⟨rfl, rfl⟩⟩
    simp [h, List.mem_filter]

end Sys2Proof.Proofs
end

section
/-! PROOF. Flits of encrypted ports (spec/09_fabric_links_routing.md R310). -/
namespace Sys2Proof.Machine

/-- Nothing is unsealed on an encrypted port where ENC is clear or the tag fails. -/
theorem FabPort.unseal_eq_none {f : FabPort} {flit : List Byte} (he : f.encrypted = true)
    (h : bit (leNat (flit.take 8)) 14 = false ∨ Config.gcmOpen (f.rxFor (bit (leNat (flit.take 8)) 35)).1.key
      (f.rxFor (bit (leNat (flit.take 8)) 35)).1.iv (flit.take 8) ((flit.drop 8).take 244) = none) : f.unseal flit = none := by
  simp only [FabPort.unseal, he, Bool.not_true, Bool.false_eq_true, if_false]
  split
  · rfl
  next enc =>
    rw [h.resolve_left (by simpa using enc)]
    rfl

/-- The expected flit on a linked port, where nothing can be unsealed (R310). -/
theorem Mod.dataFlit_of_unseal_none (m : Mod) (serial i : Nat) {flit : List Byte} (linked : (m.fport i).linked = true) (good : flitGood flit = true)
    (kind : bits (leNat (flit.take 8)) 36 4 = 0 ∨ bits (leNat (flit.take 8)) 36 4 = 3)
    (seq : bits (leNat (flit.take 8)) 52 12 = (m.fport i).expected) (sealed_ : (m.fport i).unseal flit = none) :
    m.dataFlit serial i flit = ((m.ackFlit i (bits (leNat (flit.take 8)) 40 12) (bits (leNat (flit.take 8)) 32 3)
      (bits (leNat (flit.take 8)) 20 12)).logAuth i).losePort i 2 := by
  have kind' : ¬ (bits (leNat (flit.take 8)) 36 4 ≠ 0 ∧ bits (leNat (flit.take 8)) 36 4 ≠ 3) := by omega
  simp only [Mod.dataFlit, linked, good, Bool.not_true, Bool.false_eq_true, if_false, if_neg kind', seq, ne_eq, not_true_eq_false, sealed_]

end Sys2Proof.Machine

namespace Sys2Proof.Proofs
open Sys2Proof Sys2Proof.Machine

/-- Settles O57: the flit passes the checks before its seal, and nothing is unsealed. -/
theorem encryptedPortsRejectBadFlits : Obligations.EncryptedPortsRejectBadFlits := by
  rintro s port flit _ _ linked encrypted good rfl kind seq rfl bad
  show execDataFlit port flit s = _
  rw [execDataFlit, State.actF_eq, Mod.dataFlit_of_unseal_none _ _ _ linked good kind seq (FabPort.unseal_eq_none encrypted bad)]
  rfl

end Sys2Proof.Proofs
end

section
/-! PROOF. A host's line writes (spec/14_host_ports.md R448): where each goes once its request has been decoded. -/
namespace Sys2Proof.Machine

variable {m : Mod} {l tag hpa dpa r pane : Nat} {sel : VerSel} {win : Option Nat} {b : LdBind} {data : List Byte} {enable : List Bool} {poison : Bool}

/-- The write of a line at a DPA that reaches a pane. -/
def lineWrite (l tag dpa r pane : Nat) (sel : VerSel) (data : List Byte) (enable : List Bool) (poison : Bool) : HeldWrite :=
  { src := .host l tag, region := r, sel := sel, pane := pane, offset := dpa / 64 % 1024 * 64, bytes := data, enable := enable, poisoned := poison,
    wait := .frame }

/-- A write is neither discarded in CLEANUP or a module that drains, nor one through a view (R197, R219, R513). -/
structure Mod.TakesWrite (m : Mod) (l dpa r pane : Nat) (sel : VerSel) (win : Option Nat) (b : LdBind) : Prop where
  reach : m.reachOf l dpa = some (r, sel, pane, win)
  binding : Tbl.find m.mem.lds l = some b
  leased : b.lease ≠ .cleanup
  running : m.writesStopped = false
  notView : ∀ v, sel ≠ .sealed v

theorem Mod.hostWriteAt_submit (h : m.TakesWrite l dpa r pane sel win b) (hr : r < 0x8000) {g : Region} (hg : Tbl.find m.mem.regions r = some g)
    (hw : win ≠ none ∨ g.versioning = false) :
    m.hostWriteAt l tag dpa hpa data enable poison = m.submit (lineWrite l tag dpa r pane sel data enable poison) := by
  obtain ⟨reach, binding, leased, running, notView⟩ := h
  have plain : ¬ (win = none ∧ g.versioning = true) := by
    rintro ⟨hnone, hver⟩
    rcases hw with hw | hw
    · exact hw hnone
    · rw [hw] at hver
      cases hver
  simp only [Mod.hostWriteAt, reach, binding, if_neg leased, running, Bool.false_eq_true, if_false]
  split
  · exact absurd rfl (notView _)
  · rw [if_neg (Nat.not_le.mpr hr)]
    simp only [hg, if_neg plain]
    rfl

theorem Mod.hostWriteAt_fabric (h : m.TakesWrite l dpa r pane sel win b) (hr : 0x8000 ≤ r) :
    m.hostWriteAt l tag dpa hpa data enable poison = m.hostFabricWrite l tag (r - 0x8000) sel pane (dpa / 64 % 1024) data enable poison := by
  obtain ⟨reach, binding, leased, running, notView⟩ := h
  simp only [Mod.hostWriteAt, reach, binding, if_neg leased, running, Bool.false_eq_true, if_false]
  split
  · exact absurd rfl (notView _)
  · rw [if_pos hr]

/-- The module as a host's line write finds it: the host's traffic has been noted and the line counted. -/
def Mod.lineCounted (m : Mod) (l : Nat) : Mod := (m.hostTraffic l).count 0x0009 (0x6000 + l / 16) l (m.ldPart l) 64

theorem Mod.hostWrite_decoded (up : m.cxlUp l = true) (hd : (m.lineCounted l).decodeHpa l (hpa / 64 * 64) = some dpa) :
    m.hostWrite l tag hpa data enable poison =
      (m.lineCounted l).hostWriteAt l tag dpa hpa ((data ++ List.replicate 64 0).take 64) enable poison := by
  simp only [Mod.hostWrite, up, Bool.not_true, Bool.false_eq_true, if_false]
  simp only [Mod.lineCounted] at hd
  rw [hd]
  rfl

end Sys2Proof.Machine
end

section
/-! PROOF. What a host's write does to the contents of panes (spec/03_tiers_and_panes.md R111, R372, R386; spec/14_host_ports.md R448). -/
namespace Sys2Proof.Machine

variable (m : Mod)

/-- A fold of changes keeps what each of them keeps. -/
theorem Mod.each_keeps {α β : Type} (f : Mod → β) (g : Mod → α → Mod) (h : ∀ a x, f (g a x) = f a) (l : List α) : f (m.each l g) = f m := by
  induction l generalizing m with
  | nil => rfl
  | cons x l ih => exact (ih (g m x)).trans (h m x)

/-! ### The contents of records -/

/-- What the record with this key holds. -/
def Mod.imgAt (m : Mod) (j : Nat) : Option Mem := (Tbl.find m.mem.recs j).map (fun x => x.img)

theorem Mod.imgAt_of_recs {a b : Mod} (h : b.mem.recs = a.mem.recs) (j : Nat) : b.imgAt j = a.imgAt j := by
  rw [Mod.imgAt, h, Mod.imgAt]

theorem Quiet.imgAt {a b : Mod} (h : Quiet a b) (j : Nat) : b.imgAt j = a.imgAt j := Mod.imgAt_of_recs h.recs j

theorem Mod.setRec_imgAt (k : Nat) (f : PaneRec → PaneRec) (j : Nat) : (m.setRec k f).imgAt j =
    if j = k then (Tbl.find m.mem.recs k).map (fun x => (f x).img) else m.imgAt j := by
  rw [Mod.imgAt, Mod.setRec_mem]
  by_cases hj : j = k
  · rw [if_pos hj, hj, Tbl.find_upd_same, Option.map_map]
    rfl
  · rw [if_neg hj, Tbl.find_upd_other _ _ hj, Mod.imgAt]

/-- A change of a record that keeps its contents. -/
theorem Mod.setRec_imgAt_of_img (k : Nat) {f : PaneRec → PaneRec} (hf : ∀ x, (f x).img = x.img) (j : Nat) :
    (m.setRec k f).imgAt j = m.imgAt j := by
  rw [Mod.setRec_imgAt]
  split
  next h => simp only [h, hf, Mod.imgAt]
  next => rfl

/-! ### What a write does before it takes effect (R111, R372) -/

theorem Mod.bump_imgAt (k j : Nat) : (m.bump k).imgAt j = m.imgAt j := 
  m.setRec_imgAt_of_img k (f := fun x => { x with counter := satInc 255 x.counter }) (fun _ => rfl) j

theorem Mod.lineHit_imgAt (h k j : Nat) : (m.lineHit h k).imgAt j = m.imgAt j := by
  simp only [Mod.lineHit]
  split
  · exact Mod.bump_imgAt _ k j
  · rfl

theorem Mod.countWrite_imgAt (w : HeldWrite) (j : Nat) : (m.countWrite w).imgAt j = m.imgAt j := by
  unfold Mod.countWrite
  split
  · rfl
  split
  · rfl
  split
  · split
    · exact m.lineHit_imgAt _ _ j
    · rfl
  · exact m.bump_imgAt _ j

theorem Quiet.bulk (slot code data detail : Nat) : Quiet m (m.bulk slot code data detail) := by
  unfold Mod.bulk
  split
  · exact Quiet.refl m
  split
  · exact Quiet.refl m
  · exact Quiet.ringRecord m _ _

theorem Mod.noteStaging_imgAt (w : HeldWrite) (j : Nat) : (m.noteStaging w).imgAt j = m.imgAt j := by
  unfold Mod.noteStaging
  split
  · rfl
  split
  · rfl
  split
  · rfl
  · simp only
    split
    · rfl
    · exact (Quiet.bulk _ _ _ _ _).imgAt j

/-! ### The write itself (R386) -/

/-- The channels of T0 serve an access; what they hold and which of them are offline does not change. -/
theorem Mod.t0Access_keeps (write : Bool) (a n master : Nat) :
    (m.t0Access write a n master).mem.recs = m.mem.recs ∧ (m.t0Access write a n master).t0.offline = m.t0.offline := by
  refine Prod.mk.inj ?_
  unfold Mod.t0Access
  refine (Mod.each_keeps _ (fun a => (a.mem.recs, a.t0.offline)) _ (fun b g => ?_) _).trans rfl
  refine Prod.ext ?_ ?_
  · exact ((Quiet.count _ _ _ _ _ _).trans (Quiet.count _ _ _ _ _ _)).recs
  · exact (congrArg Tier0.offline ((Quiet.count _ _ _ _ _ _).trans (Quiet.count _ _ _ _ _ _)).t0 :)

/-- With every channel in service, a write to a raw frame stores its enabled bytes in that record and no other. -/
theorem Mod.putWrite_imgAt {k : Nat} {x : PaneRec} (w : HeldWrite) (hx : Tbl.find m.mem.recs k = some x) (ho : m.t0.offline = []) (j : Nat) :
    (m.putWrite k w).imgAt j = if j = k then some (mergeBytes x.img w.offset w.bytes w.enable) else m.imgAt j := by
  simp only [Mod.putWrite, hx]
  generalize hc : Mod.count m _ _ _ _ _ = m1
  have q1 : Quiet m m1 := hc ▸ Quiet.count m _ _ _ _ _
  generalize ht : m1.t0Access _ _ _ _ = m2
  obtain ⟨recs2, offline2⟩ := ht ▸ m1.t0Access_keeps _ _ _ _
  generalize hs : m2.spendMv _ _ _ _ = m3
  have q3 : Quiet m2 m3 := hs ▸ Quiet.spendMv m2 _ _ _ _
  have recs : m3.mem.recs = m.mem.recs := by rw [q3.recs, recs2, q1.recs]
  have offline : m3.t0.offline = [] := by rw [q3.t0, offline2, q1.t0, ho]
  rw [if_pos (Or.inl offline), Mod.setRec_imgAt, recs, hx, Mod.imgAt_of_recs recs]
  rfl

/-! ### A write that takes effect at once -/

theorem Quiet.hostCmp (l tag : Nat) (die : Option Nat) : Quiet m (m.hostCmp l tag die) := by
  have load : Quiet m (m.devLoad l die).2 := by
    unfold Mod.devLoad
    split
    · exact Quiet.refl m
    split
    · exact Quiet.choose m 4
    · simp only
      split
      · exact Quiet.refl m
      · exact Quiet.choose m 4
  exact load.trans (Quiet.send _ _)

theorem Quiet.noteLate (l : Nat) (issued : Option Nat) : Quiet m (m.noteLate l issued) := by
  have up (a : Mod) (c : Bool) (event : Nat) : Quiet a (if c then a.count event (0x6000 + l / 16) l (a.ldPart l) 1 else a) := by
    split
    · exact Quiet.count a _ _ _ _ _
    · exact Quiet.refl a
  exact ((up m _ _).trans (up _ _ _)).trans (up _ _ _)

/-- A host gets its completion. -/
theorem Quiet.writeDone_host {w : HeldWrite} {l tag : Nat} (h : w.src = .host l tag) : Quiet m (m.writeDone w) := by
  simp only [Mod.writeDone, h]
  exact (Quiet.noteLate m _ _).trans (Quiet.hostCmp _ _ _ _)

theorem Mod.recAt_find {r pane k : Nat} {sel : VerSel} {x : PaneRec} (h : m.recAt r sel pane = some (k, x)) : Tbl.find m.mem.recs k = some x := by
  unfold Mod.recAt at h
  split at h
  · split at h
    · cases h
      assumption
    · cases h
  · cases h

/-- The record of a pane that stands in a raw frame of T0, where the writing version alone names it. -/
structure Mod.InRawFrame (m : Mod) (w : HeldWrite) (k : Nat) (x : PaneRec) : Prop where
  recAt : m.recAt w.region w.sel w.pane = some (k, x)
  own : m.sharedFor w.sel k x = false
  notSealing : x.sealEncode = false
  stable : x.state = .stable
  tier : x.tier = .t0
  form : x.form = .raw

theorem Mod.tryWrite_of_inRawFrame {w : HeldWrite} {k e : Nat} {x : PaneRec} {g : Region} (h : m.InRawFrame w k x)
    (hg : Tbl.find m.mem.regions w.region = some g) (he : g.extentAt w.pane = some e) (bytes : w.image = none) :
    m.tryWrite w = .applied (m.putWrite k w) := by
  obtain ⟨recAt, own, notSealing, stable, tier, form⟩ := h
  simp [Mod.tryWrite, Mod.tryOwn, hg, he, bytes, recAt, own, notSealing, stable, tier, form]

theorem exec_memWr (ld : LdId) (hpa : BitVec 64) (tag : BitVec 16) (data : List Byte) (poison : Bool) (s : State) :
    exec (.memWr ld hpa tag data poison) s = .next (s.after (s.mach.hostWrite ld.toNat tag.toNat hpa.toNat data [] poison)) := rfl

theorem exec_memWrPtl (ld : LdId) (hpa : BitVec 64) (tag : BitVec 16) (data : List Byte) (enable : BitVec 64) (poison : Bool) (s : State) :
    exec (.memWrPtl ld hpa tag data enable poison) s = .next (s.after (s.mach.hostWrite ld.toNat tag.toNat hpa.toNat data
      ((List.range 64).map (fun i => bit enable.toNat i)) poison)) := rfl

/-- A write for which nothing waits takes effect at once. -/
theorem Mod.submit_applied {w : HeldWrite} {m1 : Mod} (waits : m.writeWaits w = none) (free : m.heldBack w = false)
    (first : ((m.countWrite w).noteStaging w).mem.heldWrites.find? (fun h => h.samePane w) = none)
    (applied : ((m.countWrite w).noteStaging w).tryWrite w = .applied m1) : m.submit w = m1.writeDone w := by
  simp [Mod.submit, waits, free, first, applied]

end Sys2Proof.Machine

namespace Sys2Proof.Proofs
open Sys2Proof Sys2Proof.Machine

/-- Settles O53: the write is counted, which changes no contents, then stored in its frame, and the completion changes none either. -/
theorem hostWritesReachTheirLine : Obligations.HostWritesReachTheirLine := by
  refine ⟨fun m w j => ((m.countWrite w).noteStaging_imgAt w j).trans (m.countWrite_imgAt w j), ?_⟩
  rintro s ld hpa tag data enable poison m dpa r pane sel win b g e en c w k x hc up hm decoded reach binding leased running notView hr hg hw hwrite
    waits free first recAt own sameHeld hg' he notSealing stable tier form service
  have line : w = lineWrite ld.toNat tag.toNat dpa r pane sel ((data ++ List.replicate 64 0).take 64) en poison := hwrite
  have runs : exec c s = .next (s.after (m.submit w)) := by
    obtain rfl : m = s.mach.lineCounted ld.toNat := hm
    rw [line]
    rcases hc with ⟨rfl, rfl⟩ | ⟨rfl, rfl⟩
    · rw [exec_memWr, Mod.hostWrite_decoded up decoded, Mod.hostWriteAt_submit ⟨reach, binding, leased, running, notView⟩ hr hg hw]
    · rw [exec_memWrPtl, Mod.hostWrite_decoded up decoded, Mod.hostWriteAt_submit ⟨reach, binding, leased, running, notView⟩ hr hg hw]
  obtain rfl : w.region = r := by rw [line]; rfl
  obtain rfl : w.sel = sel := by rw [line]; rfl
  obtain rfl : w.pane = pane := by rw [line]; rfl
  have host : w.src = .host ld.toNat tag.toNat := by rw [line]; rfl
  have bytes : w.image = none := by rw [line]; rfl
  have inFrame : ((m.countWrite w).noteStaging w).InRawFrame w k x := ⟨recAt, own, notSealing, stable, tier, form⟩
  have stored : m.submit w = (((m.countWrite w).noteStaging w).putWrite k w).writeDone w :=
    m.submit_applied waits free (by rw [sameHeld]; exact first) (Mod.tryWrite_of_inRawFrame _ inFrame hg' he bytes)
  refine ⟨_, runs, fun j => ?_⟩
  have quiet : Quiet (((m.countWrite w).noteStaging w).putWrite k w) (s.after (m.submit w)).mach := by
    rw [stored]
    exact (Quiet.writeDone_host _ host).trans (Quiet.settle _)
  refine (quiet.imgAt j).trans ((Mod.putWrite_imgAt _ w (Mod.recAt_find _ recAt) service j).trans ?_)
  split
  · rw [line]; rfl
  · exact ((m.countWrite w).noteStaging_imgAt w j).trans (m.countWrite_imgAt w j)

end Sys2Proof.Proofs
end

section
/-! PROOF. The commands of a channel page (O1). -/
namespace Sys2Proof

theorem Tbl.upd_of_find {α : Type} {t : Tbl α} {k : Nat} {v : α} (f g : α → α) (h : Tbl.find t k = some v) (e : f v = g v) :
    Tbl.upd t k f = Tbl.upd t k g := by
  simp only [Tbl.upd, h, e]

end Sys2Proof

namespace Sys2Proof.Machine

variable {m : Mod}

theorem Mod.setChan_of_find {ch : Nat} {c : Chan} (f g : Chan → Chan) (h : Tbl.find m.chans ch = some c) (e : f c = g c) :
    m.setChan ch f = m.setChan ch g := by
  rw [Mod.setChan, Mod.setChan, Tbl.upd_of_find f g h e]

theorem Mod.backToL0_blocked (l k fn : Nat) : (m.backToL0 l).blocked k fn = m.blocked k fn := by
  rw [Mod.blocked, Mod.blocked, Mod.backToL0_ld]

/-- A requester that reaches the module has its access carried out on the module as the access finds it. -/
theorem Mod.viaBar2_of_reaches {who : Owner} (h : Sys2Proof.reaches m who) (f : Mod → Mod) : m.viaBar2 who f = f (linked m who) := by
  cases who with
  | ld id =>
    obtain ⟨alive, shown, free⟩ := h
    simp only [Mod.viaBar2, linked, alive, shown, Mod.backToL0_blocked, free, Bool.not_true, Bool.false_eq_true, if_false]
  | mctp medium endpoint =>
    obtain ⟨alive, on, released, step, up⟩ := h
    simp only [Mod.viaBar2, linked, alive, on, released, step, up, Bool.not_false, Bool.false_eq_true, if_false, and_self, if_true]
  | peer d p =>
    obtain ⟨alive, on, released, step⟩ := h
    simp only [Mod.viaBar2, linked, alive, on, released, step, Bool.not_false, Bool.false_eq_true, if_false, and_self, if_true]
  | neighbour p =>
    obtain ⟨alive, on, released, step⟩ := h
    simp only [Mod.viaBar2, linked, alive, on, released, step, Bool.not_false, Bool.false_eq_true, if_false, and_self, if_true]

theorem Mod.pageAccess_of_reaches {who : Owner} (h : Sys2Proof.reaches m who) (f : Mod → Mod) : m.pageAccess who f = f (touched m who) := by
  rw [Mod.pageAccess, Mod.viaBar2_of_reaches h]
  cases who <;> rfl

theorem Mod.alive_of_reaches {who : Owner} (h : Sys2Proof.reaches m who) : m.gafferDead = false := by
  cases who <;> exact h.1

theorem linked_of_ldNo_none {who : Owner} (h : who.ldNo = none) : linked m who = m := by
  cases who with
  | ld id => cases h
  | _ => rfl

/-! ### What each operation of a page does where the channel lets it -/

theorem Mod.openChan_free {ch : Nat} (who : Owner) (h : Tbl.find m.chans ch = none) :
    m.openChan ch who = { m with chans := Tbl.put m.chans ch (Chan.init who) } := by
  simp only [Mod.openChan, Tbl.has, h, Option.isSome_none, Bool.false_eq_true, if_false]

theorem Mod.closeChan_owner {ch : Nat} {c : Chan} (h : Tbl.find m.chans ch = some c) :
    m.closeChan ch c.owner = m.setChan ch (fun c => { c with closing := true }) :=
  Mod.setChan_of_find _ _ h (if_pos rfl)

theorem Mod.chanFree_closing {ch : Nat} {c : Chan} (h : Tbl.find m.chans ch = some c) (hc : c.closing = true) (hi : c.inflight = none) :
    m.chanFree ch = m.freeChan ch := by
  simp only [Mod.chanFree, h, hc, hi, and_self, if_true]

theorem Mod.ring_accepted {ch : Nat} {c : Chan} (h : Tbl.find m.chans ch = some c) (hc : c.closing = false) (hi : c.inflight = none) :
    m.ring ch c.owner = m.acceptDoorbell ch c := by
  simp only [Mod.ring, h, hc, hi, ne_eq, not_true_eq_false, Bool.false_eq_true, or_self, if_false]

theorem Mod.clearChnErr_owner {ch : Nat} {c : Chan} (v : Nat) (h : Tbl.find m.chans ch = some c) :
    m.clearChnErr ch c.owner v = m.setChan ch (fun c => { c with err := c.err &&& ~~~(BitVec.ofNat 5 v) }) :=
  Mod.setChan_of_find _ _ h (if_pos rfl)

theorem Mod.resultWrite_owner {ch : Nat} {c : Chan} (h : Tbl.find m.chans ch = some c) : m.resultWrite ch c.owner = m.setChnErr ch 1 := by
  simp only [Mod.resultWrite, h, if_true]

theorem Mod.writeTail_owner {ch v : Nat} {c : Chan} {r : Ring} (h : Tbl.find m.chans ch = some c) (hr : c.ring = some r)
    (hv : (c.head - BitVec.ofNat 32 v).toNat ≤ 2 ^ r.log2) :
    m.writeTail ch c.owner v = (m.setChan ch (fun c => { c with tail := BitVec.ofNat 32 v })).flushHeld ch 64 := by
  simp only [Mod.writeTail, h, hr, Option.elim_some, hv, decide_true, and_self, if_true]

theorem Mod.chnMsg_wellFormed {who : Owner} {ch off len : Nat} {data : List Byte} (write : Bool) (align : off % 4 = 0) (whole : len % 4 = 0)
    (least : 4 ≤ len) (most : len ≤ 256) (inPage : off + len ≤ 0x1000) :
    m.chnMsg who write ch off len data =
      if write then (m.pageWrites who ch off (data.take len) 64).send (.chnResponse who ch off 0 [])
      else m.send (.chnResponse who ch off len (m.pageRead who ch off len)) := by
  have fits : ¬ (off % 4 ≠ 0 ∨ len % 4 ≠ 0 ∨ len < 4 ∨ 256 < len ∨ 0x1000 < off + len) := by omega
  rw [Mod.chnMsg, if_neg fits]

theorem exec_chnMsg {who : Owner} (s : State) (write : Bool) (ch : ChanNo) (offset : BitVec 12) (length : Nat) (data : List Byte)
    (h : reaches s.mach who) (hw : who.ldNo = none) : exec (.chnMsg who write ch offset length data) s =
      .next (s.after (s.mach.chnMsg who write ch.toNat offset.toNat length data)) := by
  show execChnMsg who write ch offset length data s = _
  rw [execChnMsg, State.act_eq, if_pos hw, Mod.viaBar2_of_reaches h, linked_of_ldNo_none hw]

end Sys2Proof.Machine

namespace Sys2Proof.Proofs
open Sys2Proof Sys2Proof.Machine

/-- Settles O1: a requester that reaches the module has its access carried out (`viaBar2_of_reaches`, `pageAccess_of_reaches`), and the
operation of its row then takes its one branch. -/
theorem channelCommandsComplete : Obligations.ChannelCommandsComplete := by
  unfold Obligations.ChannelCommandsComplete
  refine ⟨fun s ch who reach free => ?_, ?_, fun s ch c bound closing idle => ?_, fun s ch c bound noLd => ?_, ?_, ?_, ?_, ?_,
    fun s ch index c r l bound ring ld => ?_, fun s slot => rfl, fun s who ch offset length data reach noLd align whole least most inPage => ?_⟩
  · show execOpenChannel ch who s = _
    rw [execOpenChannel, State.act_eq, Mod.pageAccess_of_reaches reach, Mod.openChan_free who free]
  · rintro s ch _ c reach bound rfl
    show execCloseChannel ch _ s = _
    rw [execCloseChannel, State.act_eq, Mod.pageAccess_of_reaches reach, Mod.closeChan_owner bound]
  · show execChannelFree ch s = _
    rw [execChannelFree, State.act_eq, Mod.chanFree_closing bound closing idle]
  · show execChannelIdleTimeout ch s = _
    rw [execChannelIdleTimeout, State.act_eq]
    simp only [bound, noLd, if_true, Mod.moduleClose]
  · rintro s ch _ c reach bound rfl opened idle
    show execRingDoorbell ch _ s = _
    rw [execRingDoorbell, State.act_eq, Mod.alive_of_reaches reach, if_neg Bool.false_ne_true, Mod.viaBar2_of_reaches reach,
      Mod.ring_accepted bound opened idle]
  · rintro s ch _ value c reach bound rfl
    show execChnErrClear ch _ value s = _
    rw [execChnErrClear, State.act_eq, Mod.pageAccess_of_reaches reach, Mod.clearChnErr_owner _ bound]
  · rintro s ch _ c reach bound rfl
    show execResultSlotWrite ch _ s = _
    rw [execResultSlotWrite, State.act_eq, Mod.pageAccess_of_reaches reach, Mod.resultWrite_owner bound]
  · rintro s ch _ value c r reach bound rfl ring within
    show execCringTailWrite ch _ value s = _
    rw [execCringTailWrite, State.act_eq, Mod.pageAccess_of_reaches reach, Mod.writeTail_owner bound ring within]
  · show execRingWriteFailed ch index s = _
    rw [execRingWriteFailed, State.act_eq]
    simp only [bound, ring, ld]
  · have message := fun write => exec_chnMsg s write ch offset length data reach noLd
    simp only [message, Mod.chnMsg_wellFormed _ align whole least most inPage, if_true, Bool.false_eq_true, if_false, and_self]

end Sys2Proof.Proofs
end

section
/-! PROOF. The commands of the mailbox, with a signed object or without (O4 to O11): each row is one of two functions of the model, which
says once what the command's answer does. -/
namespace Sys2Proof.Machine

variable {m : Mod} {fz : Fuses} {ch op : Nat} {form : Mem → Bool} {c : Chan} {fl : InFlight}

/-- A command that is admitted posts the answer that it gives, and leaves its state where it gives none yet. -/
theorem Mod.serve_admitted {cmd : Cmd} {x : Mod × Reply} (turn : m.servable ch op form = some (c, fl))
    (admitted : (m.start ch).turnedAway ((m.start ch).reqOf fz ch c fl) = none) (effect : cmd ((m.start ch).reqOf fz ch c fl) (m.start ch) = x) :
    m.serve fz ch op form cmd = if x.2.status = .pending then x.1 else (x.1.post ch x.2).serveUnknown x.1.gaffer.order.length := by
  simp only [Mod.serve, turn, admitted, effect]

theorem Mod.serveF_admitted {cmd : Req → Fuses → Mod → (Fuses × Mod) × Reply} {x : (Fuses × Mod) × Reply}
    (turn : m.servable ch op form = some (c, fl)) (admitted : (m.start ch).turnedAway ((m.start ch).reqOf fz ch c fl) = none)
    (effect : cmd ((m.start ch).reqOf fz ch c fl) fz (m.start ch) = x) :
    m.serveF fz ch op form cmd =
      if x.2.status = .pending then x.1 else (x.1.1, (x.1.2.post ch x.2).serveUnknown x.1.2.gaffer.order.length) := by
  simp only [Mod.serveF, turn, admitted, effect]

theorem Status.ne_pending_of_final {t : Status} (h : t = .ok ∨ t = .accepted) : t ≠ .pending := by
  rcases h with rfl | rfl <;> decide

theorem mailboxCompletes_of_exec {row : ChanNo → Instr} {op : Nat} {form : Mem → Bool} {cmd : Cmd}
    (h : ∀ ch s, exec (row ch) s = s.mailbox ch op form cmd) : mailboxCompletes row op form cmd := by
  intro s ch c fl m rep turn admitted effect
  have step : exec (row ch) s = .next (s.after (s.mach.serve s.fuses ch.toNat op form cmd)) := h ch s
  rw [step, Mod.serve_admitted turn admitted effect]
  exact ⟨fun final => by rw [if_neg (Status.ne_pending_of_final final)], fun waits => by rw [if_pos waits]⟩

theorem signedCompletes_of_exec {row : ChanNo → Instr} {op : Nat} {cmd : Req → Fuses → Mod → (Fuses × Mod) × Reply}
    (h : ∀ ch s, exec (row ch) s = s.signedRow ch op cmd) : signedCompletes row op cmd := by
  intro s ch c fl fz m rep turn admitted effect
  have served := Mod.serveF_admitted turn admitted effect
  have step : exec (row ch) s = .next { s with
      mach := (s.mach.serveF s.fuses ch.toNat op anyForm cmd).2.settle, fuses := (s.mach.serveF s.fuses ch.toNat op anyForm cmd).1 } :=
    h ch s
  rw [step, served]
  exact ⟨fun final => by rw [if_neg (Status.ne_pending_of_final final)], fun waits => by rw [if_pos waits]⟩

end Sys2Proof.Machine

namespace Sys2Proof.Proofs
open Sys2Proof Sys2Proof.Machine

/-- Settles O4: each row is `State.mailbox` with the opcode, the form and the command that the statement names. -/
theorem channelAndIdentityCommandsComplete : Obligations.ChannelAndIdentityCommandsComplete := by
  unfold Obligations.ChannelAndIdentityCommandsComplete
  and_intros <;> exact mailboxCompletes_of_exec fun _ _ => rfl

/-- Settles O5: each row is `State.mailbox` with the opcode, the form and the command that the statement names. -/
theorem partitionAndRegionCommandsComplete : Obligations.PartitionAndRegionCommandsComplete := by
  unfold Obligations.PartitionAndRegionCommandsComplete
  and_intros <;> exact mailboxCompletes_of_exec fun _ _ => rfl

/-- Settles O6: each row is `State.mailbox` with the opcode, the form and the command that the statement names. -/
theorem versionResidencyTableCommandsComplete : Obligations.VersionResidencyTableCommandsComplete := by
  unfold Obligations.VersionResidencyTableCommandsComplete
  and_intros <;> exact mailboxCompletes_of_exec fun _ _ => rfl

/-- Settles O7: each row is `State.mailbox` with the opcode, the form and the command that the statement names. -/
theorem movementStreamRegulatorCommandsComplete : Obligations.MovementStreamRegulatorCommandsComplete := by
  unfold Obligations.MovementStreamRegulatorCommandsComplete
  and_intros <;> exact mailboxCompletes_of_exec fun _ _ => rfl

/-- Settles O8: each row is `State.mailbox` with the opcode, the form and the command that the statement names. -/
theorem integrityTestObservationCommandsComplete : Obligations.IntegrityTestObservationCommandsComplete := by
  unfold Obligations.IntegrityTestObservationCommandsComplete
  and_intros <;> exact mailboxCompletes_of_exec fun _ _ => rfl

/-- Settles O9: each row is `State.mailbox` with the opcode, the form and the command that the statement names. -/
theorem fabricCommandsComplete : Obligations.FabricCommandsComplete := by
  unfold Obligations.FabricCommandsComplete
  and_intros <;> exact mailboxCompletes_of_exec fun _ _ => rfl

/-- Settles O10: each row is `State.mailbox` with the opcode, the form and the command that the statement names. -/
theorem powerAndMeasurementCommandsComplete : Obligations.PowerAndMeasurementCommandsComplete := by
  unfold Obligations.PowerAndMeasurementCommandsComplete
  and_intros <;> exact mailboxCompletes_of_exec fun _ _ => rfl

/-- Settles O11: each row is `State.signedRow` with the opcode, the form and the command that the statement names. -/
theorem signedCommandsComplete : Obligations.SignedCommandsComplete := by
  unfold Obligations.SignedCommandsComplete
  and_intros <;> exact signedCompletes_of_exec fun _ _ => rfl

end Sys2Proof.Proofs
end

section
/-! PROOF. The descriptors of a sliver core (O2, O3). -/
namespace Sys2Proof.Machine

variable {m : Mod} {c op : Nat} {i : Issue}

/-- A descriptor whose operands are in range and at rest takes the effect of its unit, and its core goes on. -/
theorem Mod.issue_completes {eff : Effect} {m1 : Mod} (next : m.nextDesc c = some i) (opcode : i.d.op = op)
    (knownOk : spansOk i.k (i.d.knownSpans i.k) = true) (knownFree : spansFree i.k (i.k.busyUnits m.treeType) (i.d.knownSpans i.k) = true)
    (ok : spansOk i.k (m.spansOf i) = true) (free : spansFree i.k (i.k.busyUnits m.treeType) (m.spansOf i) = true)
    (effect : eff i m = (m1, none)) : m.issue c op eff =
      (m1.setCore c (fun k => { k with pc := k.pc + 1 })).count 0x0001 (coreUnit c) (0x2000 + i.v.partition) (some i.v.partition)
        (spanBytes (m.spansOf i)) := by
  simp only [Mod.issue, next, opcode, knownOk, knownFree, ok, free, effect, ne_eq, not_true_eq_false, Bool.not_true, Bool.false_eq_true,
    if_false]

theorem Mod.control_of_next {f : Desc → Core → Core} (next : m.nextDesc c = some i) (opcode : i.d.op = op) :
    m.control c op f = m.setCore c (f i.d) := by
  simp only [Mod.control, next, opcode, if_true]

theorem unitCompletes_of_exec {row : CoreNo → Instr} {op : Nat} {eff : Effect}
    (h : ∀ core s, (op = 0x72 → s.mach.roundStalls core.toNat = false) → exec (row core) s = .next (s.after (s.mach.issue core.toNat op eff))) :
    unitCompletes row op eff := by
  intro s core i m next opcode knownOk knownFree ok free effect notStalled
  rw [h core s notStalled, Mod.issue_completes next opcode knownOk knownFree ok free effect]

theorem exec_fabReduce {core : CoreNo} {s : State} (h : s.mach.roundStalls core.toNat = false) :
    exec (.fabReduce core) s = .next (s.after (s.mach.issue core.toNat 0x72 effFabReduce)) := by
  show execFabReduce core s = _
  rw [execFabReduce, State.act_eq, h, if_neg Bool.false_ne_true]

end Sys2Proof.Machine

namespace Sys2Proof.Proofs
open Sys2Proof Sys2Proof.Machine

/-- Settles O2: each row issues its descriptor, FAB_REDUCE once its round does not stall. -/
theorem unitDescriptorsComplete : Obligations.UnitDescriptorsComplete := by
  unfold Obligations.UnitDescriptorsComplete
  iterate 22 refine ⟨unitCompletes_of_exec fun _ _ _ => rfl, ?_⟩
  exact unitCompletes_of_exec fun _ _ flows => exec_fabReduce (flows rfl)

/-- Settles O3: each row but BARRIER is `Mod.control` of its opcode. -/
theorem sequencerDescriptorsComplete : Obligations.SequencerDescriptorsComplete := by
  unfold Obligations.SequencerDescriptorsComplete
  intro s core i next
  refine ⟨fun opcode => ?_, fun opcode => ?_, fun opcode => ?_, fun opcode => ?_, fun opcode rest => ?_⟩
  · exact congrArg (fun m => Host.Outcome.next (s.after m)) (Mod.control_of_next next opcode)
  · exact congrArg (fun m => Host.Outcome.next (s.after m)) (Mod.control_of_next next opcode)
  · exact congrArg (fun m => Host.Outcome.next (s.after m)) (Mod.control_of_next next opcode)
  · exact congrArg (fun m => Host.Outcome.next (s.after m)) (Mod.control_of_next next opcode)
  · show execBarrier core s = _
    simp only [execBarrier, State.act_eq, next, opcode, rest, and_self, if_true]

end Sys2Proof.Proofs
end

section
/-! PROOF. The mailboxes of the host and of the fabric manager, and DOE (O12 to O14). -/
namespace Sys2Proof.Machine

variable {m : Mod}

/-! ### The primary mailbox -/

/-- A function that answers takes an access to one of its registers as host traffic finds the module. -/
theorem Mod.statusAccess_of_presented {l fn : Nat} (shown : m.presented l = true) (free : m.blocked l fn = false) (f : Mod → Mod) :
    m.statusAccess l fn f = f (m.hostTraffic l) := by
  simp only [Mod.statusAccess, shown, free, Bool.not_true, Bool.false_eq_true, if_false]

theorem Mod.regAccess_of_reaches {ld : LdId} {fn : Nat} (h : hostReaches m ld fn) (f : Mod → Mod) :
    m.regAccess ld.toNat fn f = f (m.hostTraffic ld.toNat) := by
  obtain ⟨alive, shown, free⟩ := h
  rw [Mod.regAccess, alive, if_neg Bool.false_ne_true, Mod.statusAccess_of_presented shown free]

theorem Mod.primary_success {ld : LdId} {early : Bool} {answer : Mod → Answer} {m1 : Mod} {bytes : List Byte} (h : hostReaches m ld 0)
    (awake : early = true ∨ ((m.hostTraffic ld.toNat).ld ld.toNat).memoryActive = true)
    (success : answer (m.hostTraffic ld.toNat) = (m1, "Success", bytes)) :
    m.primary ld.toNat early answer = (m1.send (.mbox ld.toNat "Success" bytes)).setIntx ld.toNat 0 1 := by
  have runs : ¬ (!early ∧ !((m.hostTraffic ld.toNat).ld ld.toNat).memoryActive) := by
    rcases awake with h | h <;> simp only [h, Bool.not_true, Bool.false_eq_true, false_and, and_false, not_false_eq_true]
  rw [Mod.primary, Mod.regAccess_of_reaches h, if_neg runs, success]

theorem primaryCompletes_of_exec {row : Instr} {ld : LdId} {early : Bool} {answer : Mod → Answer}
    (h : ∀ s, exec row s = .next (s.after (s.mach.primary ld.toNat early answer))) : primaryCompletes row ld early answer := by
  intro s m bytes reach awake success
  rw [h, Mod.primary_success reach awake success]

/-! ### The fabric management API -/

/-- What a manager's command gives once the module is ready for it. -/
theorem Mod.fmApi_manager {medium : BitVec 3} {eid : Byte} {identity : Bool} (h : Sys2Proof.reaches m (.mctp medium eid))
    (listed : m.isManager (.mctp medium eid) = true) (ready : identity = true ∨ m.boot.readiness ≠ .booting) (f : Mod → Answer) :
    m.fmApi (.mctp medium eid) identity f = (f m).1.send (.fmApi (.mctp medium eid) (f m).2.1 (f m).2.2) := by
  have asked : ¬ (!identity ∧ m.boot.readiness = .booting) := by
    rcases ready with h | h <;> simp only [h, Bool.not_true, Bool.false_eq_true, false_and, and_false, not_false_eq_true]
  rw [Mod.fmApi, Mod.viaBar2_of_reaches h, linked_of_ldNo_none rfl]
  simp only [listed, Bool.not_true, Bool.false_eq_true, or_self, if_false, if_neg asked]

theorem Mod.fmApi_unsupported {who : Owner} {identity : Bool} (h : Sys2Proof.reaches m who)
    (stranger : (∀ medium eid, who ≠ .mctp medium eid) ∨ (linked m who).isManager who = false) (f : Mod → Answer) :
    m.fmApi who identity f = (linked m who).send (.fmApi who "Unsupported" []) := by
  unfold Mod.fmApi
  rw [Mod.viaBar2_of_reaches h]
  cases who with
  | mctp medium eid =>
    have unlisted : (linked m (.mctp medium eid)).isManager (.mctp medium eid) = false := stranger.resolve_left fun other => other _ _ rfl
    simp only [unlisted, Bool.not_false, or_true, if_true, rc]
  | _ => rfl

theorem Mod.fmApi_booting {medium : BitVec 3} {eid : Byte} (h : Sys2Proof.reaches m (.mctp medium eid))
    (listed : m.isManager (.mctp medium eid) = true) (booting : m.boot.readiness = .booting) (f : Mod → Answer) :
    m.fmApi (.mctp medium eid) false f = m.send (.fmApi (.mctp medium eid) "Retry Required" []) := by
  rw [Mod.fmApi, Mod.viaBar2_of_reaches h]
  simp only [linked, listed, booting, Bool.not_true, Bool.not_false, Bool.false_eq_true, or_self, and_self, if_false, if_true, rc]

theorem fmTurnedAway_of_exec {row : Owner → Instr} {identity : Bool} {f : Mod → Answer}
    (h : ∀ who s, exec (row who) s = .next (s.after (s.mach.fmApi who identity f))) : fmTurnedAway row identity := by
  intro s who reach
  rw [h]
  refine ⟨fun stranger => by rw [Mod.fmApi_unsupported reach stranger], ?_⟩
  rintro medium eid rfl listed rfl booting
  rw [Mod.fmApi_booting reach listed booting]

/-- A row of the fabric management API, for a manager that it is ready to answer. -/
theorem State.fmApi_manager {s : State} {medium : BitVec 3} {eid : Byte} {identity : Bool} {f : Mod → Answer} {m : Mod} {code : String}
    {bytes : List Byte} (h : Sys2Proof.reaches s.mach (.mctp medium eid)) (listed : s.mach.isManager (.mctp medium eid) = true)
    (ready : identity = true ∨ s.mach.boot.readiness ≠ .booting) (answer : f s.mach = (m, code, bytes)) :
    Host.Outcome.next (s.after (s.mach.fmApi (.mctp medium eid) identity f)) =
      (.next (s.after (m.send (.fmApi (.mctp medium eid) code bytes))) : Out) := by
  rw [Mod.fmApi_manager h listed ready, answer]

/-- An add whose extents can all be offered answers with them. -/
theorem ansInitiateDynamicCapacityAdd_ok {ld : LdId} {policy : AddPolicy} {count tag : Nat} {dpas es : List Nat} {m1 : Mod}
    (named : policy = .prescriptive ∧ dpas.any (fun a => a % 2 ^ 28 ≠ 0) = false ∧ es = dpas.map (· / 2 ^ 28) ∨
      policy = .free ∧ count ≠ 0 ∧ m.chooseExtents ld.toNat false count = some es ∨
      policy = .contiguous ∧ count ≠ 0 ∧ m.chooseExtents ld.toNat true count = some es)
    (some_ : es ≠ []) (distinct : es.eraseDups.length = es.length) (valid : es.any (m.addInvalid ld.toNat) = false)
    (room : ((m.ld ld.toNat).eventLogs.getD 4 []).length < 64)
    (listed : ((m.offer ld.toNat es tag).mem.extents.filter (fun e => e.2.pendingLds != [] || e.2.heldLds != [] || e.2.kept != none)).length ≤
      (if m.mem.mapInT0 then 524288 else 1048576))
    (reserved : (m.offer ld.toNat es tag).reserveMap = some m1)
    (clean : es.any (fun e => (Tbl.find m.mem.extents e).elim false (fun x => x.inCullet)) = false) :
    ansInitiateDynamicCapacityAdd ld policy count dpas tag m = ok m1 (le 4 es.length ++ es.flatMap (fun e => le 8 (e * 2 ^ 28))) := by
  have sound : ¬ (es = [] ∨ es.eraseDups.length ≠ es.length ∨ es.any (m.addInvalid ld.toNat) = true) := by
    simp only [some_, distinct, valid, ne_eq, not_true_eq_false, Bool.false_eq_true, or_self, not_false_eq_true]
  have fits : ¬ (64 ≤ ((m.ld ld.toNat).eventLogs.getD 4 []).length ∨ (if m.mem.mapInT0 then 524288 else 1048576) <
      ((m.offer ld.toNat es tag).mem.extents.filter (fun e => e.2.pendingLds != [] || e.2.heldLds != [] || e.2.kept != none)).length) := by
    rintro (full | more)
    · exact absurd room (Nat.not_lt.mpr full)
    · exact absurd listed (Nat.not_le.mpr more)
  rcases named with ⟨rfl, aligned, chosen⟩ | ⟨rfl, counted, chosen⟩ | ⟨rfl, counted, chosen⟩
  · subst chosen
    simp only [ansInitiateDynamicCapacityAdd, aligned, Bool.false_eq_true, if_false, if_neg sound, if_neg fits, reserved, clean]
  · simp only [ansInitiateDynamicCapacityAdd, counted, chosen, Bool.false_eq_true, if_false, if_neg sound, if_neg fits, reserved, clean]
  · simp only [ansInitiateDynamicCapacityAdd, counted, chosen, Bool.false_eq_true, if_false, if_neg sound, if_neg fits, reserved, clean]

/-- An LD holds an extent. -/
def Mod.ldHolds (m : Mod) (l e : Nat) : Bool := (Tbl.find m.mem.extents e).elim false (fun x => x.heldLds.contains l)

/-- An extent is pending for an LD. -/
def Mod.ldAwaits (m : Mod) (l e : Nat) : Bool := (Tbl.find m.mem.extents e).elim false (fun x => x.pendingLds.contains l)

/-- A release whose extents the LD holds, or may lose by force, is taken; by force it takes effect at once. -/
theorem ansInitiateDynamicCapacityRelease_ok {ld : LdId} {forced : Bool} {dpas : List Nat} (some_ : dpas.map (· / 2 ^ 28) ≠ [])
    (aligned : dpas.any (fun a => a % 2 ^ 28 ≠ 0) = false) (distinct : (dpas.map (· / 2 ^ 28)).eraseDups.length = (dpas.map (· / 2 ^ 28)).length)
    (held : (dpas.map (· / 2 ^ 28)).any (fun e => !m.ldHolds ld.toNat e && !(forced && m.ldAwaits ld.toNat e)) = false) :
    ansInitiateDynamicCapacityRelease ld forced dpas m = ok (if forced then
      (m.each (dpas.map (· / 2 ^ 28)) (fun m e =>
        if m.ldHolds ld.toNat e then m.forceRemoval ld.toNat e else if m.ldAwaits ld.toNat e then m.unpend ld.toNat e else m)).eventLog
          ld.toNat 4 (dcRecord 2 ld.toNat (dpas.map (· / 2 ^ 28)) 0) else m) := by
  have sound : ¬ (dpas.map (· / 2 ^ 28) = [] ∨ dpas.any (fun a => a % 2 ^ 28 ≠ 0) = true ∨
      (dpas.map (· / 2 ^ 28)).eraseDups.length ≠ (dpas.map (· / 2 ^ 28)).length ∨
      (dpas.map (· / 2 ^ 28)).any (fun e => !m.ldHolds ld.toNat e && !(forced && m.ldAwaits ld.toNat e)) = true) := by
    simp only [some_, aligned, distinct, held, ne_eq, not_true_eq_false, Bool.false_eq_true, or_self, not_false_eq_true]
  refine (if_neg sound).trans ?_
  cases forced <;> rfl

/-! ### DOE -/

theorem Mod.doeRequest_presented {l : Nat} (shown : m.presented l = true) (free : (m.ld l).f0.reset = 0) (f : Mod → Mod) :
    m.doeRequest l f = f (m.hostTraffic l) := by
  simp only [Mod.doeRequest, shown, free, Bool.not_true, Bool.false_eq_true, ne_eq, not_true_eq_false, if_false]

end Sys2Proof.Machine

namespace Sys2Proof.Proofs
open Sys2Proof Sys2Proof.Machine

/-- Settles O12: each row is `Mod.primary` with the answer that the statement names. -/
theorem primaryMailboxCompletes : Obligations.PrimaryMailboxCompletes := by
  unfold Obligations.PrimaryMailboxCompletes
  and_intros <;> intros <;> exact primaryCompletes_of_exec fun _ => rfl

/-- Settles O13: each row is `Mod.fmApi` with an answer that the cases of the statement determine. -/
theorem fabricManagerCommandsComplete : Obligations.FabricManagerCommandsComplete := by
  unfold Obligations.FabricManagerCommandsComplete
  refine ⟨fun s medium eid reach listed => ⟨?_, ?_⟩, fun s medium eid reach listed ready => ⟨?_, fun ld => ?_, ?_, fun region blockSize length base other => ?_,
    ?_, fun input => ?_⟩, ?_, ?_, ?_⟩
  · exact State.fmApi_manager reach listed (.inl rfl) rfl
  · exact State.fmApi_manager reach listed (.inl rfl) rfl
  · exact State.fmApi_manager reach listed (.inr ready) rfl
  · exact State.fmApi_manager reach listed (.inr ready) rfl
  · exact State.fmApi_manager reach listed (.inr ready) (if_pos ⟨rfl, rfl, rfl, rfl⟩)
  · exact State.fmApi_manager reach listed (.inr ready) (if_neg other)
  · rintro ld _ _ rfl rfl
    exact State.fmApi_manager reach listed (.inr ready) rfl
  · exact State.fmApi_manager reach listed (.inr ready) rfl
  · intro s medium eid ld policy count dpas tag es m reach listed ready named some_ distinct valid room fewer reserved clean
    exact State.fmApi_manager reach listed (.inr ready) (ansInitiateDynamicCapacityAdd_ok named some_ distinct valid room fewer reserved clean)
  · rintro s medium eid ld forced dpas _ _ _ reach listed ready rfl some_ aligned distinct rfl rfl held
    have answer := ansInitiateDynamicCapacityRelease_ok (m := s.mach) some_ aligned distinct held
    refine ⟨?_, ?_⟩
    · rintro rfl
      exact State.fmApi_manager reach listed (.inr ready) answer
    · rintro rfl
      exact State.fmApi_manager reach listed (.inr ready) answer
  · and_intros <;> intros <;> and_intros <;> exact fmTurnedAway_of_exec fun _ _ => rfl

/-- Settles O14: a DOE request that the function takes, a message from an endpoint that reaches the module and one over a link are each
answered by the responder. -/
theorem doeAndSpdmComplete : Obligations.DoeAndSpdmComplete := by
  unfold Obligations.DoeAndSpdmComplete
  refine ⟨fun s ld index shown free => ?_, fun s ld entry e shown free found => ?_, fun s ld request shown free short => ?_,
    fun s medium eid request reach => ?_, fun s port request up => ?_⟩
  · show execDoeDiscovery ld index s = _
    rw [execDoeDiscovery, State.act_eq, Mod.doeRequest_presented shown free, doeDoeDiscovery]
  · show execCxlTableAccess ld entry s = _
    simp only [execCxlTableAccess, State.act_eq, Mod.doeRequest_presented shown free, doeCxlTableAccess, found]
  · show execSpdmMessage (.ld ld) .doe request s = _
    simp only [execSpdmMessage, State.act_eq, Mod.doeRequest_presented shown free, if_neg (Nat.not_lt.mpr short)]
  · show execSpdmMessage (.mctp medium eid) .mctp request s = _
    simp only [execSpdmMessage, State.act_eq, Mod.viaBar2_of_reaches reach, linked]
  · show execSpdmMessage (.neighbour port) .key request s = _
    simp only [execSpdmMessage, State.act_eq, up, if_true]

end Sys2Proof.Proofs
end

section
/-! PROOF. Packets of the memory space, their answers, messages and reductions (O15 to O17). -/
namespace Sys2Proof.Machine

variable {m : Mod}

/-- The packet that arrives is the one that the row handles. -/
theorem Mod.onPacket_of_arrives {port : BitVec 4} {op : Nat} {q : Packet} {m1 : Mod} (h : arrives m port op q m1) (f : Packet → Mod → Mod) :
    m.onPacket port.toNat op f = f q m1 := by
  have taken : m.take port.toNat (fun q => q.op = op) = some (q, m1) := h
  simp only [Mod.onPacket, taken]

/-- The step of a row that handles the packet that arrives. -/
theorem State.onPacket_of_arrives {s : State} {port : BitVec 4} {op : Nat} {q : Packet} {m1 m2 : Mod} {f : Packet → Mod → Mod}
    (h : arrives s.mach port op q m1) (effect : f q m1 = m2) :
    Host.Outcome.next (s.after (s.mach.onPacket port.toNat op f)) = (.next (s.after m2) : Out) := by
  rw [Mod.onPacket_of_arrives h, effect]

/-! ### At the home -/

section Home
variable {port : BitVec 4} {p : Packet} {check : Media} {m1 : Mod} {r pane off : Nat} {sel : VerSel}

theorem onLineRd_reference (ref : bit p.refFlags 1 = false) (home : m.atHome p (p.index / 1024) false = (m1, some (r, sel, pane))) :
    onLineRd port check p m = m1.remoteLine p.flow p.src p.tag p.srcPart r sel pane (p.index % 1024) check := by
  simp only [onLineRd, ref, home, Bool.false_eq_true, if_false]

theorem onLineRd_address (ref : bit p.refFlags 1 = true) (home : m.absHome p port.toNat false = (m1, some (r, pane, off))) :
    onLineRd port check p m = m1.remoteLine p.flow p.src p.tag p.srcPart r .head pane (off / 64) check := by
  simp only [onLineRd, ref, home, if_true]

theorem onTileRd_reference (ref : bit p.refFlags 1 = false) (home : m.atHome p (p.index / 32) false = (m1, some (r, sel, pane))) :
    onTileRd port check p m = m1.remoteTile p.flow p.src p.tag p.srcPart r sel pane (p.index % 32) (bit p.refFlags 0) (bit p.refFlags 2)
      (bit p.refFlags 3) check := by
  simp only [onTileRd, ref, home, Bool.false_eq_true, if_false]

theorem onTileRd_address (ref : bit p.refFlags 1 = true) (home : m.absHome p port.toNat false = (m1, some (r, pane, off))) :
    onTileRd port check p m = m1.remoteTile p.flow p.src p.tag p.srcPart r .head pane (off / 2048) (bit p.refFlags 0) (bit p.refFlags 2)
      (bit p.refFlags 3) check := by
  simp only [onTileRd, ref, home, if_true]

/-- A write of another module that is neither stopped nor aimed at a fixed version enters the write path. -/
theorem Mod.remoteWrite_submit {g : Region} {bytes : List Byte} {poison : Bool} (goes : m.writesStopped = false)
    (found : Tbl.find m.mem.regions r = some g) (writable : g.versioning = false ∨ ∃ k, sel = .part k) :
    m.remoteWrite p r sel pane off bytes poison = m.submit {
      src := .remote p.flow p.src p.tag p.srcPart, region := r, sel := sel, pane := pane, offset := off, bytes := bytes, enable := [], poisoned := poison, wait := .frame } := by
  rcases writable with plain | ⟨k, rfl⟩
  · cases sel <;> simp only [Mod.remoteWrite, goes, found, plain, Option.elim_some, Bool.false_eq_true, if_false]
  · simp only [Mod.remoteWrite, goes, Bool.false_eq_true, if_false]

theorem onLineWr_reference (ref : bit p.refFlags 1 = false) (home : m.atHome p (p.index / 1024) true = (m1, some (r, sel, pane))) :
    onLineWr port p m = m1.remoteWrite p r sel pane (p.index % 1024 * 64) (((p.payload.drop 32) ++ List.replicate 64 0).take 64) p.poison := by
  simp only [onLineWr, ref, home, Bool.false_eq_true, if_false]

theorem onLineWr_address (ref : bit p.refFlags 1 = true) (home : m.absHome p port.toNat true = (m1, some (r, pane, off))) :
    onLineWr port p m = m1.remoteWrite p r .head pane (off / 64 * 64) (((p.payload.drop 32) ++ List.replicate 64 0).take 64) p.poison := by
  simp only [onLineWr, ref, home, if_true]

theorem onTileWr_reference (ref : bit p.refFlags 1 = false) (home : m.atHome p (p.index / 32) true = (m1, some (r, sel, pane))) :
    onTileWr port p m = m1.remoteWrite p r sel pane (p.index % 32 * 2048) (m.writtenTile p).1 (m.writtenTile p).2 := by
  simp only [onTileWr, ref, home, Bool.false_eq_true, if_false]

theorem onTileWr_address (ref : bit p.refFlags 1 = true) (home : m.absHome p port.toNat true = (m1, some (r, pane, off))) :
    onTileWr port p m = m1.remoteWrite p r .head pane (off / 2048 * 2048) (m.writtenTile p).1 (m.writtenTile p).2 := by
  simp only [onTileWr, ref, home, if_true]

end Home

/-! ### Messages -/

/-- The first and only packet of a message to a core that runs and has room for it. -/
theorem Mod.msgArrived_whole {p : Packet} {v : Nat × Movement} (bound : (m.core (p.flow % 4096)).movement.isSome = true)
    (runs : m.runOf (p.flow % 4096) = some v) (open_ : m.fm.refused.contains (p.flow % 4096, p.src, p.flow) = false) (first : p.num 4 4 = 0)
    (room : m.unmatched (p.flow % 4096) < 16) (whole : ((p.payload.drop 16).take (p.num 8 4)).length = p.num 8 4) :
    m.msgArrived p =
      (((m.setCore (p.flow % 4096) (fun k => { k with msgs := k.msgs ++ [{
          srcDevice := p.src, srcCore := p.num 0 2, tag := p.tag, data := (p.payload.drop 16).take (p.num 8 4), total := p.num 8 4 }] })).recvTrace (p.flow % 4096)
        { srcDevice := p.src, srcCore := p.num 0 2, tag := p.tag, data := (p.payload.drop 16).take (p.num 8 4), total := p.num 8 4 }).matchRecv
        (p.flow % 4096)) := by
  have idle : (m.core (p.flow % 4096)).movement.isNone = false := by rw [Option.isNone_eq_false_iff]; exact bound
  have fits : ¬ 16 ≤ m.unmatched (p.flow % 4096) := Nat.not_le.mpr room
  simp only [Mod.msgArrived, idle, runs, open_, first, fits, CoreMsg.whole, whole, Option.isNone_some, Bool.false_eq_true, or_self, false_and,
    Nat.sub_zero, decide_true, if_true, if_false]

theorem onMsgRefused_flow {p : Packet} {f : MsgFlow} {i : Nat}
    (flow : m.fab.flows.find? (fun (f : MsgFlow) => f.dest = p.src && f.core = p.flow % 4096) = some f)
    (meant : (f.sentWith p.tag)[(m.choose (f.sentWith p.tag).length).1]? = some i) :
    onMsgRefused p m = (m.choose (f.sentWith p.tag).length).2.setFab (fun e => { e with flows := e.flows.map (fun f =>
      if f.dest = p.src && f.core = p.flow % 4096 then f.refuse i else f) }) := by
  simp only [onMsgRefused, flow, Option.elim_some, meant]

theorem onMsgSlotFree_flow {p : Packet} {f : MsgFlow}
    (flow : m.fab.flows.find? (fun (f : MsgFlow) => f.dest = p.src && f.core = p.flow % 4096) = some f) :
    onMsgSlotFree p m = (m.setFab (fun e => { e with flows := e.flows.map (fun x =>
        if x.dest = p.src && x.core = p.flow % 4096 then { x with held := false, msgs := x.msgs.map (fun y => (false, y.2)) } else x) })).each
      ((f.msgs.filter (fun x => x.1)).flatMap (fun x => x.2)) Mod.sendPacket := by
  simp only [onMsgSlotFree, flow]

/-! ### Reductions -/

/-- A result for a round in which no core of this module waits goes on down the tree. -/
theorem onReduceResult_passes {p : Packet} {t : Tree} (tree : Tbl.find m.fm.trees (p.num 0 4) = some t) (none_ : t.round p.tag = none) :
    onReduceResult p m = m.each t.children (fun m d => m.sendPacket (m.packetTo d 2 p.flow 0x1C p.tag p.payload 0 p.poison)) := by
  simp only [onReduceResult, tree, none_]

theorem onReduceResult_whole {p : Packet} {t : Tree} {rd : TreeRound} {m2 : Mod} {xs : List Nat} {bad : Bool}
    (tree : Tbl.find m.fm.trees (p.num 0 4) = some t) (round : t.round p.tag = some rd)
    (added : m2 = (m.each t.children (fun m d => m.sendPacket (m.packetTo d 2 p.flow 0x1C p.tag p.payload 0 p.poison))).addPart (p.num 0 4) p.tag
      131072 (p.elements t.width) p.poison)
    (got : ((Tbl.find m2.fm.trees (p.num 0 4)).bind (fun t => t.round p.tag)).bind (fun r => Tbl.find r.got 131072) = some (xs, bad))
    (whole : t.elements ≤ xs.length) :
    onReduceResult p m = (m2.endRound (p.num 0 4) p.tag).deliverResult (p.num 0 4) p.tag t.width (xs.take t.elements) bad := by
  subst added
  simp only [onReduceResult, tree, round, got, if_neg (Nat.not_lt.mpr whole)]

end Sys2Proof.Machine

namespace Sys2Proof.Proofs
open Sys2Proof Sys2Proof.Machine

/-- Settles O15: each row handles the packet that arrives, by a reference or by an address. -/
theorem remoteAccessesComplete : Obligations.RemoteAccessesComplete := by
  unfold Obligations.RemoteAccessesComplete
  refine ⟨?_, ?_, ?_, ?_, ?_, ?_, ?_, ?_⟩
  · intro s port check q m1 m2 r pane sel arrived ref home _
    exact State.onPacket_of_arrives arrived (onLineRd_reference ref home)
  · intro s port check q m1 m2 r pane off arrived ref home _
    exact State.onPacket_of_arrives arrived (onLineRd_address ref home)
  · intro s port check q m1 m2 r pane sel arrived ref home _
    exact State.onPacket_of_arrives arrived (onTileRd_reference ref home)
  · intro s port check q m1 m2 r pane off arrived ref home _
    exact State.onPacket_of_arrives arrived (onTileRd_address ref home)
  · intro s port q m1 m2 r pane sel g arrived ref home goes found writable
    exact State.onPacket_of_arrives arrived ((onLineWr_reference ref home).trans (Mod.remoteWrite_submit goes found writable))
  · intro s port q m1 m2 r pane off g arrived ref home goes found plain
    exact State.onPacket_of_arrives arrived ((onLineWr_address ref home).trans (Mod.remoteWrite_submit goes found (.inl plain)))
  · intro s port q m1 m2 r pane sel g arrived ref home goes found writable
    exact State.onPacket_of_arrives arrived ((onTileWr_reference ref home).trans (Mod.remoteWrite_submit goes found writable))
  · intro s port q m1 m2 r pane off g arrived ref home goes found plain
    exact State.onPacket_of_arrives arrived ((onTileWr_address ref home).trans (Mod.remoteWrite_submit goes found (.inl plain)))

/-- Settles O16: the request that the answer names is the one that its handler settles. -/
theorem remoteAnswersComplete : Obligations.RemoteAnswersComplete := by
  unfold Obligations.RemoteAnswersComplete
  refine ⟨?_, ?_, ?_, ?_, ?_, ?_, ?_⟩
  · intro s port p m1 q l tag arrived request device kind host
    refine State.onPacket_of_arrives arrived ?_
    simp only [onLineData, request, device, kind, host, ne_eq, not_true_eq_false, if_false]
  · intro s port p m1 q arrived request device
    refine State.onPacket_of_arrives arrived ?_
    simp only [onTileData, request, device, ne_eq, not_true_eq_false, if_false]
  · intro s port p m1 q arrived request device
    refine State.onPacket_of_arrives arrived ?_
    simp only [onWrAck, request, device, ne_eq, not_true_eq_false, if_false]
  · intro s port p m1 q arrived request device
    refine State.onPacket_of_arrives arrived ?_
    simp only [onRedirect, request, device, ne_eq, not_true_eq_false, if_false]
  · intro s port p m1 q arrived request device
    refine State.onPacket_of_arrives arrived ?_
    simp only [onNack, request, device, ne_eq, not_true_eq_false, if_false]
  · intro s port p m1 q arrived request
    refine State.onPacket_of_arrives arrived ?_
    simp only [onUnreachable, request]
  · intro s port p m1 w arrived waits device
    refine State.onPacket_of_arrives arrived ?_
    simp only [onVersionRsp, waits, device, ne_eq, not_true_eq_false, if_false]

/-- Settles O17: each packet has the effect of its handler's one branch for it. -/
theorem messagesAndReductionsComplete : Obligations.MessagesAndReductionsComplete := by
  unfold Obligations.MessagesAndReductionsComplete
  refine ⟨?_, ?_, ?_, ?_, ?_, ?_⟩
  · intro s port p m1 v arrived bound runs open_ first room whole
    exact State.onPacket_of_arrives arrived (Mod.msgArrived_whole bound runs open_ first room whole)
  · intro s port p m1 f i arrived flow meant
    exact State.onPacket_of_arrives arrived (onMsgRefused_flow flow meant)
  · intro s port p m1 f arrived flow
    exact State.onPacket_of_arrives arrived (onMsgSlotFree_flow flow)
  · intro s port p m1 m2 t taken tree child live opened
    show execReducePart port s = _
    simp only [execReducePart, State.act_eq, taken, tree, child, live, opened, Bool.not_true, Bool.false_eq_true, or_self, if_false]
  · intro s port p m1 t arrived tree none_
    exact State.onPacket_of_arrives arrived (onReduceResult_passes tree none_)
  · intro s port p m1 m2 t rd xs bad arrived tree round added got whole
    exact State.onPacket_of_arrives arrived (onReduceResult_whole tree round added got whole)

end Sys2Proof.Proofs
end

section
/-! PROOF. The operations on versions and on the map of a fabric region (O18, O19). -/
namespace Sys2Proof.Machine

variable {m : Mod} {port : BitVec 4} {op : Nat} {q : Packet} {f : FabRegion} {g : Region} {m1 m2 : Mod}

/-- The operation that arrives is the one that the row handles. -/
theorem Mod.onVop_of_arrives (h : vopArrives m port op q f m1) (k : Packet → FabRegion → Mod → Mod) : m.onVop port.toNat op k = k q f m1 := by
  obtain ⟨taken, joined⟩ := h
  simp only [Mod.onVop, taken, joined]

theorem Mod.atRegistrar_of_gets (h : registrarGets m port op q f g m1) (k : Packet → FabRegion → Region → Mod → Mod) :
    m.atRegistrar port.toNat op k = k q f g m1 := by
  obtain ⟨arrived, local_, registrar⟩ := h
  rw [Mod.atRegistrar, Mod.onVop_of_arrives arrived]
  simp only [local_, registrar, if_true]

theorem State.onVop_of_arrives {s : State} {k : Packet → FabRegion → Mod → Mod} (h : vopArrives s.mach port op q f m1) (effect : k q f m1 = m2) :
    Host.Outcome.next (s.after (s.mach.onVop port.toNat op k)) = (.next (s.after m2) : Out) := by
  rw [Mod.onVop_of_arrives h, effect]

theorem State.atRegistrar_of_gets {s : State} {k : Packet → FabRegion → Region → Mod → Mod} (h : registrarGets s.mach port op q f g m1)
    (effect : k q f g m1 = m2) : Host.Outcome.next (s.after (s.mach.atRegistrar port.toNat op k)) = (.next (s.after m2) : Out) := by
  rw [Mod.atRegistrar_of_gets h, effect]

/-! ### Checkpoints come to the registrar and to the members -/

theorem exec_vopCheckpoint {s : State} (h : vopArrives s.mach port 0x05 q f m1) (part : Tbl.find m1.mem.regions f.localRegion = some g) :
    exec (.vopCheckpoint port) s = .next (s.after (
      if f.registrar = m1.fab.deviceId then onVopCheckpoint q f g m1
      else if f.registrar = q.src ∧ q.arg0 = 0 then onMemberCheckpoint q f m1
      else m1.nack q.flow q.src q.tag 3)) := by
  refine State.onVop_of_arrives h ?_
  simp only [part]

/-! ### REHOME -/

theorem onRehomeForward_starts (some_ : q.arg1 % 2 ^ 32 ≠ 0) (within : q.arg0 + q.arg1 % 2 ^ 32 ≤ f.units)
    (member : f.members.contains (bits q.arg1 32 16) = true)
    (apart : m.fm.rehomes.any (fun h => h.fregion = q.fregion && decide (h.unit < q.arg0 + q.arg1 % 2 ^ 32) && decide (q.arg0 < h.unit + h.left)) = false) :
    onRehomeForward q f g m = (m.setFm (fun e => { e with rehomes := e.rehomes ++ [{
      fregion := q.fregion, unit := q.arg0,
      left := q.arg1 % 2 ^ 32, dest := bits q.arg1 32 16, requester := q.src, token := q.tag, phase := 0, localUnit := 0, moved := 0, failed := none,
      cancelled := false }] })).rehomeRun q.fregion := by
  have sound : ¬ (q.arg1 % 2 ^ 32 = 0 ∨ f.units < q.arg0 + q.arg1 % 2 ^ 32 ∨ (!f.members.contains (bits q.arg1 32 16)) = true) := by
    rw [member]
    rintro (none_ | beyond | other)
    · exact some_ none_
    · exact absurd within (Nat.not_le.mpr beyond)
    · exact absurd other Bool.false_ne_true
  exact (if_neg sound).trans (if_neg (apart ▸ Bool.false_ne_true))

/-- A record that is whole is placed, and acknowledged. -/
theorem onRehomeData_placed {x : UnitMove} (move : m.fm.unitMoves.find? (fun x => x.fregion = q.fregion && x.unit = q.num 0 4 && !x.sending) = some x)
    (joined : Tbl.find m.fm.regions q.fregion = some f) (part : Tbl.find m.mem.regions f.localRegion = some g) (first : q.num 12 4 = 0)
    (whole : q.num 16 4 ≤ ((q.payload.drop 20).take (q.num 16 4)).length)
    (taken : m1 = m.setFm (fun e => { e with unitMoves := e.unitMoves.map (fun y => if y = x then { y with parts := [] } else y) }))
    (placed : m1.placeRecord q.fregion f.localRegion (x.localUnit * f.span + q.num 4 8 % f.span) g
      (WireRec.read ((q.payload.drop 20).take (q.num 16 4))) = some m2) :
    onRehomeData q m = m2.sendPacket (m2.packetTo q.src 1 q.flow 0x16 q.tag []) := by
  subst taken
  have same : Tbl.find (m.setFm (fun e => { e with unitMoves := e.unitMoves.map (fun y => if y = x then { y with parts := [] } else y) })).mem.regions
      f.localRegion = some g := part
  simp only [onRehomeData, move, joined, first, if_true, Nat.sub_zero, List.nil_append, if_neg (Nat.not_lt.mpr whole), same, placed]

end Sys2Proof.Machine

namespace Sys2Proof.Proofs
open Sys2Proof Sys2Proof.Machine

/-- Settles O18: each operation has the effect of its handler's one branch for it. -/
theorem versionOperationsComplete : Obligations.VersionOperationsComplete := by
  unfold Obligations.VersionOperationsComplete
  refine ⟨?_, ?_, ?_, ?_, ?_, ?_, ?_, ?_, ?_, ?_, ?_, ?_, ?_, ?_⟩
  · intro s port q f g m v gets resolved
    refine State.atRegistrar_of_gets gets ?_
    simp only [onVopOpenView, resolved]
  · intro s port q f g m gets
    exact State.atRegistrar_of_gets gets rfl
  · intro s port q f g m v gets versioned resolved
    refine State.atRegistrar_of_gets gets ?_
    simp only [onVopOpenWorking, versioned, resolved, if_true]
  · intro s port q f g m gets
    exact State.atRegistrar_of_gets gets rfl
  · rintro s port q f g m ⟨arrived, part, registrar⟩
    have step := exec_vopCheckpoint arrived part
    rw [if_pos registrar] at step
    refine ⟨fun working => ?_, fun head versioned => ?_⟩
    · rw [step, onVopCheckpoint, if_pos working]
    · rw [step, onVopCheckpoint, if_neg head, versioned, Bool.not_true, if_neg Bool.false_ne_true]
  · intro s port q f g m arrived part member fromRegistrar head
    rw [exec_vopCheckpoint arrived part, if_neg member, if_pos ⟨fromRegistrar, head⟩]
    simp only [onMemberCheckpoint, part]
  · intro s port q f m arrived member
    refine State.onVop_of_arrives arrived ?_
    simp only [onVopDiscardWorking, if_neg member]
  · intro s port q f m arrived registrar
    refine State.onVop_of_arrives arrived ?_
    simp only [onVopDiscardWorking, if_pos registrar]
  · intro s port q f g m v gets named resolved
    refine State.atRegistrar_of_gets gets ?_
    simp only [onVopVersionRelease, if_neg named, resolved]
  · intro s port q f g m gets
    exact State.atRegistrar_of_gets gets rfl
  · intro s port q f m arrived
    exact State.onVop_of_arrives arrived rfl
  · intro s port q f m arrived
    exact State.onVop_of_arrives arrived rfl
  · intro s port q f m arrived
    exact State.onVop_of_arrives arrived rfl
  · intro s port q f m arrived
    exact State.onVop_of_arrives arrived rfl

/-- Settles O19: each operation has the effect of its handler's one branch for it. -/
theorem mapOperationsComplete : Obligations.MapOperationsComplete := by
  unfold Obligations.MapOperationsComplete
  refine ⟨?_, ?_, ?_, ?_, ?_, ?_, ?_, ?_, ?_⟩
  · intro s port q m arrived known
    refine State.onPacket_of_arrives arrived ?_
    simp only [onMapUpdate, known, Bool.false_eq_true, if_false]
  · intro s port q f g m gets attrs
    refine State.atRegistrar_of_gets gets ?_
    simp only [onJoin, attrs, ne_eq, not_true_eq_false, if_false]
  · intro s port q f m arrived registrar
    refine State.onVop_of_arrives arrived ?_
    simp only [onMapFetch, if_pos registrar]
  · intro s port q f m arrived member
    refine State.onVop_of_arrives arrived ?_
    simp only [onRegistrarQuery, member, Bool.false_eq_true, if_false]
  · intro s port q f g m gets away
    refine State.atRegistrar_of_gets gets ?_
    simp only [onLeave, away, Bool.false_eq_true, if_false]
  · intro s port q f g m gets some_ within member apart
    exact State.atRegistrar_of_gets gets (onRehomeForward_starts some_ within member apart)
  · intro s port q f m u arrived serves free
    refine State.onVop_of_arrives arrived ?_
    simp only [onRehomeReserve, if_neg serves, free]
  · intro s port q m m1 m2 x f g arrived move joined part first whole taken placed
    exact State.onPacket_of_arrives arrived (onRehomeData_placed move joined part first whole taken placed)
  · intro s port q f m e arrived mapped
    refine ⟨fun empty => State.onVop_of_arrives arrived ?_, fun some_ => State.onVop_of_arrives arrived ?_⟩
    · simp only [onRehomeSend, mapped, if_pos empty]
    · simp only [onRehomeSend, mapped, if_neg some_]

end Sys2Proof.Proofs
end

section
/-! PROOF. Accesses to the registers of a function, traffic of a host's memory device, and events of the host ports (O20 to O22). -/
namespace Sys2Proof.Machine

variable {m : Mod}

/-! ### Registers -/

/-- A manager clears a latched flag whose condition is gone. -/
theorem Mod.clearLatch_cleared {ld : LdId} {v : Nat} (listed : m.isManager (.ld ld) = true)
    (clears : m.pow.leakFlag = true ∧ bit v 0 = true ∧ m.pow.leakClass ≠ 1 ∨ m.pow.sensorFlag = true ∧ bit v 1 = true ∧ m.pow.leakClass ≠ 2) :
    m.clearLatch ld.toNat v = ((m.setPow (fun p => { p with
      leakFlag := m.pow.leakFlag && (!bit v 0 || m.pow.leakClass = 1),
      sensorFlag := m.pow.sensorFlag && (!bit v 1 || m.pow.leakClass = 2) })).syncPins).moduleChanged := by
  have changes : ¬ ((m.pow.leakFlag && (!bit v 0 || m.pow.leakClass = 1)) = m.pow.leakFlag ∧
      (m.pow.sensorFlag && (!bit v 1 || m.pow.leakClass = 2)) = m.pow.sensorFlag) := by
    rintro ⟨leak, sensor⟩
    rcases clears with ⟨flag, written, gone⟩ | ⟨flag, written, gone⟩
    · simp [flag, written, gone] at leak
    · simp [flag, written, gone] at sensor
  simp only [Mod.clearLatch, BitVec.ofNat_toNat, BitVec.setWidth_eq, listed, Bool.not_true, Bool.false_eq_true, if_false, if_neg changes]

theorem Mod.commitDecoder_ok {l i : Nat} (open_ : ((m.ld l).decoders.getD i HdmDecoder.init).committed = false) (cxl : (m.port (l / 16)).mode ≠ .pcie)
    (sound : (m.ld l).decoderOk i ((m.ld l).decoders.getD i HdmDecoder.init) ((m.ld l).dpaEnd i + ((m.ld l).decoders.getD i HdmDecoder.init).skip) = true) :
    m.commitDecoder l i = m.setLd l (fun d => { d with decoders := d.decoders.set i { (m.ld l).decoders.getD i HdmDecoder.init with
      dpaBase := (m.ld l).dpaEnd i + ((m.ld l).decoders.getD i HdmDecoder.init).skip, committed := true, errNotCommitted := false } }) := by
  simp only [Mod.commitDecoder, open_, cxl, sound, Bool.false_eq_true, or_self, if_false, if_true]

section Write
variable {ld : LdId} {offset : Nat} {data : List Byte} {s : State}

theorem exec_registerWrite_f0bar0 (h : hostReaches s.mach ld 0) (aligned : alignedAccess offset data = true) (takes : f0Implemented offset = true) :
    exec (.registerWrite (.ld ld) .f0bar0 offset data) s = .next (s.after (
      if data.length = 8 then ((s.mach.hostTraffic ld.toNat).f0Write ld.toNat offset (data.take 4)).f0Write ld.toNat (offset + 4) (data.drop 4)
      else (s.mach.hostTraffic ld.toNat).f0Write ld.toNat offset (data.take 4))) := by
  show execRegisterWrite (.ld ld) .f0bar0 offset data s = _
  simp only [execRegisterWrite, State.actF_eq, Mod.regAccess_of_reaches h, aligned, takes, Bool.not_true, Bool.false_eq_true, or_self, if_false]

theorem exec_registerWrite_f1bar0 (h : hostReaches s.mach ld 1) (aligned : alignedAccess offset data = true)
    (takes : ((s.mach.hostTraffic ld.toNat).register s.fuses ld.toNat .f1bar0 (offset / 8 * 8)).isSome = true) :
    exec (.registerWrite (.ld ld) .f1bar0 offset data) s =
      .next (s.after ((s.mach.hostTraffic ld.toNat).f1Write ld.toNat offset (leNat data) data.length)) := by
  have known := Option.isNone_eq_false_iff.mpr takes
  show execRegisterWrite (.ld ld) .f1bar0 offset data s = _
  simp only [execRegisterWrite, State.actF_eq, Mod.regAccess_of_reaches h, aligned, known, Bool.not_true, Bool.false_eq_true, or_self, if_false]

theorem exec_registerWrite_f1bar2 (h : hostReaches s.mach ld 1) (takes : pageTakes (offset % 4096) data.length = true) (within : offset < 2 ^ 24) :
    exec (.registerWrite (.ld ld) .f1bar2 offset data) s =
      .next (s.after ((s.mach.hostTraffic ld.toNat).pageWrites (.ld ld) (offset / 4096) (offset % 4096) data 16)) := by
  show execRegisterWrite (.ld ld) .f1bar2 offset data s = _
  simp only [execRegisterWrite, State.actF_eq, Mod.regAccess_of_reaches h, if_neg (Nat.not_le.mpr within), Mod.bar2Write, takes, if_true]

theorem exec_registerWrite_f1bar4 (h : hostReaches s.mach ld 1) (aligned : alignedAccess offset data = true)
    (takes : ((s.mach.hostTraffic ld.toNat).register s.fuses ld.toNat .f1bar4 (offset / 8 * 8)).isSome = true) :
    exec (.registerWrite (.ld ld) .f1bar4 offset data) s = .next (s.after (s.mach.hostTraffic ld.toNat)) := by
  have known := Option.isNone_eq_false_iff.mpr takes
  show execRegisterWrite (.ld ld) .f1bar4 offset data s = _
  simp only [execRegisterWrite, State.actF_eq, Mod.regAccess_of_reaches h, aligned, known, Bool.not_true, Bool.false_eq_true, or_self, if_false]

end Write

/-! ### Traffic -/

theorem exec_memRd {s : State} {ld : LdId} {hpa : BitVec 64} {tag : BitVec 16} {check : Media} {dpa r pane : Nat} {sel : VerSel} {w : Option Nat}
    (up : s.mach.cxlUp ld.toNat = true) (decoded : (s.mach.hostTraffic ld.toNat).decodeHpa ld.toNat (hpa.toNat / 64 * 64) = some dpa)
    (reach : (s.mach.hostTraffic ld.toNat).reachOf ld.toNat dpa = some (r, sel, pane, w))
    (served : ((s.mach.hostTraffic ld.toNat).accessLost r sel pane).1 = false) :
    exec (.memRd ld hpa tag check) s = .next (s.after (
      if 0x8000 ≤ r then
        ((s.mach.hostTraffic ld.toNat).accessLost r sel pane).2.hostFabricRead ld.toNat tag.toNat (r - 0x8000) sel pane (dpa / 64 % 1024) check
      else ((s.mach.hostTraffic ld.toNat).accessLost r sel pane).2.hostLine ld.toNat tag.toNat r sel pane (dpa / 64 % 1024) check)) := by
  show execMemRd ld hpa tag check s = _
  simp only [execMemRd, State.act_eq, up, decoded, Mod.hostReadAt, reach, served, Bool.not_true, Bool.false_eq_true, if_false]

/-- A speculative read of a pane that may be promoted promotes it where the module chooses so. -/
theorem exec_memSpecRd {s : State} {ld : LdId} {hpa : BitVec 64} {dpa r pane k : Nat} {sel : VerSel} {w : Option Nat} {m : Mod} {x : PaneRec} {g : Region}
    (up : s.mach.cxlUp ld.toNat = true) (chosen : m = ((s.mach.hostTraffic ld.toNat).choose 2).2) (decoded : m.decodeHpa ld.toNat hpa.toNat = some dpa)
    (reach : m.reachOf ld.toNat dpa = some (r, sel, pane, w)) (placed : m.recAt r sel pane = some (k, x)) (here : r < 0x8000)
    (low : x.tier = .t1 ∨ x.tier = .t2) (backed : x.form ≠ .zero) (found : Tbl.find m.mem.regions r = some g) (floats : m.residency g = .float) :
    exec (.memSpecRd ld hpa) s = .next (s.after (
      if ((s.mach.hostTraffic ld.toNat).choose 2).1 = 1 then m.promoteForRead k (some ld.toNat) else m)) := by
  subst chosen
  have float : (((s.mach.hostTraffic ld.toNat).choose 2).2.residency g == Residency.float) = true := beq_iff_eq.mpr floats
  show execMemSpecRd ld hpa s = _
  simp only [execMemSpecRd, State.act_eq, up, decoded, reach, placed, here, low, backed, found, float, Option.elim_some, ne_eq, not_false_eq_true,
    Bool.not_true, Bool.false_eq_true, if_false, and_true]

/-- The data that a read expects, whole or in part. -/
theorem exec_dmaReadCompletion {s : State} {ld : LdId} {tag : BitVec 14} {data : List Byte} {r : DmaRead} (shown : s.mach.presented ld.toNat = true)
    (expected : (s.mach.ld ld.toNat).reads.find? (fun r => r.tag = tag.toNat) = some r) :
    exec (.dmaReadCompletion ld tag data false false) s = .next (s.after (
      ((if min data.length r.left = r.left then s.mach.setLd ld.toNat (fun d => { d with reads := d.reads.filter (fun x => x.tag != tag.toNat) })
        else s.mach.setLd ld.toNat (fun d => { d with reads := d.reads.map (fun x => if x.tag = tag.toNat then
          { x with offset := x.offset + min data.length r.left, left := x.left - min data.length r.left } else x) })).bufArrived r.key r.index r.offset
        (data.take (min data.length r.left))).askReads askFuel)) := by
  show execDmaReadCompletion ld tag data false false s = _
  simp only [execDmaReadCompletion, State.act_eq, shown, expected, Bool.not_true, Bool.false_eq_true, or_self, if_false]

/-! ### Ports -/

theorem exec_resetComplete_both {s : State} {ld : LdId} {fn : BitVec 1} (h : 2 ≤ ((s.mach.ld ld.toNat).func fn.toNat).reset) :
    exec (.resetComplete ld fn) s =
      .next (s.after ((s.mach.setLd ld.toNat (fun d => { d with f0 := { d.f0 with reset := 0 }, f1 := { d.f1 with reset := 0 } })).activate ld.toNat)) := by
  obtain ⟨n, hn⟩ := Nat.exists_eq_add_of_le' h
  show execResetComplete ld fn s = _
  simp only [execResetComplete, State.act_eq, hn]

theorem exec_l1EntryRequest {s : State} {port : BitVec 2} (up : (s.mach.port port.toNat).mode ≠ .down) (enabled : s.mach.aspmL1 port.toNat = true)
    (low : 2 ≤ s.mach.pow.rung) (deeper : (s.mach.port port.toNat).inL1 = false ∨
      (s.mach.port port.toNat).inL12 = false ∧ (s.mach.aspmL12 port.toNat && decide (3 ≤ s.mach.pow.rung)) = true) :
    exec (.l1EntryRequest port) s = .next (s.after (
      if s.mach.aspmL12 port.toNat && decide (3 ≤ s.mach.pow.rung) then
        ((s.mach.setPort port.toNat (fun p => { p with inL1 := true, inL12 := s.mach.aspmL12 port.toNat && decide (3 ≤ s.mach.pow.rung) })).send
          (.l1Request port.toNat (s.mach.aspmL12 port.toNat && decide (3 ≤ s.mach.pow.rung)))).send (.portPin "CLKREQ#" port.toNat true)
      else (s.mach.setPort port.toNat (fun p => { p with inL1 := true, inL12 := s.mach.aspmL12 port.toNat && decide (3 ≤ s.mach.pow.rung) })).send
          (.l1Request port.toNat (s.mach.aspmL12 port.toNat && decide (3 ≤ s.mach.pow.rung))))) := by
  have enters : ¬ ((s.mach.port port.toNat).mode = .down ∨ (!s.mach.aspmL1 port.toNat) = true ∨ s.mach.pow.rung < 2 ∨
      ((s.mach.port port.toNat).inL1 = true ∧ ((s.mach.port port.toNat).inL12 = true ∨
        (!(s.mach.aspmL12 port.toNat && decide (3 ≤ s.mach.pow.rung))) = true))) := by
    rintro (down | off | high | ⟨in1, in12 | flat⟩)
    · exact up down
    · rw [enabled] at off
      cases off
    · exact absurd low (Nat.not_le.mpr high)
    · rcases deeper with out | ⟨out, -⟩
      · rw [out] at in1
        cases in1
      · rw [out] at in12
        cases in12
    · rcases deeper with out | ⟨-, deep⟩
      · rw [out] at in1
        cases in1
      · rw [deep] at flat
        cases flat
  show execL1EntryRequest port s = _
  rw [execL1EntryRequest, State.act_eq, if_neg enters]

end Sys2Proof.Machine

namespace Sys2Proof.Proofs
open Sys2Proof Sys2Proof.Machine

/-- Settles O20: a function that answers has each access carried out on the module as host traffic finds it. -/
theorem hostRegisterCommandsComplete : Obligations.HostRegisterCommandsComplete := by
  unfold Obligations.HostRegisterCommandsComplete
  refine ⟨?_, fun s ld fn value reach => ?_, fun s ld word value reach => ?_, fun s ld fn value reach => ?_, ?_, ?_, ?_,
    fun s ld offset data reach aligned takes => exec_registerWrite_f1bar0 reach aligned takes,
    fun s ld offset data reach takes within => exec_registerWrite_f1bar2 reach takes within,
    fun s ld offset data reach aligned takes => exec_registerWrite_f1bar4 reach aligned takes, ?_, fun s ld shown free => ?_, fun s ld reach => ?_⟩
  · rintro s ld value _ shown free rfl listed clears
    show execStsLatchClear ld value s = _
    rw [execStsLatchClear, State.act_eq, Mod.statusAccess_of_presented shown free, Mod.clearLatch_cleared listed clears]
  · show execIntxStatusClear ld fn value s = _
    rw [execIntxStatusClear, State.act_eq, Mod.regAccess_of_reaches reach, Mod.clearIntx]
  · show execIntxChnPendClear ld word value s = _
    rw [execIntxChnPendClear, State.act_eq, Mod.regAccess_of_reaches reach, Mod.clearPend]
  · show execIntxEnableWrite ld fn value s = _
    rw [execIntxEnableWrite, State.act_eq, Mod.regAccess_of_reaches reach, Mod.writeEnable]
  · rintro s ld index _ reach rfl open_ cxl sound
    show execHdmDecoderCommit ld index s = _
    rw [execHdmDecoderCommit, State.act_eq, Mod.regAccess_of_reaches reach, Mod.commitDecoder_ok open_ cxl sound]
  · intro s ld offset data reach four aligned takes
    have access : alignedAccess offset data = true := by simp [alignedAccess, four, aligned]
    rw [exec_registerWrite_f0bar0 reach access takes, if_neg (by omega), List.take_of_length_le (by omega)]
  · intro s ld offset data reach eight aligned takes
    have access : alignedAccess offset data = true := by simp [alignedAccess, eight, aligned]
    rw [exec_registerWrite_f0bar0 reach access takes, if_pos eight]
  · rintro s ld fn offset data _ shown free rfl takes
    show execConfigWrite ld fn offset data s = _
    simp only [execConfigWrite, State.act_eq, shown, free, takes, Bool.not_true, Bool.false_eq_true, ne_eq, not_true_eq_false, if_false]
  · show execBusMasterDisable ld s = _
    simp only [execBusMasterDisable, State.act_eq, shown, free, Bool.not_true, Bool.false_eq_true, ne_eq, not_true_eq_false, if_false]
  · show execLseRenew ld s = _
    rw [execLseRenew, State.act_eq, Mod.viaBar2_of_reaches (who := .ld ld) reach]
    rfl

/-- Settles O21: a request that the link brings in has the effect of the one branch that its address decodes to. -/
theorem hostTrafficCommandsComplete : Obligations.HostTrafficCommandsComplete := by
  unfold Obligations.HostTrafficCommandsComplete
  refine ⟨?_, ?_, fun s ld hpa tag up => ?_, ?_, ?_, fun s ld tag data r shown expected => ⟨fun whole => ?_, fun part => ?_⟩, fun s ld tag r expected => ?_⟩
  · rintro s ld hpa tag check dpa r pane sel w _ up rfl decoded reach served
    have step := exec_memRd (tag := tag) (check := check) up decoded reach served
    exact ⟨fun here => by rw [step, if_neg (Nat.not_le.mpr here)], fun there => by rw [step, if_pos there]⟩
  · intro s ld hpa dpa r pane k sel w m x g up chosen decoded reach placed here low backed found floats
    have step := exec_memSpecRd up chosen decoded reach placed here low backed found floats
    exact ⟨fun promotes => by rw [step, if_pos promotes], fun stays => by rw [step, if_neg stays]⟩
  · show execMemInv ld hpa tag s = _
    rw [execMemInv, State.act_eq, if_pos up]
  · rintro s ld hpa tag data enable poison _ dpa r pane sel w b g up rfl decoded reach binding leased running notView here found writable
    have takes : (s.mach.lineCounted ld.toNat).TakesWrite ld.toNat dpa r pane sel w b := ⟨reach, binding, leased, running, notView⟩
    rw [exec_memWr, exec_memWrPtl, Mod.hostWrite_decoded up decoded, Mod.hostWriteAt_submit takes here found writable,
      Mod.hostWrite_decoded up decoded, Mod.hostWriteAt_submit takes here found writable]
    exact ⟨rfl, rfl⟩
  · rintro s ld hpa tag data poison _ dpa r pane sel w b up rfl decoded reach binding leased running notView there
    have takes : (s.mach.lineCounted ld.toNat).TakesWrite ld.toNat dpa r pane sel w b := ⟨reach, binding, leased, running, notView⟩
    rw [exec_memWr, Mod.hostWrite_decoded up decoded, Mod.hostWriteAt_fabric takes there]
    rfl
  · rw [exec_dmaReadCompletion shown expected, Nat.min_eq_right whole, if_pos rfl]
  · rw [exec_dmaReadCompletion shown expected, Nat.min_eq_left (Nat.le_of_lt part), if_neg (Nat.ne_of_lt part), List.take_length]
  · show execCompletionTimeout ld tag s = _
    simp only [execCompletionTimeout, State.act_eq, expected]

/-- Settles O22: each event has the effect of its row's one branch for it. -/
theorem hostPortCommandsComplete : Obligations.HostPortCommandsComplete := by
  unfold Obligations.HostPortCommandsComplete
  refine ⟨fun s ld shown => ⟨?_, ?_, fun cxl => ?_⟩, fun s ld fn => ⟨fun one => ?_, fun two => exec_resetComplete_both two⟩,
    fun s port => ⟨fun on => ?_, fun off => ?_, rfl⟩, fun s port up => ⟨?_, ?_, fun secure => ?_⟩, ?_, ?_⟩
  · show execFlrFunction0 ld s = _
    rw [execFlrFunction0, State.act_eq, Mod.flr0, if_pos shown]
  · show execFlrFunction1 ld s = _
    rw [execFlrFunction1, State.act_eq, Mod.flr1, if_pos shown]
  · show execCxlReset ld s = _
    rw [execCxlReset, State.act_eq, Mod.cxlReset, if_pos ⟨shown, cxl⟩]
  · show execResetComplete ld fn s = _
    simp only [execResetComplete, State.act_eq, one]
  · show execPerstAssert port s = _
    rw [execPerstAssert, State.act_eq, if_pos on]
  · show execPerstAssert port s = _
    rw [execPerstAssert, State.act_eq, if_neg off]
  · show execHotReset port s = _
    rw [execHotReset, State.act_eq, if_neg up]
  · show execHostLinkLost port s = _
    rw [execHostLinkLost, State.act_eq, if_neg up]
  · have same : ((port.toNat : Nat) : BitVec 2) = port := by simp
    rw [same]
    show execIdeCheckFail port s = _
    simp only [execIdeCheckFail, State.act_eq, up, secure, Bool.not_true, Bool.false_eq_true, or_self, if_false]
  · intro s port mode width rate on released step deasserted known trains
    have idle : ¬ s.mach.boot.step < 3 := Nat.not_lt.mpr step
    show execHostLinkTrained port mode width rate s = _
    simp only [execHostLinkTrained, State.act_eq, on, released, idle, deasserted, known, trains, Bool.not_true, Bool.false_eq_true, ne_eq,
      not_true_eq_false, or_self, if_false]
  · rintro s port _ _ up enabled low rfl deeper rfl
    exact exec_l1EntryRequest up enabled low deeper

end Sys2Proof.Proofs
end

section
/-! PROOF. The pins, the sensors and the governors; the rungs; bring-up and the module's own resets (O23 to O25). -/
namespace Sys2Proof.Machine

variable {s : State}

/-! ### The rungs -/

/-- A rung of the ladder is left downwards where nothing blocks the way to P2. -/
theorem exec_rungDescent (may : s.mach.mayDescend = true) (idle : s.mach.pow.preparing = false)
    (free : (List.range (min (s.mach.pow.rung + 1) 2)).any (fun i => s.mach.blockersAt (i + 1) != []) = false) :
    exec .rungDescent s = .next (s.after (if s.mach.pow.rung + 1 ≤ 2 then s.mach.enterRung (s.mach.pow.rung + 1) else s.mach.prepare)) := by
  show execRungDescent s = _
  simp only [execRungDescent, State.act_eq, may, idle, free, Bool.not_true, Bool.false_eq_true, or_self, if_false]

theorem exec_rungEntry (may : s.mach.mayDescend = true) (prepared : s.mach.pow.preparing = true) (deep : 3 ≤ s.mach.pow.rung + 1)
    (last : s.mach.pow.rung + 1 ≤ 4) (free : (List.range (s.mach.pow.rung + 1)).any (fun i => s.mach.blockersAt (i + 1) != []) = false) :
    exec .rungEntry s = .next (s.after s.mach.enterDeepRung) := by
  show execRungEntry s = _
  simp only [execRungEntry, State.act_eq, may, prepared, free, Nat.not_lt.mpr deep, Nat.not_lt.mpr last, Bool.not_true, Bool.false_eq_true,
    or_self, if_false]

/-! ### READY -/

/-- READY_ENTRY of a module that is ready for it, whether or not it has booted a slot. -/
theorem exec_readyEntry_serves (booting : s.mach.boot.readiness = .booting) (step : s.mach.boot.step = 3) (noRecovery : s.mach.boot.recovery = false)
    (notEnd : s.mach.boot.lifecycle ≠ 5) (swept : s.mach.boot.sweepDone = true) (replayed : s.mach.boot.journalDone = true)
    (trained : s.mach.t1.any (fun p => p.state = .training) = false) (serves : s.mach.withMapStore.t2.saved.failed = false) :
    exec .readyEntry s = .next { s with
      mach := (s.mach.withMapStore.madeReady.advanceRollback s.fuses).2.settle
      fuses := (s.mach.withMapStore.madeReady.advanceRollback s.fuses).1 } := by
  show execReadyEntry s = _
  unfold execReadyEntry
  refine State.burn_of_eq s (r := s.mach.withMapStore.madeReady.advanceRollback s.fuses) ?_
  rw [if_neg (by simp [booting, step, noRecovery, notEnd, swept, replayed, trained])]
  exact if_neg (serves ▸ Bool.false_ne_true)

end Sys2Proof.Machine

namespace Sys2Proof.Proofs
open Sys2Proof Sys2Proof.Machine

/-- Settles O23: each event has the effect of its row's one branch for it. -/
theorem powerAndPinCommandsComplete : Obligations.PowerAndPinCommandsComplete := by
  unfold Obligations.PowerAndPinCommandsComplete
  refine ⟨fun s => rfl, fun s vref => ⟨?_, ?_, ?_, ?_, ?_⟩, fun s vref => ⟨?_, ?_, ?_, ?_, ?_⟩, fun s => ⟨fun on => ?_, fun off => ?_⟩,
    fun s mv least most on high => ?_, fun s mv low mated => ?_, fun s mv least most on hour => ?_, fun s mv high mated => ?_,
    fun s mv least most => ?_, fun s die temp on known hot => ?_, fun s tripped low => ?_, fun s cordOhms loopOhms powered => ?_,
    fun s on => ⟨fun inlet outlet flow => ?_, fun p100 p20ms p2s => ?_, fun bDies cDies gddr nand => ?_⟩, fun s late fresh => ?_⟩
  · show execPwrEnHigh s = _
    simp only [execPwrEnHigh, State.act_eq, vref, Bool.false_eq_true, if_false]
  · show execPwrEnLow s = _
    simp only [execPwrEnLow, State.act_eq, vref, Bool.false_eq_true, if_false]
  · show execModReset s = _
    simp only [execModReset, State.act_eq, vref, Bool.false_eq_true, if_false]
  · show execModResetRelease s = _
    simp only [execModResetRelease, State.act_eq, vref, Bool.false_eq_true, if_false]
  · show execSbVrefLow s = _
    simp only [execSbVrefLow, State.act_eq, vref, Bool.false_eq_true, if_false]
  · show execPwrEnHigh s = _
    simp only [execPwrEnHigh, State.act_eq, vref, if_true]
  · show execPwrEnLow s = _
    simp only [execPwrEnLow, State.act_eq, vref, if_true]
  · show execModReset s = _
    simp only [execModReset, State.act_eq, vref, if_true]
  · show execModResetRelease s = _
    simp only [execModResetRelease, State.act_eq, vref, if_true]
  · show execSbVrefRecovered s = _
    simp only [execSbVrefRecovered, State.act_eq, vref, Bool.not_true, Bool.false_eq_true, if_false]
  · show execUnmating s = _
    simp only [execUnmating, State.act_eq, on, if_true]
  · show execUnmating s = _
    simp only [execUnmating, State.act_eq, off, if_false]
  · show execInputLow mv s = _
    simp only [execInputLow, State.act_eq, Nat.not_lt.mpr least, Nat.not_le.mpr most, on, high, ne_eq, not_true_eq_false, Bool.false_eq_true,
      or_self, if_false]
  · show execInputUndervoltage mv s = _
    simp only [execInputUndervoltage, State.act_eq, Nat.not_le.mpr low, mated, or_self, if_false]
  · show execInputHigh mv s = _
    simp only [execInputHigh, State.act_eq, Nat.not_le.mpr least, Nat.not_lt.mpr most, on, hour, ne_eq, not_true_eq_false, or_self, if_false]
  · show execInputOvervoltage mv s = _
    simp only [execInputOvervoltage, State.act_eq, Nat.not_le.mpr high, mated, or_self, if_false]
  · show execInputRecovered mv s = _
    simp only [execInputRecovered, State.act_eq, Nat.not_lt.mpr least, Nat.not_lt.mpr most, or_self, if_false]
  · show execThermtrip die temp s = _
    simp only [execThermtrip, State.act_eq, on, Nat.not_le.mpr known, Int.not_lt.mpr hot, ne_eq, not_true_eq_false, or_self, if_false]
  · show execThermtripRelease s = _
    simp only [execThermtripRelease, State.act_eq, tripped, low, ne_eq, not_true_eq_false, Bool.false_eq_true, or_self, if_false]
  · have lit : ¬ (s.mach.pow.phase ≠ .on ∧ s.mach.pow.phase ≠ .tripped) := fun ⟨notOn, notTripped⟩ => powered.elim notOn notTripped
    show execLeakSensorSample cordOhms loopOhms s = _
    rw [execLeakSensorSample, State.act_eq, if_neg lit]
  · show execCoolantSample inlet outlet flow s = _
    simp only [execCoolantSample, State.act_eq, on, ne_eq, not_true_eq_false, if_false]
  · show execPowerGovernorSample p100 p20ms p2s s = _
    simp only [execPowerGovernorSample, State.act_eq, on, ne_eq, not_true_eq_false, if_false]
  · show execThermalGovernorSample bDies cDies gddr nand s = _
    simp only [execThermalGovernorSample, State.act_eq, on, ne_eq, not_true_eq_false, if_false]
  · show execPowerCapFail s = _
    simp only [execPowerCapFail, State.act_eq, Nat.not_lt.mpr late, fresh, Bool.false_eq_true, or_self, if_false]

/-- Settles O24: a descent, an entry and each cause of waking have the effect of their row's one branch. -/
theorem rungCommandsComplete : Obligations.RungCommandsComplete := by
  unfold Obligations.RungCommandsComplete
  refine ⟨fun s may idle free => ⟨fun near => ?_, fun far => ?_⟩, fun s may prepared deep last free => exec_rungEntry may prepared deep last free,
    fun s g on released waits => ?_, fun s on released => ?_⟩
  · rw [exec_rungDescent may idle free, if_pos near]
  · rw [exec_rungDescent may idle free, if_neg (Nat.not_le.mpr far)]
  · show execWake (.doorbell g) s = _
    simp only [execWake, State.act_eq, on, released, waits, ne_eq, not_true_eq_false, Bool.false_eq_true, or_self, Bool.not_true, if_false]
  · have awake : ¬ (s.mach.pow.phase ≠ .on ∨ s.mach.pow.modReset = true) := by
      simp only [on, released, ne_eq, not_true_eq_false, Bool.false_eq_true, or_self, not_false_eq_true]
    refine ⟨fun h chosen => ?_, fun near => ⟨?_, ?_⟩, ?_, ?_, ?_, fun vref => ?_, ?_⟩
    · show execWake .hostLink s = _
      simp only [execWake, State.act_eq, if_neg awake, chosen]
    · show execWake .fabric s = _
      simp only [execWake, State.act_eq, if_neg awake, if_pos near]
    · show execWake .presence s = _
      simp only [execWake, State.act_eq, if_neg awake, if_pos near]
    · show execWake (.lease true) s = _
      simp only [execWake, State.act_eq, if_neg awake, if_true]
    · show execWake (.lease false) s = _
      simp only [execWake, State.act_eq, if_neg awake, Bool.false_eq_true, if_false]
    · show execWake .leak s = _
      simp only [execWake, State.act_eq, if_neg awake]
    · show execWake .sideband s = _
      simp only [execWake, State.act_eq, if_neg awake, vref, Bool.false_eq_true, if_false]
    · show execWake .timer s = _
      simp only [execWake, State.act_eq, if_neg awake]

/-- Settles O25: each step of bring-up, reset and fault has the effect of its row's one branch. -/
theorem bringUpAndResetCommandsComplete : Obligations.BringUpAndResetCommandsComplete := by
  unfold Obligations.BringUpAndResetCommandsComplete
  refine ⟨fun s slot valid on released step => ?_, fun s readable step noRecovery notEnd fresh booting => ?_, ?_, fun s on released step => ?_,
    fun s pending => ?_, fun s pair => rfl, fun s unit code known => ?_, fun s draining => ?_, fun s serves empty booted => ?_⟩
  · show execBootImageVerified slot valid s = _
    simp only [execBootImageVerified, State.actF_eq, on, released, step, ne_eq, not_true_eq_false, Bool.false_eq_true, or_self, if_false]
  · show execJournalReplayComplete readable s = _
    simp only [execJournalReplayComplete, State.actF_eq, step, noRecovery, notEnd, fresh, booting, ne_eq, not_true_eq_false, Bool.false_eq_true,
      or_self, if_false]
  · rintro s _ _ _ booting step noRecovery notEnd swept replayed trained rfl rfl serves rfl
    exact exec_readyEntry_serves booting step noRecovery notEnd swept replayed trained serves
  · show execGafferWatchdogReset s = _
    simp only [execGafferWatchdogReset, State.act_eq, on, released, Nat.not_lt.mpr step, ne_eq, not_true_eq_false, Bool.false_eq_true, or_self,
      if_false]
  · have waits : ¬ s.mach.boot.lifecyclePending.isNone = true := fun none_ => pending (Option.isNone_iff_eq_none.mp none_)
    show execLifecycleResetDelay s = _
    rw [execLifecycleResetDelay, State.act_eq, if_neg waits]
  · show execPrivilegedFault unit s = _
    simp only [execPrivilegedFault, State.act_eq, known]
  · show execDrainPeriodExpiry s = _
    rw [execDrainPeriodExpiry, State.act_eq, if_pos draining]
  · show execJournalCommit s = _
    rw [execJournalCommit, State.act_eq, if_pos ⟨serves, empty, booted⟩]

end Sys2Proof.Proofs
end

section
/-! PROOF. The events of the tiers (O26 to O28). -/
namespace Sys2Proof.Machine

variable {m : Mod} {s : State}

/-! ### T0 -/

/-- A failed access of a line that is there is logged, and its channel goes offline or is suspected as the module chooses. -/
theorem exec_t0AccessFailed {record : Nat} {line : BitVec 10} {x : PaneRec} {a g : Nat} {m : Mod} (write : Bool)
    (found : Tbl.find s.mach.mem.recs record = some x) (tier : x.tier = .t0) (backed : x.form ≠ .zero) (inside : line.toNat < x.sectors * 4)
    (address : a = x.t0Addr (line.toNat * 64)) (channel : g = s.mach.t0Channel a)
    (logged : m = s.mach.logErr { unit := 0x2000 + g, code := 0x0204, sev := .contained, address := a, space := .t0, partition := s.mach.ownerOf x.region,
                                  region := x.region }) :
    exec (.t0AccessFailed record line write) s = .next (s.after (
      if (m.choose 2).1 = 1 then ((m.choose 2).2.closeRows g none).t0Offline g
      else (if write then ((m.choose 2).2.closeRows g none).setRec record (fun x => x.poisonLines [line.toNat])
        else (m.choose 2).2.closeRows g none).t0Suspect g 1)) := by
  subst address channel logged
  show execT0AccessFailed record line write s = _
  simp only [execT0AccessFailed, State.act_eq, found, tier, backed, Nat.not_le.mpr inside, ne_eq, not_true_eq_false, or_self, if_false]

/-! ### T1 -/

theorem Mod.loseT1_usable {d : Nat} (h : (m.t1.getD d T1Port.init).state = .inService ∨ (m.t1.getD d T1Port.init).state = .retraining) :
    m.loseT1 d = m.t1Lost d (m.t1.getD d T1Port.init) := by
  have usable : ¬ ((m.t1.getD d T1Port.init).state ≠ .inService ∧ (m.t1.getD d T1Port.init).state ≠ .retraining) :=
    fun ⟨notServing, notRetraining⟩ => h.elim notServing notRetraining
  exact if_neg usable

theorem Mod.noT1Response_homed {record : Nat} {x : PaneRec} (tier : x.tier = .t1) (backed : x.form ≠ .zero) (good : x.state ≠ .poisoned)
    (still : x.dest = none) : m.noT1Response record x = ((m.logErr {
      unit := 0x3000 + x.loc / 2 ^ 40, code := 0x0302, sev := .contained, address := x.loc, space := .t1, partition := m.ownerOf x.region, region := x.region }).poisonPane record .none).retryWrites := by
  simp only [Mod.noT1Response, still, tier, backed, good, ne_eq, not_false_eq_true, and_self, if_true]

/-! ### T2 -/

theorem Mod.loseDie_die {c d : Nat} (known : d % 16 * 32 + c < m.t2Dies) (fresh : m.t2.lostDies.contains (d % 16 * 32 + c) = false) :
    m.loseDie c (some d) = (({ m with t2 := { m.t2 with lostDies := m.t2.lostDies ++ [d % 16 * 32 + c] } } : Mod).logErr
      { unit := 0x4000 + c, code := 0x0404, sev := .unit, detail := d % 16 }).afterDieLoss := by
  simp only [Mod.loseDie, Nat.not_le.mpr known, fresh, Bool.false_eq_true, or_self, if_false]

theorem Mod.loseDie_channel {c : Nat} (fresh : m.t2.lostChannels.contains c = false) :
    m.loseDie c none = (({ m with t2 := { m.t2 with
      lostChannels := m.t2.lostChannels ++ [c], inService := m.t2.inService && decide ((m.t2.lostChannels ++ [c]).length < 32) } } : Mod).logErr
        { unit := 0x4000 + c, code := 0x0405, sev := .unit }).afterDieLoss := by
  simp only [Mod.loseDie, fresh, Bool.false_eq_true, if_false]

end Sys2Proof.Machine

namespace Sys2Proof.Proofs
open Sys2Proof Sys2Proof.Machine

/-- Settles O26: each event has the effect of its row's one branch, an access that fails that of the choice made. -/
theorem tierZeroCommandsComplete : Obligations.TierZeroCommandsComplete := by
  unfold Obligations.TierZeroCommandsComplete
  refine ⟨fun s channel bank shallow known served online => ?_, fun s => rfl, ?_, fun s sweeping on step noRecovery notEnd => ?_⟩
  · show execRefreshDue channel bank s = _
    simp only [execRefreshDue, State.act_eq, Nat.not_le.mpr shallow, Nat.not_le.mpr known, served, online, Bool.not_true, Bool.false_eq_true,
      or_self, if_false]
  · intro s record line write x a g m found tier backed inside address channel logged
    have step := fun write => exec_t0AccessFailed write found tier backed inside address channel logged
    refine ⟨fun offline => ?_, fun suspect => ?_, fun suspect => ?_⟩
    · rw [step, if_pos offline]
    · rw [step, if_neg suspect, if_neg Bool.false_ne_true]
    · rw [step, if_neg suspect, if_pos rfl]
  · show execT0SweepComplete s = _
    simp only [execT0SweepComplete, State.act_eq, sweeping, on, Nat.not_lt.mpr step, noRecovery, notEnd, Bool.not_true, Bool.false_eq_true, ne_eq,
      not_true_eq_false, or_self, if_false]

/-- Settles O27: each event has the effect of its row's one branch for the state of the port or of the record. -/
theorem tierOneCommandsComplete : Obligations.TierOneCommandsComplete := by
  unfold Obligations.TierOneCommandsComplete
  refine ⟨fun s port present => rfl, fun s port capacity training => ⟨?_, fun booting => ?_, fun up => ?_⟩, fun s port serving => ?_,
    fun s port retraining => ⟨?_, ?_⟩, fun s port training => ?_, fun s port usable => ?_, fun s record x found tier backed good still => ?_,
    fun s port record present length => ?_⟩
  · show execT1EnumerationComplete port capacity false s = _
    simp only [execT1EnumerationComplete, State.act_eq, training, ne_eq, not_true_eq_false, Bool.not_false, if_false, if_true]
  · show execT1EnumerationComplete port capacity true s = _
    simp only [execT1EnumerationComplete, State.act_eq, training, booting, ne_eq, not_true_eq_false, Bool.not_true, Bool.false_eq_true, if_false,
      if_true, decide_true, Bool.false_and]
  · show execT1EnumerationComplete port capacity true s = _
    simp only [execT1EnumerationComplete, State.act_eq, training, up, ne_eq, not_true_eq_false, Bool.not_true, Bool.false_eq_true, if_false,
      decide_false, Bool.not_false, Bool.true_and]
  · show execT1LinkDown port s = _
    simp only [execT1LinkDown, State.act_eq, serving, ne_eq, not_true_eq_false, if_false]
  · show execT1LinkRetrained port s = _
    simp only [execT1LinkRetrained, State.act_eq, retraining, ne_eq, not_true_eq_false, if_false]
  · show execT1RetrainTimeout port s = _
    simp only [execT1RetrainTimeout, State.act_eq, retraining, Mod.loseT1_usable (.inr retraining)]
  · show execT1RetrainTimeout port s = _
    simp only [execT1RetrainTimeout, State.act_eq, training]
  · show execT1FatalError port s = _
    rw [execT1FatalError, State.act_eq, Mod.loseT1_usable usable]
  · show execT1NoResponse record s = _
    simp only [execT1NoResponse, State.act_eq, found, Mod.noT1Response_homed tier backed good still]
  · have heard : ¬ ((s.mach.t1.getD port.toNat T1Port.init).state ≠ .inService ∧ (s.mach.t1.getD port.toNat T1Port.init).state ≠ .training) :=
      fun ⟨notServing, notTraining⟩ => present.elim notServing notTraining
    have whole : (record ++ List.replicate 128 0).take 128 = record := List.take_left' length
    show execT1DeviceEvent port record s = _
    simp only [execT1DeviceEvent, State.act_eq, if_neg heard, whole]

/-- Settles O28: each event has the effect of its row's one branch for it. -/
theorem tierTwoCommandsComplete : Obligations.TierTwoCommandsComplete := by
  unfold Obligations.TierTwoCommandsComplete
  refine ⟨fun s channel d serves known fresh => ?_, fun s channel serves fresh => ?_, fun s index lost => ?_, ?_, fun s record w buffered => ?_,
    fun s die block erase known usable serves => ⟨?_, ?_⟩, fun s record step x found tier backed least most good here => ?_,
    fun s state changed called serves => ?_⟩
  · show execDieFailure channel (some d) s = _
    rw [execDieFailure, State.act_eq, if_pos serves, Mod.loseDie_die known fresh]
  · show execDieFailure channel none s = _
    rw [execDieFailure, State.act_eq, if_pos serves, Mod.loseDie_channel fresh]
  · show execLostPortPoisonPass true index s = _
    simp only [execLostPortPoisonPass, State.act_eq, lost, Bool.false_eq_true, if_true, if_false]
  · rintro s index _ owed rfl
    show execLostPortPoisonPass false index s = _
    simp only [execLostPortPoisonPass, State.act_eq, Mod.poisonPort, owed, Bool.not_true, Bool.false_eq_true, if_false]
  · show execNandProgramComplete record s = _
    simp only [execNandProgramComplete, State.act_eq, buffered]
  · show execProgramFailure die block erase s = _
    simp only [execProgramFailure, State.act_eq, Nat.not_le.mpr known, usable, serves, Bool.not_true, Bool.false_eq_true, or_self, if_false]
  · show execBlockRelocation die block s = _
    rw [execBlockRelocation, State.act_eq, if_pos ⟨serves, known, usable⟩]
  · show execT2ReadDecode record step s = _
    simp only [execT2ReadDecode, State.act_eq, found, tier, backed, Nat.not_lt.mpr least, Nat.not_lt.mpr most, good, here, ne_eq,
      not_false_eq_true, and_self, Bool.false_eq_true, or_self, if_true, if_false]
  · show execWearGovernorChange state s = _
    simp only [execWearGovernorChange, State.act_eq, serves, changed, ← called, Bool.not_true, Bool.false_eq_true, ne_eq, not_true_eq_false, or_self,
      if_false]

end Sys2Proof.Proofs
end

section
/-! PROOF. Moves between the tiers, and the events of tables, versions, extents and leases (O29, O30). -/
namespace Sys2Proof.Machine

variable {m : Mod} {s : State} {k : Nat} {read : Media} {x : PaneRec} {g : Region} {d : Place}

/-! ### Moves -/

/-- A promotion whose place is ready and whose old home can be read commits. -/
theorem Mod.promoteCommit_ready (found : Tbl.find m.mem.recs k = some x) (dest : x.dest = some d) (up : x.state = .movingUp)
    (whole : m.svc.heals.any (fun h => h.record = k) = false) (linked_ : m.linkWaits x = false) (placed : m.placeWaits d = false)
    (free : m.moveHeld x d (x.mover.getD (m.moveMaster x.region)) = false) (good : badRead (x.checkHome read) = false) (here : m.homeLost x = false) :
    m.promoteCommit k read = m.promoted k x d := by
  simp only [Mod.promoteCommit, found, dest, up, whole, linked_, placed, free, good, here, ne_eq, not_true_eq_false, Bool.false_eq_true, or_self,
    if_false]

section Evict
variable (found : Tbl.find m.mem.recs k = some x) (region : Tbl.find m.mem.regions x.region = some g) (dest : x.dest = some d)
  (down : x.state = .movingDown) (linked_ : m.linkWaits x = false) (placed : m.placeWaits d = false) (free : m.moveHeld x d (m.moverOf x d) = false)
include found region dest down linked_ placed free

/-- An eviction to its parked slot is the swap of the pointer. -/
theorem Mod.evictCommit_slot {p : Parked} (parked : x.parked = some p) (slot : p.place = d) : m.evictCommit k read = m.evictedToSlot k x p := by
  have kept : x.parked.filter (fun p => p.place == d) = some p := by
    rw [parked, Option.filter_some, if_pos (beq_iff_eq.mpr slot)]
  simp only [Mod.evictCommit, found, region, dest, down, linked_, placed, free, kept, ne_eq, not_true_eq_false, Bool.false_eq_true, or_self, if_false]

/-- An eviction to any other place encodes the pane there. -/
theorem Mod.evictCommit_encodes (elsewhere : ∀ p, x.parked = some p → p.place ≠ d) (good : badRead (x.checkHome read) = false) :
    m.evictCommit k read = m.evictedEncoded k x g d := by
  have none_ : x.parked.filter (fun p => p.place == d) = none :=
    Option.filter_eq_none_iff.mpr fun p parked => by simpa using elsewhere p parked
  simp only [Mod.evictCommit, found, region, dest, down, linked_, placed, free, none_, good, ne_eq, not_true_eq_false, Bool.false_eq_true, or_self,
    if_false]

end Evict

theorem Mod.freeOld_ready {p : Parked} (found : Tbl.find m.mem.recs k = some x) (old : x.old = some p)
    (ready : p.place.tier ≠ .t2 ∨ p.form = .zero ∨ x.oldParks = true ∨ m.t2.journalPending = 0 ∨
      (Tbl.find m.mem.regions x.region).elim false (fun g => g.durable) = false) : m.freeOld k = m.oldFreed k x p := by
  have free : ¬ (p.place.tier = .t2 ∧ p.form ≠ .zero ∧ (!x.oldParks) = true ∧ m.t2.journalPending ≠ 0 ∧
      (Tbl.find m.mem.regions x.region).elim false (fun g => g.durable) = true) := by
    rintro ⟨inT2, backed, frees, pending, durable⟩
    rcases ready with h | h | h | h | h
    · exact h inT2
    · exact backed h
    · rw [h] at frees
      cases frees
    · exact pending h
    · rw [h] at durable
      cases durable
  simp only [Mod.freeOld, found, old, if_neg free]

theorem Mod.repack_starts (found : Tbl.find m.mem.recs k = some x) (region : Tbl.find m.mem.regions x.region = some g)
    (idle : x.repacking = false) (due : m.repackOk x = true) : m.repack k read = m.startRepack k g := by
  simp only [Mod.repack, found, region, idle, due, Bool.false_eq_true, if_false, if_true]

theorem Mod.repack_commits (found : Tbl.find m.mem.recs k = some x) (region : Tbl.find m.mem.regions x.region = some g)
    (under : x.repacking = true) : m.repack k read = m.evictCommit k read := by
  simp only [Mod.repack, found, region, under, if_true]

theorem Mod.dropHeld_space {index : Nat} {w : HeldWrite} (held : m.mem.heldWrites[index]? = some w) (waits : w.wait = .space)
    (region : Tbl.find m.mem.regions w.region = some g) : m.dropHeld index = m.writeDropped index w g := by
  simp only [Mod.dropHeld, held, waits, region, ne_eq, not_true_eq_false, if_false]

/-! ### Tables, checkpoints and versions -/

theorem Mod.firstTable_built {r n : Nat} {m1 : Mod} (found : Tbl.find m.mem.regions r = some g) (lehr : g.form = .lehr)
    (none_ : g.tables.current = none) (sampled : 64 ≤ g.tables.sampled) (slot : m.freeSlot = (some n, m1)) :
    m.firstTable r = m1.installTable r n (buildLens g.dtype g.tables.histogram false) := by
  simp only [Mod.firstTable, found, lehr, none_, Nat.not_lt.mpr sampled, slot, ne_eq, not_true_eq_false, or_self, if_false]

theorem Mod.freeGen_unused {r gen : Nat} {t : TableGen} (found : Tbl.find m.mem.regions r = some g) (live : Tbl.find g.tables.gens gen = some t)
    (past : g.tables.current ≠ some gen) (images : m.genImages r gen true = 0) (held : m.movementHolds r = false) (flight : m.genInFlight r = false)
    (latched : m.genLatched r gen = false) :
    m.freeGen r gen =
      ({ m.setRegion r (fun g => { g with tables := { g.tables with gens := Tbl.del g.tables.gens gen } }) with
        t2 := { (m.setRegion r (fun g => { g with tables := { g.tables with gens := Tbl.del g.tables.gens gen } })).t2 with
          tableJournal := (m.setRegion r (fun g => { g with tables := { g.tables with gens := Tbl.del g.tables.gens gen } })).t2.tableJournal.filter
            (fun t => t != (r, gen)) } } : Mod).returnSlot t.slot := by
  simp only [Mod.freeGen, found, live, past, images, held, flight, latched, ne_eq, not_true_eq_false, Bool.false_eq_true, or_self, if_false]

theorem Mod.enterGrace_live {l : Nat} {b : LdBind} (bound : Tbl.find m.mem.lds l = some b) (live : b.lease = .live) :
    m.enterGrace l = (m.setMem (fun e => { e with lds := Tbl.put e.lds l { b with lease := .grace, since := m.localTime } })).setIntx l 1 3 := by
  simp only [Mod.enterGrace, bound, live, if_true]

theorem Mod.leaseCleanup_due {l : Nat} {b : LdBind} (bound : Tbl.find m.mem.lds l = some b) (due : b.lease = .grace ∨ b.lease = .cleanup) :
    m.leaseCleanup l = m.leaseCleaned l b := by
  have past : ¬ (b.lease ≠ .grace ∧ b.lease ≠ .cleanup) := fun ⟨notGrace, notCleanup⟩ => due.elim notGrace notCleanup
  simp only [Mod.leaseCleanup, bound, if_neg past]

end Sys2Proof.Machine

namespace Sys2Proof.Proofs
open Sys2Proof Sys2Proof.Machine

/-- Settles O29: each commit takes the one branch of its operation that the conditions of the statement leave. -/
theorem paneMoveCommandsComplete : Obligations.PaneMoveCommandsComplete := by
  unfold Obligations.PaneMoveCommandsComplete
  refine ⟨?_, ?_, fun s record x p found old ready => ?_, fun s record read x d found unpacking => ?_, ?_, fun s index read job x job_ found => ?_,
    fun s index w g held waits region => ?_, fun s region => rfl, fun s region bdie word => rfl, fun s record x g found region low due => ?_, ?_⟩
  · intro s record read x d found dest up whole linked_ placed free good here
    show execPromotionCommit record read s = _
    rw [execPromotionCommit, State.act_eq, Mod.promoteCommit_ready found dest up whole linked_ placed free good here]
  · intro s record read x g d found region dest down linked_ placed free
    refine ⟨fun p parked slot => ?_, fun elsewhere good => ?_⟩
    · show execEvictionCommit record read s = _
      rw [execEvictionCommit, State.act_eq, Mod.evictCommit_slot found region dest down linked_ placed free parked slot]
    · show execEvictionCommit record read s = _
      rw [execEvictionCommit, State.act_eq, Mod.evictCommit_encodes found region dest down linked_ placed free elsewhere good]
  · show execOldLocationFreed record s = _
    rw [execOldLocationFreed, State.act_eq, Mod.freeOld_ready found old ready]
  · show execUnpackCommit record read s = _
    simp only [execUnpackCommit, State.act_eq, Mod.unpackCommit, found, unpacking]
  · intro s record read x g found region
    refine ⟨fun idle due => ?_, fun d under dest down linked_ placed free elsewhere good => ?_⟩
    · show execRepack record read s = _
      rw [execRepack, State.act_eq, Mod.repack_starts found region idle due]
    · show execRepack record read s = _
      rw [execRepack, State.act_eq, Mod.repack_commits found region under,
        Mod.evictCommit_encodes found region dest down linked_ placed free elsewhere good]
  · show execCopyOnWriteCommit index read s = _
    simp only [execCopyOnWriteCommit, State.act_eq, Mod.cowCommit, job_, found]
  · show execExhaustHoldExpiry index s = _
    rw [execExhaustHoldExpiry, State.act_eq, Mod.dropHeld_space held waits region]
  · show execPinLowEviction record s = _
    simp only [execPinLowEviction, State.act_eq, found, region, low, due, and_self, if_true]
  · rintro s _ rfl
    refine ⟨fun usable little below => ?_, fun enough => ?_⟩
    · show execVictimSelectorRun s = _
      simp only [execVictimSelectorRun, State.act_eq, usable, little, below, and_self, if_true]
    · have stays : ¬ ((s.mach.selectVictims (decide (s.mach.t0Free * 100 < s.mach.t0Pool)) (s.mach.mem.recs.length + 1)).t1Usable = true ∧
          (s.mach.selectVictims (decide (s.mach.t0Free * 100 < s.mach.t0Pool)) (s.mach.mem.recs.length + 1)).t1Free * 50 <
            (s.mach.selectVictims (decide (s.mach.t0Free * 100 < s.mach.t0Pool)) (s.mach.mem.recs.length + 1)).t1Total ∧
          (s.mach.selectVictims (decide (s.mach.t0Free * 100 < s.mach.t0Pool)) (s.mach.mem.recs.length + 1)).t2Usable = true) := by
        rintro ⟨usable, little, below⟩
        rcases enough with h | h | h
        · rw [h] at usable
          cases usable
        · exact absurd little (Nat.not_lt.mpr h)
        · rw [h] at below
          cases below
      show execVictimSelectorRun s = _
      simp only [execVictimSelectorRun, State.act_eq, if_neg stays]

/-- Settles O30: each event takes the one branch of its row that the conditions of the statement leave. -/
theorem versionAndExtentEventsComplete : Obligations.VersionAndExtentEventsComplete := by
  unfold Obligations.VersionAndExtentEventsComplete
  refine ⟨fun s region n m g found lehr none_ sampled slot => ?_, ?_, fun s record read x found encodes still => ?_, ?_, ?_,
    fun s region version g x found listed gone => ?_, fun s extent x found cullet => ⟨fun free offered => ?_, fun kept => ?_⟩,
    fun s ld b bound => ⟨fun live => ?_, fun due => ?_⟩⟩
  · show execFirstTableBuilt region s = _
    rw [execFirstTableBuilt, State.act_eq, Mod.firstTable_built found lehr none_ sampled slot]
  · rintro s region gen g t _ found live past images held flight latched rfl
    show execGenerationFree region gen s = _
    rw [execGenerationFree, State.act_eq, Mod.freeGen_unused found live past images held flight latched]
  · show execSealEncodeComplete record read s = _
    simp only [execSealEncodeComplete, State.act_eq, found, encodes, still, ne_eq, not_false_eq_true, and_self, if_true]
  · rintro s slot c r v n _ g _ _ held work found persisted rfl images rfl rfl
    have imaged : ¬ ((!s.mach.onlyT0) = true ∧ (!((s.mach.recsOf r v).foldl (Mod.checkpointPane g) (s.mach, true)).2) = true) := by
      rintro ⟨notOnly, missing⟩
      rcases images with h | h
      · rw [h] at notOnly
        cases notOnly
      · rw [h] at missing
        cases missing
    have done_ : (!g.durable) = true ∨ (Tbl.find g.vers v).elim true (fun x => x.durableDone) = true :=
      persisted.imp_left fun h => by rw [h]; rfl
    show execCheckpointEncodeComplete slot s = _
    simp only [execCheckpointEncodeComplete, State.act_eq, held, work, found, if_neg imaged]
    exact congrArg (fun m => Host.Outcome.next (s.after m)) (if_pos done_)
  · rintro s region version g _ found persisting rfl idle usable serves
    show execDurablePersistenceComplete region version s = _
    have due : ¬ ((!g.persisting.contains version) = true ∨ ((s.mach.recsOf region version).any (fun k => match Tbl.find s.mach.mem.recs k with
        | some x => x.state == PState.movingUp || x.state == PState.movingDown || x.sealEncode
        | none => false)) = true ∨ (!s.mach.t2Usable) = true) := by
      rintro (unlisted | busy | full)
      · rw [persisting] at unlisted
        cases unlisted
      · exact Bool.false_ne_true (idle.symm.trans busy)
      · rw [usable] at full
        cases full
    simp only [execDurablePersistenceComplete, State.act_eq, found]
    exact congrArg (fun m => Host.Outcome.next (s.after m)) ((if_neg due).trans (if_neg (serves ▸ Bool.false_ne_true)))
  · show execVersionRetired region version s = _
    simp only [execVersionRetired, State.act_eq, found, listed, gone, Bool.false_eq_true, if_false]
  · show execExtentClean extent s = _
    simp only [execExtentClean, State.act_eq, found, cullet, free, offered, Bool.not_true, Bool.false_eq_true, and_self, if_false, if_true]
  · have used : ¬ (x.heldLds = [] ∧ x.pendingLds = []) := fun ⟨free, unoffered⟩ => kept.elim (· free) (· unoffered)
    show execExtentClean extent s = _
    simp only [execExtentClean, State.act_eq, found, cullet, if_neg used, Bool.not_true, Bool.false_eq_true, if_false]
  · show execLeaseGrace ld s = _
    rw [execLeaseGrace, State.act_eq, Mod.enterGrace_live bound live]
  · show execLeaseCleanup ld s = _
    rw [execLeaseCleanup, State.act_eq, Mod.leaseCleanup_due bound due]

end Sys2Proof.Proofs
end

section
/-! PROOF. The events of movements and of streams (O31, O32). -/
namespace Sys2Proof.Machine

variable {m : Mod} {s : State}

/-! ### Movements -/

theorem Mod.endRun_live {slot : Nat} {v : Movement} {st : Status} {reason : Nat} {core : Option Nat} {beat : Nat}
    (found : Tbl.find m.mvs slot = some v) (live : v.state = .running ∨ v.state = .stopping) :
    m.endRun slot st reason core beat = m.runEnded slot v st reason core beat := by
  have goes : ¬ (v.state ≠ .running ∧ v.state ≠ .stopping) := fun ⟨notRunning, notStopping⟩ => live.elim notRunning notStopping
  simp only [Mod.endRun, found, if_neg goes]

/-- A load whose image has been read, passes every check and has an area becomes a loaded movement. -/
theorem Mod.loadChecks_passed {slot : Nat} {v x : Movement} {m1 : Mod} {bs : List Byte} (found : Tbl.find m.mvs slot = some v)
    (loading : v.state = .loading)
    (read : m.readBuffer (4096 + slot) 0 0x10 v.owner v.partition v.buffer.1 v.buffer.2.1 v.buffer.2.2 = (m1, .ready bs))
    (image : imageFault (Mem.pack 0 bs) bs.length (m1.fab.deviceId != 0xFFFF) = none) (bindings : m1.check8 v (Mem.pack 0 bs) = none)
    (access : m1.check9 v (Mem.pack 0 bs) = none) (unfenced : m1.fencedIn (Mem.pack 0 bs) = none) (fits : m1.areaFits v = true)
    (loaded : Tbl.find (m1.takeArea slot).mvs slot = some x) (area : x.imageAt ≠ none) :
    m.loadChecks slot = (((((m1.takeArea slot).setMv slot (fun x => { x with
      state := .loaded, image := Mem.pack 0 bs, length := bs.length })).setCtx slot (fun c => { c with
        work := .none, progress := 1000 })).dropBufs (4096 + slot)).report slot .ok 0 0) := by
  have placed : x.imageAt.isNone = false := by
    rw [Option.isNone_eq_false_iff, Option.isSome_iff_ne_none]
    exact area
  simp only [Mod.loadChecks, found, loading, read, image, bindings, access, unfenced, fits, loaded, placed, Option.elim_some, ne_eq, not_true_eq_false,
    Bool.not_true, Bool.false_eq_true, if_false]

theorem Mod.runFault_of_fault {c slot reason : Nat} {v : Movement} {own : Status × Nat × Option (Nat × Nat)} {who rs : Nat} {st : Status}
    {place : Option (Nat × Nat)} (run : m.runOf c = some (slot, v)) (fault : (m.core c).fault = some own) (cause : own.2.1 = reason)
    (first : m.faultOf v = some (who, st, rs, place)) : m.runFault c reason = m.runFaulted slot v who st rs place := by
  simp only [Mod.runFault, run, fault, cause, first, reduceCtorEq, false_and, if_false, Option.map_some, ne_eq, not_true_eq_false]

section Fetch
variable {core : CoreNo} {ticket : Nat} {read : Media} {f : FetchReq} {g : FabRegion} {e : StripeEntry}
  (asked : ((s.mach.core core.toNat).fetches.take 32).find? (fun f => f.ticket = ticket) = some f)
  (own : (s.mach.core core.toNat).stores.any (fun (x : StoreReq) => decide (x.ticket < ticket) && x.region = f.region && x.sel == f.sel && x.pane = f.pane &&
    (x.image.isSome || x.offset / 2048 = f.tile)) = false) (fresh : f.asked = false)
include asked own fresh

theorem exec_tileFetchComplete_local (here : f.region < 0x8000) : exec (.tileFetchComplete core ticket read) s =
    .next (s.after (s.mach.fetchHere core.toNat f f.region f.sel f.pane read)) := by
  show execTileFetchComplete core ticket read s = _
  simp only [execTileFetchComplete, State.act_eq, asked, own, fresh, Bool.false_eq_true, or_self, if_false, if_pos here]

theorem exec_tileFetchComplete_fabric (there : 0x8000 ≤ f.region) (joined : Tbl.find s.mach.fm.regions (f.region - 0x8000) = some g)
    (entry : g.entry f.pane = some e) : exec (.tileFetchComplete core ticket read) s = .next (s.after (
      if e.home = s.mach.fab.deviceId ∧ !g.accessor then
        (s.mach.reachPart (f.region - 0x8000) (s.mach.partSel f.sel) false).fetchHere core.toNat f g.localRegion (s.mach.partSel f.sel)
          (g.localPane e f.pane) read
      else s.mach.askTile core.toNat f (f.region - 0x8000) e.home g.stripeGen)) := by
  show execTileFetchComplete core ticket read s = _
  simp only [execTileFetchComplete, State.act_eq, asked, own, fresh, Bool.false_eq_true, or_self, if_false, if_neg (Nat.not_lt.mpr there), joined,
    Option.bind_some, entry, Option.map_some]

end Fetch

/-- A barrier that is met and not held releases the movement: its run ends, or its next beat begins. -/
theorem Mod.releaseBarrier_met {slot : Nat} {v : Movement} (found : Tbl.find m.mvs slot = some v) (live : v.state = .running ∨ v.state = .stopping)
    (waits : v.stopMode ≠ 2) (met : m.barrierMet v = true) (free : m.captureDue slot v = none) :
    m.releaseBarrier slot =
      if v.beat + 1 = imgBeats v.image then m.runEnded slot v .ok 0 none v.beat
      else if v.stopMode = 1 then m.runEnded slot v .aborted 6 none (v.beat + 1)
      else (((m.each (coreSet v.image) (fun m c => m.setCore c (fun k => { k with atBarrier := false }))).setMv slot (fun x => { x with
        beat := v.beat + 1, beatStart := m.localTime, longBeatRaised := false, hangDeclared := false })).traceBeat
          slot v (v.beat + 1)).boundarySteps (coreSet v.image) := by
  have goes : ¬ ((v.state ≠ .running ∧ v.state ≠ .stopping) ∨ v.stopMode = 2 ∨ (!m.barrierMet v) = true) := by
    rw [met]
    rintro (⟨notRunning, notStopping⟩ | now | unmet)
    · exact live.elim notRunning notStopping
    · exact waits now
    · cases unmet
  simp only [Mod.releaseBarrier, found, if_neg goes, free, Mod.endRun_live found live]

theorem Mod.releaseBarrier_held {slot : Nat} {v : Movement} {c : Capture} (found : Tbl.find m.mvs slot = some v)
    (live : v.state = .running ∨ v.state = .stopping) (waits : v.stopMode ≠ 2) (met : m.barrierMet v = true) (due : m.captureDue slot v = some c) :
    m.releaseBarrier slot = (m.setHang (fun h => { h with
        captures := h.captures.map (fun x => if x.ctxSlot = c.ctxSlot then { x with holding := true } else x) })).setCtx c.ctxSlot (fun x =>
          { x with pastPonr := true }) := by
  have goes : ¬ ((v.state ≠ .running ∧ v.state ≠ .stopping) ∨ v.stopMode = 2 ∨ (!m.barrierMet v) = true) := by
    rw [met]
    rintro (⟨notRunning, notStopping⟩ | now | unmet)
    · exact live.elim notRunning notStopping
    · exact waits now
    · cases unmet
  simp only [Mod.releaseBarrier, found, if_neg goes, due]

/-! ### Streams -/

theorem Mod.pacedFetch_local {n i : Nat} {t : Stream} (found : Tbl.find m.streams n = some t) (paced : t.paced = true)
    (live : t.state = .open ∨ t.state = .stopping) (more : t.bound.elim false (fun b => decide (b ≤ t.nextFetch)) = false)
    (index : t.tileIndex t.nextFetch = .ofNat i) (here : t.region < 0x8000) :
    m.pacedFetch n = m.pacedLocal n t.nextFetch t.region t.sel (i / 32) (i % 32) := by
  have goes : ¬ ((!t.paced) = true ∨ (t.state ≠ .open ∧ t.state ≠ .stopping) ∨ t.bound.elim false (fun b => decide (b ≤ t.nextFetch)) = true) := by
    rw [paced, more]
    rintro (ingest | ⟨notOpen, notStopping⟩ | past)
    · cases ingest
    · exact live.elim notOpen notStopping
    · cases past
  simp only [Mod.pacedFetch, found, if_neg goes, index, if_pos here]

theorem Mod.pacedWrite_fetched {k n : Nat} {t : Stream} {bytes : List Byte} (found : Tbl.find m.streams k = some t)
    (live : t.state = .open ∨ t.state = .stopping) (fetched : t.fetched.find? (fun f => f.1 = t.next) = some (n, 1, bytes))
    (free : m.overMax 5 (m.holderOf k / 16) (m.holderOf k) none = false) : m.pacedWrite k = m.pacedDelivered k t bytes := by
  have goes : ¬ (t.state ≠ .open ∧ t.state ≠ .stopping) := fun ⟨notOpen, notStopping⟩ => live.elim notOpen notStopping
  simp only [Mod.pacedWrite, found, if_neg goes, fetched, free, Bool.false_eq_true, if_false]

theorem Mod.pacedCutoff_due {n : Nat} {t : Stream} (found : Tbl.find m.streams n = some t) (paced : t.paced = true)
    (live : t.state = .open ∨ t.state = .stopping) (more : t.bound.elim false (fun b => decide (b ≤ t.cutoffs)) = false) :
    m.pacedCutoff n = if t.cutoffs < t.next then m.setStream n (fun t => { t with cutoffs := t.cutoffs + 1 }) else m.pacedHole n t := by
  have goes : ¬ ((!t.paced) = true ∨ (t.state ≠ .open ∧ t.state ≠ .stopping) ∨ t.bound.elim false (fun b => decide (b ≤ t.cutoffs)) = true) := by
    rw [paced, more]
    rintro (ingest | ⟨notOpen, notStopping⟩ | past)
    · cases ingest
    · exact live.elim notOpen notStopping
    · cases past
  simp only [Mod.pacedCutoff, found, if_neg goes]

end Sys2Proof.Machine

namespace Sys2Proof.Proofs
open Sys2Proof Sys2Proof.Machine

/-- Settles O31: each event takes the one branch of its row that the conditions of the statement leave. -/
theorem movementEventsComplete : Obligations.MovementEventsComplete := by
  unfold Obligations.MovementEventsComplete
  refine ⟨?_, fun s core ticket st found placed before images => ?_, ?_, fun s core reason slot v own who rs st place run fault cause first => ?_,
    fun s slot v found live => ⟨fun limited => ?_, fun fresh => ?_, fun waits met free => ⟨fun last => ?_, fun more stops => ?_, fun more goes => ?_⟩,
      fun waits met c due => ?_⟩, fun s slot v st reason core found ending stopping now => ?_⟩
  · intro s slot v x m bs found loading read image bindings access unfenced fits loaded area
    show execLoadChecksComplete slot s = _
    rw [execLoadChecksComplete, State.act_eq, Mod.loadChecks_passed found loading read image bindings access unfenced fits loaded area]
  · show execTileStoreCommit core ticket s = _
    simp only [execTileStoreCommit, State.act_eq, found, placed, before, images, Bool.false_eq_true, or_self, if_false]
  · intro s core ticket read f asked own fresh
    refine ⟨exec_tileFetchComplete_local asked own fresh, fun there g e joined entry away => ?_, fun there g e joined entry home member => ?_⟩
    · have remote : ¬ (e.home = s.mach.fab.deviceId ∧ (!g.accessor) = true) := by
        rintro ⟨home, member⟩
        rcases away with h | h
        · exact h home
        · rw [h] at member
          cases member
      rw [exec_tileFetchComplete_fabric asked own fresh there joined entry, if_neg remote]
    · rw [exec_tileFetchComplete_fabric asked own fresh there joined entry, if_pos ⟨home, by rw [member]; rfl⟩]
  · show execRunFault core reason s = _
    rw [execRunFault, State.act_eq, Mod.runFault_of_fault run fault cause first]
  · show execTimeLimitExpiry slot s = _
    simp only [execTimeLimitExpiry, State.act_eq, found, limited, if_false, Mod.endRun_live found live]
  · have goes : ¬ ((v.state ≠ .running ∧ v.state ≠ .stopping) ∨ v.longBeatRaised = true) := by
      rw [fresh]
      rintro (⟨notRunning, notStopping⟩ | raised)
      · exact live.elim notRunning notStopping
      · cases raised
    show execLongBeat slot s = _
    simp only [execLongBeat, State.act_eq, found, if_neg goes]
  · show execBarrierRelease slot s = _
    rw [execBarrierRelease, State.act_eq, Mod.releaseBarrier_met found live waits met free, if_pos last]
  · show execBarrierRelease slot s = _
    rw [execBarrierRelease, State.act_eq, Mod.releaseBarrier_met found live waits met free, if_neg more, if_pos stops]
  · show execBarrierRelease slot s = _
    rw [execBarrierRelease, State.act_eq, Mod.releaseBarrier_met found live waits met free, if_neg more, if_neg goes]
  · show execBarrierRelease slot s = _
    rw [execBarrierRelease, State.act_eq, Mod.releaseBarrier_held found live waits met due]
  · show execMovementStopped slot s = _
    simp only [execMovementStopped, State.act_eq, Mod.stopped, found, ending, stopping, now, and_self, if_true,
      Mod.endRun_live found (.inr stopping)]

/-- Settles O32: each event takes the one branch of its row that the conditions of the statement leave. -/
theorem streamEventsComplete : Obligations.StreamEventsComplete := by
  unfold Obligations.StreamEventsComplete
  refine ⟨fun s => rfl, fun s slot t i found paced live more index here => ?_, fun s slot t n bytes found live fetched free => ?_,
    fun s slot t found paced live more => ⟨fun ahead => ?_, fun behind => ?_⟩, fun s slot t found paced => ⟨fun stopping at_ => ?_, fun open_ ends => ?_⟩,
    fun s slot record t found => ⟨fun k x staged => ?_, fun empty ingest stopping => ?_⟩⟩
  · show execPacedTileFetch slot s = _
    rw [execPacedTileFetch, State.act_eq, Mod.pacedFetch_local found paced live more index here]
  · show execPacedTileWrite slot s = _
    rw [execPacedTileWrite, State.act_eq, Mod.pacedWrite_fetched found live fetched free]
  · show execPacedCutoff slot s = _
    rw [execPacedCutoff, State.act_eq, Mod.pacedCutoff_due found paced live more, if_pos ahead]
  · show execPacedCutoff slot s = _
    rw [execPacedCutoff, State.act_eq, Mod.pacedCutoff_due found paced live more, if_neg (Nat.not_lt.mpr behind)]
  · show execPacedStopRecord slot s = _
    simp only [execPacedStopRecord, State.act_eq, found, paced, stopping, at_, ne_eq, not_true_eq_false, Bool.not_true, Bool.false_eq_true, or_self,
      if_false]
  · show execPacedEndRecord slot s = _
    simp only [execPacedEndRecord, State.act_eq, found, paced, open_, ends, ne_eq, not_true_eq_false, Bool.not_true, Bool.false_eq_true, or_self,
      if_false]
  · show execIngestDrainIdle slot record s = _
    simp only [execIngestDrainIdle, State.act_eq, found, staged]
  · show execIngestDrainIdle slot record s = _
    simp only [execIngestDrainIdle, State.act_eq, found, empty, List.find?_nil, Mod.drainCheck, ingest, stopping, ne_eq, not_true_eq_false,
      Bool.false_eq_true, or_self, if_false]

end Sys2Proof.Proofs
end

section
/-! PROOF. Ports that have a link: control flits, expected data flits, retries and loss (spec/09_fabric_links_routing.md). -/
namespace Sys2Proof.Machine

/-- A control flit is taken on a port that has a link. -/
theorem Mod.ctlRow_linked {m : Mod} {i : Nat} (linked : (m.fport i).linked = true) (f : Mod → Mod) : m.ctlRow i f = f (m.nextSeq i) :=
  if_pos linked

theorem Mod.losePort_linked {m : Mod} {i : Nat} (linked : (m.fport i).linked = true) (cause : Nat) :
    m.losePort i cause = m.portLost i cause (m.fport i) :=
  if_pos (.inl linked)

theorem Mod.losePort_retraining {m : Mod} {i : Nat} (trains : (m.fport i).retrain.isSome = true) (cause : Nat) :
    m.losePort i cause = m.portLost i cause (m.fport i) :=
  if_pos (.inr trains)

/-- The expected flit on a linked port, where its seal opens: a packet flit or a control flit by its kind. -/
theorem Mod.dataFlit_of_unseal {m : Mod} {i : Nat} {flit plain : List Byte} {rx : LinkKey} {old : Option LinkKey} (serial : Nat)
    (linked : (m.fport i).linked = true) (good : flitGood flit = true) (kind : bits (leNat (flit.take 8)) 36 4 = 0 ∨ bits (leNat (flit.take 8)) 36 4 = 3)
    (seq : bits (leNat (flit.take 8)) 52 12 = (m.fport i).expected) (opened : (m.fport i).unseal flit = some (plain, rx, old)) :
    m.dataFlit serial i flit =
      let taken := (m.ackFlit i (bits (leNat (flit.take 8)) 40 12) (bits (leNat (flit.take 8)) 32 3) (bits (leNat (flit.take 8)) 20 12)).setFport i
        (fun g => { g with rxKey := rx, rxOld := old })
      if bits (leNat (flit.take 8)) 36 4 = 3 then (taken.nextSeq i).onCtl serial i plain
      else taken.flitTaken i (m.fport i) (bits (leNat (flit.take 8)) 15 5) plain := by
  have kind' : ¬ (bits (leNat (flit.take 8)) 36 4 ≠ 0 ∧ bits (leNat (flit.take 8)) 36 4 ≠ 3) := by omega
  simp only [Mod.dataFlit, linked, good, Bool.not_true, Bool.false_eq_true, if_false, if_neg kind', seq, ne_eq, not_true_eq_false, opened]

/-- A good RETRY_REQ on a linked port: the eighth for one SEQ without progress retrains the port, and any other sends the buffer again (R302). -/
theorem Mod.retryReq_good {m : Mod} {i : Nat} {flit : List Byte} (linked : (m.fport i).linked = true) (good : flitGood flit = true) :
    m.retryReq i flit =
      let seq := bits (leNat (flit.take 8)) 40 12
      let noted := m.ackNoted i ((seq + 4095) % 4096) (bits (leNat (flit.take 8)) 32 3) (bits (leNat (flit.take 8)) 20 12)
      let n := if (noted.fport i).gotRetry.1 = seq then (noted.fport i).gotRetry.2 + 1 else 1
      if 8 ≤ n then (noted.retryNoted i seq n).retrainPort i (m.fport i).state else ((noted.retryNoted i seq n).replayFrom i seq).resume i := by
  simp only [Mod.retryReq, linked, good, Bool.not_true, Bool.false_eq_true, if_false]

end Sys2Proof.Machine

namespace Sys2Proof.Proofs
open Sys2Proof Sys2Proof.Machine

/-- Settles O33: each event takes the one branch of its row that the state of the port leaves. -/
theorem fabricLinkCommandsComplete : Obligations.FabricLinkCommandsComplete := by
  unfold Obligations.FabricLinkCommandsComplete
  refine ⟨?_, fun s port linked => ⟨fun payload => ?_, fun payload => ?_, fun payload => ?_, ?_, fun flit good => ?_, ?_, ?_⟩, ?_, ?_,
    fun s port trains => ?_, fun s port carries enc => ?_, fun s port v up stalled => ?_⟩
  · rintro s port mode lanes f m rfl training rfl
    refine ⟨fun not2 not4 => ?_, fun lanesOk first => ?_, fun lanesOk st stOk again => ?_⟩
    · show execPortTrainingComplete port mode lanes s = _
      simp only [execPortTrainingComplete, State.actF_eq, training, ne_eq, not_true_eq_false, not2, not4, not_false_eq_true, and_self, if_false, if_true]
    all_goals have wired : ¬ (lanes ≠ 2 ∧ lanes ≠ 4) := by omega
    · show execPortTrainingComplete port mode lanes s = _
      simp only [execPortTrainingComplete, State.actF_eq, training, ne_eq, not_true_eq_false, if_neg wired, first, if_false]
    · refine ⟨fun quiet => ?_, fun greet => ?_⟩
      · show execPortTrainingComplete port mode lanes s = _
        simp only [execPortTrainingComplete, State.actF_eq, training, ne_eq, not_true_eq_false, if_neg wired, again, if_pos stOk, quiet,
          Bool.false_eq_true, if_false]
      · show execPortTrainingComplete port mode lanes s = _
        simp only [execPortTrainingComplete, State.actF_eq, training, ne_eq, not_true_eq_false, if_neg wired, again, if_pos stOk, greet, if_false, if_true]
  · show execHello port payload s = _
    rw [execHello, State.actF_eq, Mod.ctlRow_linked linked]
  · show execKey port payload s = _
    rw [execKey, State.act_eq, Mod.ctlRow_linked linked]
  · show execTimestamp port payload s = _
    rw [execTimestamp, State.act_eq, Mod.ctlRow_linked linked]
  · show execGoodbye port s = _
    rw [execGoodbye, State.act_eq, Mod.ctlRow_linked linked]
  · show execIdleFlit port flit s = _
    simp only [execIdleFlit, State.act_eq, linked, good, Bool.not_true, Bool.false_eq_true, if_false]
  · show execAckTimer port s = _
    rw [execAckTimer, State.act_eq, if_pos linked]
  · show execFecAlignmentLost port s = _
    rw [execFecAlignmentLost, State.act_eq, if_pos linked, Mod.losePort_linked linked]
  · rintro s port flit plain h rx old m linked good rfl seq opened rfl
    refine ⟨fun packet => ?_, fun control => ?_⟩
    · show execDataFlit port flit s = _
      rw [execDataFlit, State.actF_eq, Mod.dataFlit_of_unseal _ linked good (.inl packet) seq opened]
      exact congrArg (fun m => Host.Outcome.next (s.after m)) (if_neg (by rw [packet]; decide))
    · show execDataFlit port flit s = _
      rw [execDataFlit, State.actF_eq, Mod.dataFlit_of_unseal _ linked good (.inr control) seq opened]
      simp only [control, if_true]
  · rintro s port flit seq n m linked good rfl rfl rfl
    refine ⟨fun eighth => ?_, fun fewer => ?_⟩
    · show execRetryReq port flit s = _
      rw [execRetryReq, State.act_eq, Mod.retryReq_good linked good]
      exact congrArg (fun m => Host.Outcome.next (s.after m)) (if_pos eighth)
    · show execRetryReq port flit s = _
      rw [execRetryReq, State.act_eq, Mod.retryReq_good linked good]
      exact congrArg (fun m => Host.Outcome.next (s.after m)) (if_neg (Nat.not_le.mpr fewer))
  · show execRetrainTimeout port s = _
    rw [execRetrainTimeout, State.act_eq, if_pos trains, Mod.losePort_retraining trains]
  · show execKeyEpochChange port s = _
    rw [execKeyEpochChange, State.act_eq, if_pos ⟨carries, enc⟩]
  · show execLinkStall port s = _
    simp only [execLinkStall, State.act_eq, stalled, up, if_true]

end Sys2Proof.Proofs
end

section
/-! PROOF. Services and timers of the fabric (spec/09_fabric_links_routing.md, spec/10_fabric_memory_space.md). -/
namespace Sys2Proof.Machine

/-- The first member that a seal still waits for is late. -/
theorem Mod.sealTimeout_awaits {m : Mod} {fr d : Nat} {rest : List Nat} {f : FabRegion} {x : FabSeal} (found : Tbl.find m.fm.regions fr = some f)
    (sealing : f.sealing = some x) (awaits : x.awaited = d :: rest) : m.sealTimeout fr = m.sealLate fr f x d := by
  simp only [Mod.sealTimeout, found, sealing, awaits]

end Sys2Proof.Machine

namespace Sys2Proof.Proofs
open Sys2Proof Sys2Proof.Machine

/-- Settles O34: each event takes the one branch of its row that the conditions of the statement leave. -/
theorem fabricServiceCommandsComplete : Obligations.FabricServiceCommandsComplete := by
  unfold Obligations.FabricServiceCommandsComplete
  refine ⟨?_, ?_, ?_, ?_, ?_, fun s v n waits => ⟨?_, ?_⟩, fun s slot c mask ms found active work => ?_⟩
  · rintro s port p m arrived rfl
    refine ⟨fun unnamed => ?_, fun named dead => ?_, fun named live => ?_⟩
    · show execPacketForward port s = _
      simp only [execPacketForward, State.act_eq, arrived, if_pos unnamed]
    · show execPacketForward port s = _
      simp only [execPacketForward, State.act_eq, arrived, if_neg named, if_pos dead]
    · show execPacketForward port s = _
      simp only [execPacketForward, State.act_eq, arrived, if_neg named, if_neg (Nat.not_le.mpr live)]
  · rintro s port present m rfl
    refine ⟨fun deep => ?_, fun shallow gone => ?_, fun shallow here down trains => ?_⟩
    · show execFabPresenceChange port present s = _
      simp only [execFabPresenceChange, State.act_eq, if_pos deep]
    · show execFabPresenceChange port present s = _
      simp only [execFabPresenceChange, State.act_eq, if_neg (Nat.not_le.mpr shallow), gone, Bool.not_false, if_true]
    · show execFabPresenceChange port present s = _
      subst here
      rw [execFabPresenceChange, State.act_eq, if_neg (Nat.not_le.mpr shallow), if_neg (show ¬ (!true) = true from Bool.false_ne_true),
        if_pos ⟨down, trains⟩]
  · intro s connector m powered lost
    show execCablePowerFault connector s = _
    simp only [execCablePowerFault, State.act_eq, powered, Bool.not_true, Bool.false_eq_true, if_false]
    rw [← lost]
  · intro s port p m taken due
    have wave : waveNewer (p.num 0 2) s.mach.fab.lastWave = true ∨ (!s.mach.fab.synced) = true := due.imp_right (by rw [·]; rfl)
    show execSync port s = _
    simp only [execSync, State.act_eq, taken, if_pos wave]
  · rintro s port p m m2 m3 taken newer rfl rfl
    show execFreezeTrigger port s = _
    simp only [execFreezeTrigger, State.act_eq, taken, if_pos newer]
  · show execFtcSyncEdge s = _
    simp only [execFtcSyncEdge, State.act_eq, waits]
  · show execFtcSyncEdgeTimeout s = _
    simp only [execFtcSyncEdgeTimeout, State.act_eq, waits]
  · show execFabDiscoverTimeout slot s = _
    simp only [execFabDiscoverTimeout, State.act_eq, found, work, if_pos active]

/-- Settles O35: each timer finds what it was set for, and takes the row's one branch for it. -/
theorem fabricTimerCommandsComplete : Obligations.FabricTimerCommandsComplete := by
  unfold Obligations.FabricTimerCommandsComplete
  refine ⟨fun s fregion unit h f moves found phase at_ quiet => ?_, fun s token w waits not10 not1C => ?_, fun s tag q waits sent => ?_,
    fun s fregion d rest f x found sealing awaits => ?_, fun s fregion f p found member prepared => ?_, ?_⟩
  · show execRehomeUnitCommit fregion unit s = _
    simp only [execRehomeUnitCommit, State.act_eq, moves, found, phase, at_, quiet, ne_eq, not_true_eq_false, Option.isSome_none, Bool.false_eq_true,
      or_self, if_false]
  · show execVersionOpTimeout token s = _
    simp only [execVersionOpTimeout, State.act_eq, waits, not10, not1C, or_self, if_false]
  · show execRemoteRequestTimeout tag s = _
    simp only [execRemoteRequestTimeout, State.act_eq, waits, sent, Bool.not_true, Bool.false_eq_true, if_false]
  · show execSealAckTimeout fregion s = _
    rw [execSealAckTimeout, State.act_eq, Mod.sealTimeout_awaits found sealing awaits]
  · show execPreparedSealTimeout fregion s = _
    simp only [execPreparedSealTimeout, State.act_eq, found, if_neg member, prepared]
  · rintro s tree round t r m found rounds rfl
    show execTreeRoundTimeout tree round s = _
    rw [execTreeRoundTimeout, State.act_eq, found, Option.bind_some, rounds] <;> rfl

end Sys2Proof.Proofs
end

section
/-! PROOF. Heals, hangs and captures (spec/15_integrity_poison.md, spec/17_counters_trace_dumps.md). -/
namespace Sys2Proof.Machine

/-- A heal whose tiles have all arrived, and which has a frame, commits. -/
theorem Mod.healCommit_whole {m : Mod} {record : Nat} {h : Heal} {x : PaneRec} {g : Region} (read : Media)
    (heals : m.svc.heals.find? (fun h => h.record = record) = some h) (found : Tbl.find m.mem.recs record = some x)
    (region : Tbl.find m.mem.regions x.region = some g) (whole : h.tiles.length = 32) (placed : h.frame.sectors ≠ 0) :
    m.healCommit record read = (m.healed record h x g).healRead record read := by
  simp only [Mod.healCommit, heals, found, region, whole, placed, ne_eq, not_true_eq_false, or_self, if_false]

theorem Mod.healFail_healing {m : Mod} {record : Nat} {h : Heal} (heals : m.svc.heals.find? (fun h => h.record = record) = some h) (detail : Nat) :
    m.healFail record detail = m.healGivenUp record h detail := by
  simp only [Mod.healFail, heals]

/-- A hang is declared once for a movement that runs, and once for one that stops. -/
theorem Mod.declareHang_due {m : Mod} {slot : Nat} {v : Movement} (found : Tbl.find m.mvs slot = some v)
    (due : v.state = .running ∧ v.hangDeclared = false ∨ v.state = .stopping ∧ v.hangStop = false) : m.declareHang slot = m.hangDeclared slot v := by
  rw [Mod.declareHang, found]
  rcases due with ⟨runs, fresh⟩ | ⟨stops, fresh⟩
  · exact if_neg (by simp [runs, fresh])
  · exact if_neg (by simp [stops, fresh])

theorem Mod.captureTaken_holding {m : Mod} {slot : Nat} {v : Movement} {c : Capture} (found : Tbl.find m.mvs slot = some v)
    (holds : m.svc.hang.captures.find? (fun c => c.movement = slot && c.holding) = some c) : m.captureTaken slot = m.captured slot v c := by
  simp only [Mod.captureTaken, found, holds]

end Sys2Proof.Machine

namespace Sys2Proof.Proofs
open Sys2Proof Sys2Proof.Machine

/-- Settles O36: each event finds what it concerns, and takes the row's one branch for it. -/
theorem serviceEventsComplete : Obligations.ServiceEventsComplete := by
  unfold Obligations.ServiceEventsComplete
  refine ⟨fun s record read h x g heals found region whole placed => ?_, fun s record h heals => ?_,
    fun s corrected found p c scrubs ctx => ⟨fun goes quiet => ?_, fun cancels => ?_⟩, fun s core n next enabled open_ ready => ?_,
    fun s core due shallow => ?_, fun s j idle job => ?_, fun s core slot pc v d j run moving at_ desc op goes idle job => ?_,
    fun s core result k kind rest runs => ?_, ?_, fun s slot v found due => ?_, fun s dump => rfl, fun s slot v c found holds => ?_,
    fun s slot c on_ up found => ⟨fun active => ?_, fun cancels => ?_⟩⟩
  · show execHealCommit record read s = _
    rw [execHealCommit, State.act_eq, Mod.healCommit_whole read heals found region whole placed]
  · show execHealTimeout record s = _
    rw [execHealTimeout, State.act_eq, Mod.healFail_healing heals]
  · show execScrubPassComplete corrected found s = _
    simp only [execScrubPassComplete, State.act_eq, scrubs, ctx, if_neg goes, quiet, Bool.false_eq_true, if_false]
  · show execScrubPassComplete corrected found s = _
    simp only [execScrubPassComplete, State.act_eq, scrubs, ctx, if_pos cancels]
  · show execKernelDue core s = _
    simp only [execKernelDue, State.act_eq, next, enabled, open_, ready, Bool.not_true, Bool.false_eq_true, ne_eq, not_true_eq_false, or_self, if_false]
  · show execKernelDeferExpiry core s = _
    rw [execKernelDeferExpiry, State.act_eq, if_neg (not_or.mpr ⟨due, Nat.not_le.mpr shallow⟩)]
  · show execKernelRunStart s = _
    simp only [execKernelRunStart, State.act_eq, idle, ne_eq, not_true_eq_false, if_false, job]
  · show execKernelInsertion core s = _
    simp only [execKernelInsertion, State.act_eq, run, moving, at_, Nat.add_sub_cancel, desc, Option.elim_some, op, goes, idle, job]
    simp
  · show execKernelRunEnd core result s = _
    simp only [execKernelRunEnd, State.act_eq, runs, ne_eq, not_true_eq_false, if_false]
  · rintro s port corrected total m linked rfl
    refine ⟨fun within => ?_, fun beyond => ?_⟩
    · show execFecMargin port corrected total s = _
      simp only [execFecMargin, State.act_eq, linked, Bool.not_true, Bool.false_eq_true, if_false, if_pos within]
    · show execFecMargin port corrected total s = _
      simp only [execFecMargin, State.act_eq, linked, Bool.not_true, Bool.false_eq_true, if_false, if_neg (Nat.not_le.mpr beyond)]
  · show execHangDeclare slot s = _
    rw [execHangDeclare, State.act_eq, Mod.declareHang_due found due]
  · show execCaptureTaken slot s = _
    rw [execCaptureTaken, State.act_eq, Mod.captureTaken_holding found holds]
  · have powered : ¬ (s.mach.pow.phase ≠ .on ∨ s.mach.pow.modReset = true) := by simp [on_, up]
    show execContextWorkComplete slot s = _
    simp only [execContextWorkComplete, State.burn_eq, found, if_neg powered, active]
  · have powered : ¬ (s.mach.pow.phase ≠ .on ∨ s.mach.pow.modReset = true) := by simp [on_, up]
    show execContextWorkComplete slot s = _
    simp only [execContextWorkComplete, State.burn_eq, found, if_neg powered, cancels]
    rfl

end Sys2Proof.Proofs
end
